-- ==== Sys2Proof/Word.lean ====
section
/-!
DEFINITION. The word types of the model (R9, R10, R11).
-/

namespace Sys2Proof

/-- A register word (R11). -/
abbrev Word := BitVec 32

/-- A byte of plot space, of an image or of a message (R10). -/
abbrev Byte := BitVec 8

end Sys2Proof
end

