-- ==== Sys2Proof/Config.lean ====
section
/-!
DEFINITION. What an implementation fixes: the three bondings (R1), and the values the spec leaves open, as constants
without a body.
-/

namespace Sys2Proof

/-- The three bondings of the part (R1). -/
inductive Variant where
  | qc8816 | qc8808 | qc8804
  deriving DecidableEq, Repr

namespace Variant

/-- GLB_ID.VARIANT (R6). -/
def code : Variant → Nat
  | .qc8816 => 0x10 | .qc8808 => 0x08 | .qc8804 => 0x04

/-- Beds enabled, and stream engines, which are as many (R1, R7). -/
def beds : Variant → Nat
  | .qc8816 => 16 | .qc8808 => 8 | .qc8804 => 4

/-- Runners enabled (R1). -/
def runners : Variant → Nat
  | .qc8816 => 64 | .qc8808 => 32 | .qc8804 => 16

/-- Pixel engines fitted, active and spare together (R7). -/
def pes : Variant → Nat
  | .qc8816 => 68 | .qc8808 => 34 | .qc8804 => 17

/-- The engines that active service needs, above which fitted engines count as spares (R249). -/
def peBase : Variant → Nat
  | .qc8816 => 64 | .qc8808 => 32 | .qc8804 => 16

/-- HBM stacks fitted (R1). -/
def hbmStacks : Variant → Nat
  | .qc8816 => 4 | .qc8808 => 2 | .qc8804 => 1

/-- Scan-out heads enabled (R1). -/
def heads : Variant → Nat
  | .qc8816 => 8 | .qc8808 => 4 | .qc8804 => 2

/-- SDI drivers enabled (R1). -/
def sdi : Variant → Nat
  | .qc8816 => 32 | .qc8808 => 16 | .qc8804 => 8

/-- Stream contexts per stream engine (R1). -/
def contexts : Variant → Nat
  | .qc8804 => 1 | _ => 8

/-- Fitted plot space in GiB (spec/01_organisation.md, Plot window). -/
def plotGiB : Variant → Nat
  | .qc8816 => 96 | .qc8808 => 48 | .qc8804 => 24

end Variant

namespace Config

/-- A free value of the model, by index: a value the spec leaves open or does not state. -/
opaque freeNat : Nat → Nat

/-- A signed free value of the model, by index. -/
opaque freeInt : Nat → Int

end Config

end Sys2Proof
end

