-- ==== Sys2Proof/Syntax.lean ====
section
/-!
DEFINITION. The commands the block takes: every row of spec/opcode_table.json, with the operands its rule gives it and
with what the outside world decides (what a read over a damaged word finds, what a peer sends) as operands too.
-/

namespace Sys2Proof

/-- An error in one symbol of a Qoreth word: symbol 0 to 35 and what is added to it (R344, R345). -/
structure SymErr where
  sym : Nat
  add : Byte
  deriving DecidableEq, Repr

/-- The symbols in error of one word of plot space, named by the word's address. -/
structure MemErr where
  addr : Nat
  errs : List SymErr
  deriving DecidableEq, Repr

/-- An occurrence that a concession or event record reports (R37, R39). -/
structure Occurrence where
  block : Nat
  inst : Nat
  broken : Nat
  kept : Nat
  reason : Nat
  detail : Nat
  event : Bool
  deriving DecidableEq, Repr

/-- What the outside world decides while seeding runs: unreadable slots, the pseudo-channels that fail training, the Runners that reach
ACTIVE and at which tier, how often a PLL and the firmware fail, and how long it takes (R72, R73). -/
structure SeedEnv where
  /-- slots with a byte that cannot be read, and its offset in the image -/
  bad : List (Nat × Nat)
  pcFails : List Nat
  runners : List (Nat × Nat)
  pllFails : Nat
  fwFails : Nat
  ms : Nat
  deriving DecidableEq, Repr

/-- An Announce message (R89). -/
structure PtpAnnounce where
  port : Nat
  domain : Nat
  logInterval : Int
  sender : Nat
  gmId : Nat
  priority1 : Nat
  clockClass : Nat
  accuracy : Nat
  variance : Nat
  priority2 : Nat
  stepsRemoved : Nat
  deriving DecidableEq, Repr

/-- A Sync, Follow_Up or Delay_Resp message (R89): the timestamp it carries and its correction, in 2^-16 ns. -/
structure PtpTimed where
  port : Nat
  domain : Nat
  sender : Nat
  seq : Nat
  logInterval : Int
  twoStep : Bool
  time : Int
  correction : Int
  deriving DecidableEq, Repr

/-- A read or write that a port presents to the HBM controller (R348): `cls` is 4, 5 or 6 for a real-time port, 7 for
the recording urgent class and 8 for any other port; `level` is the fill of a real-time port's buffer in sixteenths;
`last` marks the end of an item. -/
structure MemOp where
  cls : Nat
  block : Nat
  inst : Nat
  addr : Nat
  data : List Byte
  len : Nat
  level : Nat
  first : Bool
  last : Bool
  itemAddr : Nat
  deriving DecidableEq, Repr

/-- A sync code seen on a Runner (R151 to R153): its type word, its bit position modulo the word length, whether all
lanes show it there, and the words each lane has delivered since the Runner's last code. -/
structure SyncCode where
  runner : Nat
  word : Nat
  grid : Nat
  agree : Bool
  lanes : List (List Nat)
  deriving DecidableEq, Repr

/-- The errors a trug word is read with, by its place in the unit read (R111, R112). -/
structure WordErr where
  word : Nat
  errs : List SymErr
  tagErrs : Nat
  deriving DecidableEq, Repr

/-- The operand fields of a pixel-engine instruction word (R232). -/
structure PeOp where
  mode : Nat
  d : Nat
  a : Nat
  b : Nat
  c : Nat
  imm : BitVec 30
  deriving DecidableEq, Repr

/-- A CTU as decoding gives it (R303): its raster address, the vectors of the prediction units at its top right and
bottom left where they are inter-predicted with an L0 vector, each with the POC of its reference, and whether it is
predicted from a picture missing under class 5. -/
structure CtuSeen where
  addr : Nat
  topRight : Option (Int × Int × Int)
  bottomLeft : Option (Int × Int × Int)
  missing : Bool
  deriving DecidableEq, Repr

/-- What decoding a NAL unit by ITU-T H.265 yields (R295, R299): the first error class it finds (0 none), for a
parameter set its identifiers and format, for a slice segment its header and the CTUs decoded before any damage, for an
SEI NAL unit its decoded picture hash and recovery point. -/
structure NalSeen where
  err : Nat
  /-- a reference-cache word could be corrected neither there nor in REF_PLOT (R286, R299) -/
  refBad : Bool
  id : Nat
  parent : Nat
  profile : Nat
  width : Nat
  height : Nat
  cropX : Nat
  cropY : Nat
  cropW : Nat
  cropH : Nat
  chroma : Nat
  depth : Nat
  ctb : Nat
  first : Bool
  addr : Nat
  dependent : Bool
  poc : Int
  intra : Bool
  shown : Bool
  /-- the reference picture set: each POC, and whether the picture itself uses it -/
  refs : List (Int × Bool)
  ctus : List CtuSeen
  hashBad : Bool
  recovery : Option Int
  deriving DecidableEq, Repr

/-- A 256-bit word of a Nawen item as a link carries it, and whether it carries POISON (R404, R412). -/
structure NawenWord where
  data : List Byte
  poison : Bool
  deriving DecidableEq, Repr

/-- A drive as it attaches (R385 to R387): the model and serial number it reports, its capacity in 4 KiB blocks, whether
it lies within the subset of R386, the width and PCIe generation its link trained to, and the bytes on its media. -/
structure DriveInfo where
  model : List Byte
  serial : List Byte
  blocks : Nat
  supported : Bool
  width : Nat
  gen : Nat
  media : List Host.Cell
  deriving DecidableEq, Repr

/-- The commands of spec/opcode_table.json, one constructor per row, in the table's order. -/
inductive Instr where
  /-- REGISTER_WRITE (R13). -/
  | registerWrite (who : Nat) (off : Nat) (val : Word)
  /-- REG_ACCESS_TIMEOUT (R28). -/
  | regAccessTimeout (write : Bool)
  /-- BAR2_READ (R29). -/
  | bar2Read (off : Nat) (len : Nat) (errs : List MemErr)
  /-- BAR2_WRITE (R29). -/
  | bar2Write (off : Nat) (data : List Byte) (errs : List MemErr)
  /-- GLB_LOG_RD_WRITE (R40). -/
  | glbLogRdWrite (val : Word) (meets : Option Occurrence)
  /-- POWER_ON_RESET (R488). -/
  | powerOnReset
  /-- POWER_GOOD (R512). -/
  | powerGood (headStrap : Bool)
  /-- PIN_RESET (R488). -/
  | pinReset
  /-- RESET_N_RELEASE (R488). -/
  | resetNRelease
  /-- RAIL_FAULT (R513). -/
  | railFault (aoOrIo : Bool)
  /-- RAIL_RECOVER (R513). -/
  | railRecover
  /-- SEEDING (R72). -/
  | seeding (env : SeedEnv)
  /-- PLL_LOCK_TIMEOUT (R73). -/
  | pllLockTimeout
  /-- FW_START_TIMEOUT (R73). -/
  | fwStartTimeout
  /-- LOAD_SLOT (R68). -/
  | loadSlot (slot : Nat) (confirm : Nat) (unreadable : Option Nat)
  /-- LOAD_HOST_IMAGE (R69). -/
  | loadHostImage (confirm : Nat) (img : List Byte) (unreadable : Option Nat)
  /-- STORE_HOST_IMAGE (R69). -/
  | storeHostImage (slot : Nat) (confirm : Nat) (img : List Byte) (unreadable : Option Nat)
  /-- ERASE_SLOT (R75). -/
  | eraseSlot (slot : Nat) (confirm : Nat)
  /-- CHECK_HOST_IMAGE (R69). -/
  | checkHostImage (img : List Byte) (unreadable : Option Nat)
  /-- SLOT_WRITE_DONE (R75). -/
  | slotWriteDone (ok : Bool)
  /-- GRAFT_CHECK_COMPLETE (R68). -/
  | graftCheckComplete
  /-- SEED_BOOT_WRITE (R67). -/
  | seedBootWrite (val : Word)
  /-- KEY_PROGRAM (R64). -/
  | keyProgram (slot : Nat) (confirm : Nat)
  /-- KEY_REVOKE (R64). -/
  | keyRevoke (slot : Nat) (confirm : Nat)
  /-- TARBOR_OFF (R64). -/
  | tarborOff (confirm : Nat)
  /-- TIME_RATE_WRITE (R83). -/
  | timeRateWrite (high : Word)
  /-- TIME_OFFSET_WRITE (R83). -/
  | timeOffsetWrite (ns : Word)
  /-- TIME_SNAP_READ (R84). -/
  | timeSnapRead
  /-- TIME_STEP_CMD (R85). -/
  | timeStepCmd (confirm : Nat)
  /-- SERVO_RESET (R87). -/
  | servoReset
  /-- TIME_CTL_WRITE (R87). -/
  | timeCtlWrite (val : Word)
  /-- SERVO_HOLDOVER_TIMEOUT (R87). -/
  | servoHoldoverTimeout
  /-- INTERP_LOCKED (R78). -/
  | interpLocked
  /-- PTP_ANNOUNCE_RX (R89). -/
  | ptpAnnounceRx (m : PtpAnnounce)
  /-- PTP_ANNOUNCE_TIMEOUT (R89). -/
  | ptpAnnounceTimeout
  /-- PTP_SYNC_RX (R89). -/
  | ptpSyncRx (m : PtpTimed)
  /-- PTP_FOLLOW_UP_RX (R89). -/
  | ptpFollowUpRx (m : PtpTimed)
  /-- PTP_DELAY_REQ_SEND (R89). -/
  | ptpDelayReqSend
  /-- PTP_DELAY_RESP_RX (R89). -/
  | ptpDelayRespRx (m : PtpTimed)
  /-- PTP_MANAGEMENT_RX (R89). -/
  | ptpManagementRx (port : Nat) (domain : Nat) (smpteTlv : Bool) (body : List Byte)
  /-- PPS_EDGE (R88). -/
  | ppsEdge
  /-- FREF_BOUNDARY (R91). -/
  | frefBoundary (n : Nat)
  /-- GENLOCK_EDGE (R93). -/
  | genlockEdge (n : Nat) (tri : Bool) (interlaced : Bool) (lines : Nat)
  /-- GENLOCK_LOST (R94). -/
  | genlockLost (n : Nat)
  /-- TRUG_WRITE (R100). -/
  | trugWrite (n : Nat) (val : BitVec 64) (last : Option Nat)
  /-- TRUG_READ (R105). -/
  | trugRead (n : Nat) (errs : List SymErr) (tagErrs : Nat)
  /-- TRUG_READ_UNSTALL (R105). -/
  | trugReadUnstall (n : Nat) (errs : List SymErr) (tagErrs : Nat)
  /-- TRUG_FLUSH (R108). -/
  | trugFlush (n : Nat)
  /-- TRUG_FLUSH_DEFERRED (R108). -/
  | trugFlushDeferred (n : Nat)
  /-- RUN_RETRAIN (R125). -/
  | runRetrain (n : Nat)
  /-- RUN_TIER_CAP_WRITE (R130). -/
  | runTierCapWrite (n : Nat) (cap : Nat)
  /-- RUN_PSTATE_REQ (R140). -/
  | runPstateReq (n : Nat) (v : Nat)
  /-- CLOCK_ACTIVITY_DETECT (R125). -/
  | clockActivityDetect (n : Nat)
  /-- CLOCK_LANE_LOCK (R125). -/
  | clockLaneLock (n : Nat)
  /-- LANES_ALIGNED (R133). -/
  | lanesAligned (n : Nat) (skews : List Nat) (trims : List Int)
  /-- TRAIN_BLOCK_RX (R122). -/
  | trainBlockRx (n : Nat) (block : List Byte) (ownDone : Bool)
  /-- EQUALISE_TIMEOUT (R125). -/
  | equaliseTimeout (n : Nat)
  /-- TRAIN_STATE_TIMEOUT (R125). -/
  | trainStateTimeout (n : Nat)
  /-- CHECK_WINDOW_PASS (R127). -/
  | checkWindowPass (n : Nat)
  /-- CHECK_FAIL (R129). -/
  | checkFail (n : Nat)
  /-- TIER_STEP (R128). -/
  | tierStep (n : Nat)
  /-- FAILED_RETRY (R125). -/
  | failedRetry (n : Nat)
  /-- RESTEP_RX (R130). -/
  | restepRx (n : Nat) (block : List Byte)
  /-- LANE_LOCK_LOST (R134). -/
  | laneLockLost (n : Nat) (lanes : List Nat)
  /-- LANE_DEGRADED (R134). -/
  | laneDegraded (n : Nat) (lane : Nat) (corr : Nat) (blkerr : Nat)
  /-- SPARE_REQUEST_RX (R135). -/
  | spareRequestRx (n : Nat) (block : List Byte)
  /-- SPARE_DUPLICATING_RX (R135). -/
  | spareDuplicatingRx (n : Nat) (block : List Byte)
  /-- SPARE_COMPARE_DONE (R135). -/
  | spareCompareDone (n : Nat) (lost : Nat)
  /-- SPARE_SWITCHED_RX (R135). -/
  | spareSwitchedRx (n : Nat) (block : List Byte)
  /-- SPARE_NARROW_RX (R137). -/
  | spareNarrowRx (n : Nat) (block : List Byte)
  /-- CLOCK_LANE_LOST (R139). -/
  | clockLaneLost (n : Nat) (lanes : List (List (List Nat)))
  /-- L1_IDLE_TIMEOUT (R140). -/
  | l1IdleTimeout (n : Nat)
  /-- L1_ENTER_RX (R140). -/
  | l1EnterRx (n : Nat) (block : List Byte)
  /-- L1_EXIT (R140). -/
  | l1Exit (n : Nat)
  /-- L1_EXIT_RX (R140). -/
  | l1ExitRx (n : Nat) (block : List Byte)
  /-- L2_ENTER_RX (R140). -/
  | l2EnterRx (n : Nat)
  /-- L2_EXIT_CHECK_DONE (R141). -/
  | l2ExitCheckDone (n : Nat) (clean : Bool)
  /-- RAW_CLOCK_ACTIVE (R144). -/
  | rawClockActive (n : Nat)
  /-- RAW_CLOCK_LOCK (R144). -/
  | rawClockLock (n : Nat) (mbps : Nat)
  /-- SOF_CODE (R525). -/
  | sofCode (c : SyncCode)
  /-- EOF_CODE (R161). -/
  | eofCode (c : SyncCode)
  /-- SOL_CODE (R154). -/
  | solCode (c : SyncCode)
  /-- EOL_CODE (R154). -/
  | eolCode (c : SyncCode)
  /-- SEGMENT_WINDOW_EXPIRE (R154). -/
  | segmentWindowExpire (p : Nat)
  /-- SOF_WINDOW_EXPIRE (R525). -/
  | sofWindowExpire (p : Nat) (lanes : List (List (List Nat)))
  /-- FRAME_TIMEOUT (R161). -/
  | frameTimeout (p : Nat) (lanes : List (List (List Nat)))
  /-- CUT_MARKER_WRITE (R166). -/
  | cutMarkerWrite (trug : Nat)
  /-- ING_PRUNE_WRITE (R160). -/
  | ingPruneWrite (p : Nat) (vertical : Bool) (val : Word)
  /-- MERGER_EMIT (R170). -/
  | mergerEmit (m : Nat) (errs : List WordErr)
  /-- MERGER_WINDOW_EXPIRE (R170). -/
  | mergerWindowExpire (m : Nat) (errs : List WordErr)
  /-- BED_UNIT_ACCEPT (R176). -/
  | bedUnitAccept (n : Nat) (mem : List MemErr)
  /-- BED_LINE_EMIT (R209). -/
  | bedLineEmit (n : Nat) (slot : Nat) (tap : Nat)
  /-- BED_TABLE_POINTER_WRITE (R183). -/
  | bedTablePointerWrite (n : Nat) (slot : Nat) (k : Nat) (val : Nat)
  /-- TABLE_COPY_DONE (R185). -/
  | tableCopyDone (n : Nat) (slot : Nat) (k : Nat) (mem : List MemErr)
  /-- BED_SHADOW_HOLD_WRITE (R216). -/
  | bedShadowHoldWrite (n : Nat) (slot : Nat) (hold : Bool)
  /-- BED_CROP_WRITE (R197). -/
  | bedCropWrite (n : Nat) (slot : Nat) (vertical : Bool) (val : Word)
  /-- BED_ENC_WRITE (R206). -/
  | bedEncWrite (n : Nat) (slot : Nat) (enc : Nat) (param : Bool) (val : Word)
  /-- BED_SCALE_WRITE (R208). -/
  | bedScaleWrite (n : Nat) (slot : Nat) (val : Word)
  /-- NOP (R235). -/
  | peNop (e : Nat) (o : PeOp)
  /-- SADD (R235). -/
  | peSadd (e : Nat) (o : PeOp)
  /-- SSUB (R235). -/
  | peSsub (e : Nat) (o : PeOp)
  /-- SADDI (R235). -/
  | peSaddi (e : Nat) (o : PeOp)
  /-- SMUL (R235). -/
  | peSmul (e : Nat) (o : PeOp)
  /-- SAND (R235). -/
  | peSand (e : Nat) (o : PeOp)
  /-- SOR (R235). -/
  | peSor (e : Nat) (o : PeOp)
  /-- SXOR (R235). -/
  | peSxor (e : Nat) (o : PeOp)
  /-- SSHLI (R235). -/
  | peSshli (e : Nat) (o : PeOp)
  /-- SSRLI (R235). -/
  | peSsrli (e : Nat) (o : PeOp)
  /-- SSRAI (R235). -/
  | peSsrai (e : Nat) (o : PeOp)
  /-- SLI (R235). -/
  | peSli (e : Nat) (o : PeOp)
  /-- SLIH (R235). -/
  | peSlih (e : Nat) (o : PeOp)
  /-- SLT (R235). -/
  | peSlt (e : Nat) (o : PeOp)
  /-- SPRM (R241). -/
  | peSprm (e : Nat) (o : PeOp)
  /-- BR (R235). -/
  | peBr (e : Nat) (o : PeOp)
  /-- END (R230). -/
  | peEnd (e : Nat) (o : PeOp)
  /-- VADD (R235). -/
  | peVadd (e : Nat) (o : PeOp)
  /-- VSUB (R235). -/
  | peVsub (e : Nat) (o : PeOp)
  /-- VMULSH (R235). -/
  | peVmulsh (e : Nat) (o : PeOp)
  /-- VMADSH (R235). -/
  | peVmadsh (e : Nat) (o : PeOp)
  /-- VMIN (R235). -/
  | peVmin (e : Nat) (o : PeOp)
  /-- VMAX (R235). -/
  | peVmax (e : Nat) (o : PeOp)
  /-- VABS (R235). -/
  | peVabs (e : Nat) (o : PeOp)
  /-- VAND (R235). -/
  | peVand (e : Nat) (o : PeOp)
  /-- VOR (R235). -/
  | peVor (e : Nat) (o : PeOp)
  /-- VXOR (R235). -/
  | peVxor (e : Nat) (o : PeOp)
  /-- VSHLI (R235). -/
  | peVshli (e : Nat) (o : PeOp)
  /-- VSRLI (R235). -/
  | peVsrli (e : Nat) (o : PeOp)
  /-- VSRAI (R235). -/
  | peVsrai (e : Nat) (o : PeOp)
  /-- VRSH (R235). -/
  | peVrsh (e : Nat) (o : PeOp)
  /-- VCLAMP (R235). -/
  | peVclamp (e : Nat) (o : PeOp)
  /-- VSEL (R235). -/
  | peVsel (e : Nat) (o : PeOp)
  /-- VCMPLT (R235). -/
  | peVcmplt (e : Nat) (o : PeOp)
  /-- VCMPEQ (R235). -/
  | peVcmpeq (e : Nat) (o : PeOp)
  /-- VCMPLE (R235). -/
  | peVcmple (e : Nat) (o : PeOp)
  /-- VSPL (R235). -/
  | peVspl (e : Nat) (o : PeOp)
  /-- VBRD (R235). -/
  | peVbrd (e : Nat) (o : PeOp)
  /-- VPACK (R235). -/
  | peVpack (e : Nat) (o : PeOp)
  /-- VUNPL (R235). -/
  | peVunpl (e : Nat) (o : PeOp)
  /-- VUNPH (R235). -/
  | peVunph (e : Nat) (o : PeOp)
  /-- VSHUF (R235). -/
  | peVshuf (e : Nat) (o : PeOp)
  /-- VEXT (R235). -/
  | peVext (e : Nat) (o : PeOp)
  /-- VINS (R235). -/
  | peVins (e : Nat) (o : PeOp)
  /-- VRED (R235). -/
  | peVred (e : Nat) (o : PeOp)
  /-- FADD (R236). -/
  | peFadd (e : Nat) (o : PeOp)
  /-- FSUB (R236). -/
  | peFsub (e : Nat) (o : PeOp)
  /-- FMUL (R236). -/
  | peFmul (e : Nat) (o : PeOp)
  /-- FMA (R236). -/
  | peFma (e : Nat) (o : PeOp)
  /-- FMIN (R235). -/
  | peFmin (e : Nat) (o : PeOp)
  /-- FMAX (R235). -/
  | peFmax (e : Nat) (o : PeOp)
  /-- FCVTIF (R235). -/
  | peFcvtif (e : Nat) (o : PeOp)
  /-- FCVTFI (R235). -/
  | peFcvtfi (e : Nat) (o : PeOp)
  /-- FRCP (R235). -/
  | peFrcp (e : Nat) (o : PeOp)
  /-- FRSQ (R235). -/
  | peFrsq (e : Nat) (o : PeOp)
  /-- FLOG2 (R235). -/
  | peFlog2 (e : Nat) (o : PeOp)
  /-- FEXP2 (R235). -/
  | peFexp2 (e : Nat) (o : PeOp)
  /-- VLD (R238). -/
  | peVld (e : Nat) (o : PeOp)
  /-- VST (R238). -/
  | peVst (e : Nat) (o : PeOp)
  /-- VGATH (R238). -/
  | peVgath (e : Nat) (o : PeOp)
  /-- SLD (R238). -/
  | peSld (e : Nat) (o : PeOp)
  /-- SST (R238). -/
  | peSst (e : Nat) (o : PeOp)
  /-- WLD (R239). -/
  | peWld (e : Nat) (o : PeOp)
  /-- WST (R240). -/
  | peWst (e : Nat) (o : PeOp)
  /-- LINE_CAP_EXCEEDED (R244). -/
  | lineCapExceeded (e : Nat)
  /-- PE_DEGRADED (R251). -/
  | peDegraded (e : Nat) (memCorr : Nat) (vecCorr : Nat)
  /-- PE_HARD_FAULT (R253). -/
  | peHardFault (e : Nat) (kind : Nat) (addr : Nat)
  /-- CONST_RESTORED (R251). -/
  | constRestored (e : Nat) (addr : Nat)
  /-- PE_TARGET_LOADED (R252). -/
  | peTargetLoaded (t : Nat)
  /-- ENC_PICTURE_START (R283). -/
  | encPictureStart (e : Nat) (errs : List WordErr) (mem : List MemErr)
  /-- ENC_CTU_ROW_CODE (R274). -/
  | encCtuRowCode (e : Nat) (errs : List WordErr) (mem : List MemErr) (refCorr : Nat) (refBad : Bool)
  /-- ENC_KEY_IDR (R269). -/
  | encKeyIdr (e : Nat) (c : Nat)
  /-- ENC_KEY_SWEEP (R269). -/
  | encKeySweep (e : Nat) (c : Nat)
  /-- SE_CAP_WRITE (R277). -/
  | seCapWrite (e : Nat) (c : Nat) (val : Word)
  /-- DEC_NAL_UNIT (R300). -/
  | decNalUnit (e : Nat) (c : Nat) (seen : NalSeen) (errs : List WordErr) (mem : List MemErr)
  /-- DEC_PICTURE_OUTPUT (R297). -/
  | decPictureOutput (e : Nat) (c : Nat) (late : Bool)
  /-- DEC_WR_WRITE (R296). -/
  | decWrWrite (e : Nat) (c : Nat) (val : Word)
  /-- DEC_FLUSH (R308). -/
  | decFlush (e : Nat) (c : Nat)
  /-- DEC_RESYNC (R301). -/
  | decResync (e : Nat) (c : Nat)
  /-- DEC_EOS (R309). -/
  | decEos (e : Nat) (c : Nat)
  /-- MOSAIC_HEADER_TIMEOUT (R306). -/
  | mosaicHeaderTimeout (e : Nat) (c : Nat)
  /-- HEAD_LINE (R315). -/
  | headLine (h : Nat) (errs : List WordErr) (mem : List MemErr)
  /-- HEAD_UNDERRUN (R325). -/
  | headUnderrun (h : Nat) (plane : Nat) (x : Nat) (thermal : Bool)
  /-- HEAD_COMMIT_REQ (R323). -/
  | headCommitReq (h : Nat)
  /-- HEAD_GROUP_COMMIT_REQ (R324). -/
  | headGroupCommitReq (g : Nat)
  /-- HEAD_STATUS_READ (R334). -/
  | headStatusRead (h : Nat)
  /-- HEAD_CRC_RECT_WRITE (R332). -/
  | headCrcRectWrite (h : Nat) (r : Nat) (size : Bool) (val : Word)
  /-- MEM_REQUEST (R351). -/
  | memRequest (op : MemOp)
  /-- MEM_ISSUE (R350). -/
  | memIssue (pc : Nat) (errs : List MemErr)
  /-- MEM_DRAIN_IDLE_TIMEOUT (R350). -/
  | memDrainIdleTimeout (pc : Nat)
  /-- MEM_IDLE_POWERDOWN (R353). -/
  | memIdlePowerdown (pc : Nat) (sid : Nat)
  /-- MEM_REFRESH (R354). -/
  | memRefresh (pc : Nat) (bank : Nat)
  /-- MEM_RETRAIN (R355). -/
  | memRetrain (pc : Nat) (ok : Bool)
  /-- MEM_RETRAIN_FORCED (R355). -/
  | memRetrainForced (pc : Nat) (ok : Bool)
  /-- MEM_SCRUB (R356). -/
  | memScrub (addr : Nat) (errs : List SymErr)
  /-- MEM_ROW_REMAP (R358). -/
  | memRowRemap (pc : Nat) (errs : List MemErr)
  /-- MEM_PC_RETIRE (R360). -/
  | memPcRetire (pc : Nat)
  /-- MEM_RETIRE_COMPLETE (R360). -/
  | memRetireComplete (pc : Nat) (errs : List MemErr)
  /-- MEM_WM_WRITE (R350). -/
  | memWmWrite (val : Word)
  /-- REC_IFACE_WRITE (R369). -/
  | recIfaceWrite (major : Nat) (minor : Nat)
  /-- REC_SQ_SIZE_WRITE (R370). -/
  | recSqSizeWrite (n : Nat) (size : Nat) (cq : Nat) (cls : Nat)
  /-- REC_CQ_SIZE_WRITE (R370). -/
  | recCqSizeWrite (n : Nat) (size : Nat) (vecEn : Bool)
  /-- REC_SQ_DOORBELL (R367). -/
  | recSqDoorbell (n : Nat) (tail : Nat)
  /-- REC_CQ_DOORBELL (R367). -/
  | recCqDoorbell (n : Nat) (head : Nat)
  /-- REC_FETCH (R377). -/
  | recFetch (entry : List Byte)
  /-- REC_COMPLETION_POST (R367). -/
  | recCompletionPost (cq : Nat)
  /-- IDENTIFY (R375). -/
  | identify (ok : Bool)
  /-- MEDIA_INFO (R375). -/
  | mediaInfo (ok : Bool)
  /-- MEDIA_FORMAT (R396). -/
  | mediaFormat
  /-- MEDIA_TRIM (R375). -/
  | mediaTrim
  /-- MEDIA_FLUSH (R375). -/
  | mediaFlush
  /-- RECORD_START (R379). -/
  | recordStart
  /-- RECORD_STOP (R379). -/
  | recordStop
  /-- CLIP_MARK (R375). -/
  | clipMark
  /-- CLIP_READ (R397). -/
  | clipRead (ok : Bool)
  /-- REC_SQ_RESET (R390). -/
  | recSqReset (n : Nat)
  /-- REC_RESET_ALL (R390). -/
  | recResetAll
  /-- REC_ARB_WRITE (R377). -/
  | recArbWrite (val : Word)
  /-- REC_TEMP_WIN_WRITE (R388). -/
  | recTempWinWrite (d : Nat) (val : Word)
  /-- REC_PORT_LINK_RESET (R385). -/
  | recPortLinkReset (r : Nat) (wa : Nat) (sa : Nat) (wb : Nat) (sb : Nat)
  /-- REC_ITEM_TAKE (R381). -/
  | recItemTake (k : Nat) (errs : List WordErr) (mem : List MemErr)
  /-- REC_MEDIA_WRITE (R395). -/
  | recMediaWrite (k : Nat)
  /-- NVME_COMPLETION (R386). -/
  | nvmeCompletion (id : Nat) (ok : Bool)
  /-- NVME_TIMEOUT (R387). -/
  | nvmeTimeout (id : Nat)
  /-- REC_CHECKPOINT (R396). -/
  | recCheckpoint (k : Nat)
  /-- REC_TEMP_POLL (R388). -/
  | recTempPoll (d : Nat) (temp : Int)
  /-- REC_STOP_WAIT_EXPIRE (R389). -/
  | recStopWaitExpire (k : Nat)
  /-- DRIVE_LOST (R387). -/
  | driveLost (d : Nat)
  /-- DRIVE_ATTACHED (R387). -/
  | driveAttached (d : Nat) (info : DriveInfo)
  /-- HRW_ITEM_RX (R410). -/
  | hrwItemRx (n : Nat) (words : List NawenWord)
  /-- HRW_FORWARD_START (R411). -/
  | hrwForwardStart (p : Nat)
  /-- HRW_SEND_ITEM (R414). -/
  | hrwSendItem (k : Nat) (errs : List WordErr)
  /-- HELLO (R419). -/
  | hello (n : Nat) (block : List Byte)
  /-- HELLO_TIMER (R419). -/
  | helloTimer (p : Nat)
  /-- ENUM_TOKEN (R416). -/
  | enumToken (n : Nat) (block : List Byte)
  /-- ENUM_ACK (R416). -/
  | enumAck (n : Nat) (block : List Byte)
  /-- ENUM_TOKEN_REPEAT (R416). -/
  | enumTokenRepeat
  /-- ENUM_ACK_TIMEOUT (R416). -/
  | enumAckTimeout
  /-- ENUM_END (R416). -/
  | enumEnd (n : Nat) (block : List Byte)
  /-- ENUM_DONE (R416). -/
  | enumDone (n : Nat) (block : List Byte)
  /-- ENUM_START_TIMER (R416). -/
  | enumStartTimer
  /-- HRW_ENUM_CMD (R416). -/
  | hrwEnumCmd
  /-- JOIN (R429). -/
  | join (n : Nat) (block : List Byte)
  /-- TIME_REQ (R421). -/
  | timeReq (n : Nat) (block : List Byte) (turn : Nat)
  /-- TIME_RESP (R421). -/
  | timeResp (n : Nat) (block : List Byte)
  /-- HRW_TIME_EXCHANGE (R421). -/
  | hrwTimeExchange
  /-- GRAFT_STATUS (R424). -/
  | graftStatus (n : Nat) (block : List Byte)
  /-- GRAFT_COMMIT (R425). -/
  | graftCommit (n : Nat) (block : List Byte)
  /-- GRAFT_COMMIT_AT (R425). -/
  | graftCommitAt
  /-- WAKE (R427). -/
  | wake (n : Nat) (block : List Byte)
  /-- HRW_GRAFT_SEND (R423). -/
  | hrwGraftSend (dest : Nat) (bcast : Bool) (confirm : Nat) (img : List Byte) (unreadable : Option Nat)
  /-- HRW_GRAFT_COMMIT_CMD (R425). -/
  | hrwGraftCommitCmd (dest : Nat) (bcast : Bool) (confirm : Nat)
  /-- HRW_BROKEN_RETRY (R420). -/
  | hrwBrokenRetry (p : Nat)
  /-- HRW_LINK_LOST (R428). -/
  | hrwLinkLost (p : Nat)
  /-- HRW_ROUTE_WRITE (R415). -/
  | hrwRouteWrite (k : Nat) (val : Word)
  /-- HRW_SEND_WRITE (R415). -/
  | hrwSendWrite (k : Nat) (low : Word) (high : Word)
  /-- WAKE_PATTERN_DETECT (R426). -/
  | wakePatternDetect (p : Nat)
  /-- WAKE_PATTERN_END (R426). -/
  | wakePatternEnd (p : Nat)
  /-- AUD_FRAME_IN (R436). -/
  | audFrameIn (k : Nat) (slots : List Nat) (bad : List Nat) (room : Bool)
  /-- AUD_BLOCK_COMPLETE (R440). -/
  | audBlockComplete (k : Nat)
  /-- AUD_FRAME_OUT (R441). -/
  | audFrameOut (k : Nat) (held : Bool) (errs : List MemErr)
  /-- AUD_OUT_BLOCK_BOUNDARY (R441). -/
  | audOutBlockBoundary (k : Nat)
  /-- AES_CS_BLOCK (R438). -/
  | aesCsBlock (k : Nat) (bytes : List Byte)
  /-- AES_LOCK_LOST (R438). -/
  | aesLockLost (k : Nat)
  /-- AUD_NONAUDIO_END (R443). -/
  | audNonaudioEnd (k : Nat) (pair : Nat)
  /-- AUD_SLOT_MASK_WRITE (R444). -/
  | audSlotMaskWrite (k : Nat) (val : Word) (late : Bool)
  /-- AUD_SLOT_MASK_APPLY (R444). -/
  | audSlotMaskApply (k : Nat)
  /-- AUD_TX30_PACKET (R445). -/
  | audTx30Packet (t : Nat) (errs : List MemErr)
  /-- EVT_EDGE (R451). -/
  | evtEdge (ball : Nat) (level : Bool)
  /-- TWINE_CHANNEL_EVENT (R453). -/
  | twineChannelEvent (channel : Nat)
  /-- EVT_OUT_PULSE_END (R454). -/
  | evtOutPulseEnd (ball : Nat)
  /-- KNOT_FILTER_PASS (R459). -/
  | knotFilterPass (knot : Nat)
  /-- LOOP_GUARD_TRIP (R461). -/
  | loopGuardTrip (knot : Nat)
  /-- TWN_FIRE_WRITE (R466). -/
  | twnFireWrite (k : Nat) (val : Word)
  /-- TWINE_TIMER_FIRE (R467). -/
  | twineTimerFire (k : Nat)
  /-- TWN_TIMER_AT_WRITE (R467). -/
  | twnTimerAtWrite (k : Nat) (high : Word)
  /-- TWN_GROUP_WRITE (R460). -/
  | twnGroupWrite (val : Word)
  /-- PCIE_LINK_RESTORE (R457). -/
  | pcieLinkRestore
  /-- MBX_POST (R473). -/
  | mbxPost (c : Nat) (who : Nat)
  /-- MBX_TAKE (R473). -/
  | mbxTake (c : Nat) (who : Nat) (bad : List Nat)
  /-- MBX_RING (R475). -/
  | mbxRing (c : Nat) (who : Nat) (bits : Word)
  /-- MBX_PENDING_CLEAR (R475). -/
  | mbxPendingClear (c : Nat) (who : Nat) (bits : Word)
  /-- MBX_LOCK_READ (R477). -/
  | mbxLockRead (c : Nat) (who : Nat)
  /-- MBX_LOCK_WRITE (R477). -/
  | mbxLockWrite (c : Nat) (who : Nat) (val : Word)
  /-- MBX_SLOT_WRITE (R473). -/
  | mbxSlotWrite (c : Nat) (who : Nat) (off : Nat) (val : Word)
  /-- MBX_PARAM_SERVE (R476). -/
  | mbxParamServe (c : Nat) (bad : Bool)
  /-- PWR_REQ_DORMANT (R483). -/
  | pwrReqDormant (confirm : Nat)
  /-- PWR_REQ_FALLOW (R483). -/
  | pwrReqFallow (confirm : Nat)
  /-- PWR_ENTRY_COMPLETE (R483). -/
  | pwrEntryComplete
  /-- PWR_REQ_WAKE (R485). -/
  | pwrReqWake (confirm : Nat)
  /-- PCIE_L2_EXIT_WAKE (R485). -/
  | pcieL2ExitWake
  /-- SOFT_RESET (R489). -/
  | softReset (block : Nat)
  /-- SOFT_RESET_DONE (R489). -/
  | softResetDone (block : Nat)
  /-- PERST_ASSERT (R515). -/
  | perstAssert
  /-- WDT_KICK (R490). -/
  | wdtKick (who : Nat) (key : Word)
  /-- WDT_EXPIRE (R490). -/
  | wdtExpire
  /-- THERMAL_SAMPLE (R495). -/
  | thermalSample (raw : List Int)
  /-- THROTTLE_GRACE_EXPIRE (R497). -/
  | throttleGraceExpire
  /-- THROTTLE_STEP_TIMER (R497). -/
  | throttleStepTimer
  /-- THERMAL_RELIEF (R495). -/
  | thermalRelief
  /-- THERMAL_STEP_REVERSE (R498). -/
  | thermalStepReverse
  /-- THERMAL_TRIP (R499). -/
  | thermalTrip (sensor : Nat) (reading : Int)
  /-- TRIP_RESTART (R500). -/
  | tripRestart
  /-- CAL_OVERWRITE (R503). -/
  | calOverwrite (confirm : Nat) (img : List Byte)
  /-- CAL_COPY (R503). -/
  | calCopy (confirm : Nat)
  /-- CAL_WRITE_DONE (R503). -/
  | calWriteDone
  /-- EXTEST (R520). -/
  | jtagExtest
  /-- SAMPLE_PRELOAD (R520). -/
  | jtagSamplePreload
  /-- IDCODE (R520). -/
  | jtagIdcode
  /-- CLAMP (R520). -/
  | jtagClamp
  /-- HIGHZ (R520). -/
  | jtagHighz
  /-- BYPASS (R520). -/
  | jtagBypass
  /-- UNKNOWN_MESSAGE_RX (R407). -/
  | unknownMessageRx (n : Nat) (block : List Byte)
  /-- AES_LOCK_GAINED (R438). -/
  | aesLockGained (k : Nat)
  /-- PCIE_LINK_DOWN (R457). -/
  | pcieLinkDown
  /-- MSIX_ENABLE (R523). -/
  | msixEnable
  /-- TAP_RESET (R520). -/
  | tapReset
  /-- KEY_BURN_DONE (R64). -/
  | keyBurnDone
  /-- RAW_RATE_BAND (R144). -/
  | rawRateBand (n : Nat) (mbps : Nat)
  deriving DecidableEq, Repr

end Sys2Proof
end

