-- ==== Sys2Proof/Machine/RegNames.lean ====
section
/-!
DEFINITION. The register window of spec/01_organisation.md (R27): the word offset of every register the chapters
define (`R.<REGISTER>`), and the place of every named field in it (`F.<REGISTER>_<FIELD>`). Instance numbers are
arguments, outermost first, as the manual's brackets read. Written from the register tables of the chapters.
-/

namespace Sys2Proof.Machine

/-- The place of a field: the BAR0 offset of its register's (low) word, its lowest bit and its width (R9). -/
structure Field where
  off : Nat
  lo : Nat
  width : Nat
  deriving DecidableEq, Repr

namespace R


/-! spec/00_scope.md -/

def GLB_ID : Nat := 0x0
def GLB_CAPS : Nat := 0x4

/-! spec/01_organisation.md -/

def GLB_ERR : Nat := 0x14
def GLB_BAR2_BASE : Nat := 0x18
def GLB_LOG_BASE : Nat := 0x20
def GLB_LOG_CTL : Nat := 0x28
def GLB_LOG_WR : Nat := 0x2c
def GLB_LOG_RD : Nat := 0x30
def GLB_LOG_LOST : Nat := 0x34
def GLB_LOG_RET_WR : Nat := 0x38
def GLB_SPARE : Nat := 0x10

/-! spec/02_graft_image.md -/

def SEED_STATUS : Nat := 0x3800000
def SEED_DETAIL : Nat := 0x3800004
def SEED_CTL : Nat := 0x3800008
def SEED_BOOT : Nat := 0x380000c
def SEED_HOST_ADDR : Nat := 0x3800010
def SEED_HOST_LEN : Nat := 0x3800018
def SEED_IMAGE_ID : Nat := 0x3800020
def SEED_TIME : Nat := 0x3800028
def SEED_KEYS : Nat := 0x3800030
def SEED_KEY_HASH (i : Nat) : Nat := 0x3800040 + 0x4 * i
def SEED_KEY_CMD : Nat := 0x3800070

/-! spec/03_timebase.md -/

def TIME_CTL : Nat := 0x100000
def TIME_STATUS : Nat := 0x100004
def TIME_ERR : Nat := 0x100008
def TIME_CMD : Nat := 0x10000c
def TIME_COUNT : Nat := 0x100010
def TIME_EPOCH : Nat := 0x100018
def TIME_OFFSET_SEC : Nat := 0x100020
def TIME_OFFSET_NS : Nat := 0x100028
def TIME_RATE : Nat := 0x100030
def TIME_SNAP_TICKS : Nat := 0x100040
def TIME_SNAP_SEC : Nat := 0x100048
def TIME_SNAP_NS : Nat := 0x100050
def TIME_STEP : Nat := 0x100060
def TIME_KP : Nat := 0x100070
def TIME_KI : Nat := 0x100074
def TIME_LIMIT : Nat := 0x100078
def TIME_HOLD : Nat := 0x10007c
def TIME_THETA : Nat := 0x100080
def TIME_COUNTS : Nat := 0x100088
def TIME_PTP_CTL : Nat := 0x100090
def TIME_PTP_STATUS : Nat := 0x100094
def TIME_PTP_GM : Nat := 0x100098
def TIME_PTP_PATH : Nat := 0x1000a0
def TIME_GL_STAT (i : Nat) : Nat := 0x1000c0 + 0x8 * i
def TIME_GL_PERIOD (i : Nat) : Nat := 0x1000c4 + 0x8 * i
def TIME_FREF_CTL (i : Nat) : Nat := 0x100100 + 0x20 * i
def TIME_FREF_RATE (i : Nat) : Nat := 0x100104 + 0x20 * i
def TIME_FREF_PHASE (i : Nat) : Nat := 0x100108 + 0x20 * i
def TIME_FREF_STAT (i : Nat) : Nat := 0x100110 + 0x20 * i
def TIME_FREF_ERR (i : Nat) : Nat := 0x100114 + 0x20 * i

/-! spec/04_trugs.md -/

def TRUG_MODE : Nat := 0x3000000
def TRUG_IDLE (i : Nat) : Nat := 0x3000020 + 0x4 * i
def TRUG_FLAG_MAP (i : Nat) : Nat := 0x3000040 + 0x4 * i
def TRUG_CFG (i : Nat) : Nat := 0x3010000 + 0x20 * i
def TRUG_CTL (i : Nat) : Nat := 0x3010004 + 0x20 * i
def TRUG_STAT (i : Nat) : Nat := 0x3010008 + 0x20 * i
def TRUG_OVR (i : Nat) : Nat := 0x301000c + 0x20 * i
def TRUG_CORR (i : Nat) : Nat := 0x3010010 + 0x20 * i
def TRUG_UNCORR (i : Nat) : Nat := 0x3010014 + 0x20 * i

/-! spec/05_runner_lanes.md -/

def RUN_CTL (i : Nat) : Nat := 0x200000 + 0x1000 * i
def RUN_STATUS (i : Nat) : Nat := 0x200004 + 0x1000 * i
def RUN_ERR (i : Nat) : Nat := 0x200008 + 0x1000 * i
def RUN_SPARE (i : Nat) : Nat := 0x20000c + 0x1000 * i
def RUN_PM (i : Nat) : Nat := 0x200010 + 0x1000 * i
def RUN_RAW (i : Nat) : Nat := 0x200014 + 0x1000 * i
def RUN_RAW_RATE (i : Nat) : Nat := 0x200018 + 0x1000 * i
def RUN_MARGIN (i : Nat) : Nat := 0x20001c + 0x1000 * i
def RUN_LANE (i : Nat) (j : Nat) : Nat := 0x200040 + 0x1000 * i + 0x4 * j
def RUN_FIR (i : Nat) (j : Nat) : Nat := 0x200080 + 0x1000 * i + 0x4 * j
def RUN_CORR (i : Nat) (j : Nat) : Nat := 0x2000c0 + 0x1000 * i + 0x4 * j
def RUN_BLKERR (i : Nat) (j : Nat) : Nat := 0x200100 + 0x1000 * i + 0x4 * j
def RUN_UNCORR (i : Nat) : Nat := 0x200140 + 0x1000 * i
def RUN_TRAINS (i : Nat) : Nat := 0x200144 + 0x1000 * i

/-! spec/06_sensor_ingest.md -/

def ING_FLAG_MAP (i : Nat) : Nat := 0x400000 + 0x4 * i
def ING_PORT_CTL (i : Nat) : Nat := 0x410000 + 0x100 * i
def ING_PORT_CFG (i : Nat) : Nat := 0x410004 + 0x100 * i
def ING_PORT_GEOM (i : Nat) : Nat := 0x410008 + 0x100 * i
def ING_PORT_PRUNE_H (i : Nat) : Nat := 0x41000c + 0x100 * i
def ING_PORT_PRUNE_V (i : Nat) : Nat := 0x410010 + 0x100 * i
def ING_PORT_PAD (i : Nat) : Nat := 0x410014 + 0x100 * i
def ING_PORT_STAMP_ADJ (i : Nat) : Nat := 0x410018 + 0x100 * i
def ING_PORT_TIMEOUT (i : Nat) : Nat := 0x41001c + 0x100 * i
def ING_PORT_LATE (i : Nat) : Nat := 0x410020 + 0x100 * i
def ING_PORT_STATUS (i : Nat) : Nat := 0x410024 + 0x100 * i
def ING_PORT_FRAME (i : Nat) : Nat := 0x410028 + 0x100 * i
def ING_PORT_ERR (i : Nat) : Nat := 0x41002c + 0x100 * i
def ING_PORT_CNT (i : Nat) (j : Nat) : Nat := 0x410030 + 0x100 * i + 0x4 * j
def ING_MRG_INPUTS (i : Nat) : Nat := 0x420000 + 0x40 * i
def ING_MRG_CTL (i : Nat) : Nat := 0x420008 + 0x40 * i
def ING_MRG_STATUS (i : Nat) : Nat := 0x42000c + 0x40 * i
def ING_MRG_ERR (i : Nat) : Nat := 0x420010 + 0x40 * i
def ING_MRG_CNT (i : Nat) (j : Nat) : Nat := 0x420014 + 0x40 * i + 0x4 * j

/-! spec/07_raw_pipeline.md -/

def BED_LIN_PTR (i : Nat) (j : Nat) : Nat := 0x801008 + 0x10000 * i + 0x400 * j
def BED_COL_PTR (i : Nat) (j : Nat) : Nat := 0x801010 + 0x10000 * i + 0x400 * j
def BED_ROW_PTR (i : Nat) (j : Nat) : Nat := 0x801018 + 0x10000 * i + 0x400 * j
def BED_DARK_PTR (i : Nat) (j : Nat) : Nat := 0x801020 + 0x10000 * i + 0x400 * j
def BED_DEFECT_PTR (i : Nat) (j : Nat) : Nat := 0x801028 + 0x10000 * i + 0x400 * j
def BED_MESH_PTR (i : Nat) (j : Nat) : Nat := 0x801030 + 0x10000 * i + 0x400 * j
def BED_LUT3D_PTR (i : Nat) (j : Nat) : Nat := 0x801038 + 0x10000 * i + 0x400 * j
def BED_SCL_PTR (i : Nat) (j : Nat) : Nat := 0x801040 + 0x10000 * i + 0x400 * j
def BED_CFG (i : Nat) : Nat := 0x800000 + 0x10000 * i
def BED_STRIPE (i : Nat) : Nat := 0x800004 + 0x10000 * i
def BED_CTL (i : Nat) : Nat := 0x800008 + 0x10000 * i
def BED_STATUS (i : Nat) : Nat := 0x80000c + 0x10000 * i
def BED_ERR (i : Nat) : Nat := 0x800010 + 0x10000 * i
def BED_CNT (i : Nat) (j : Nat) : Nat := 0x800014 + 0x10000 * i + 0x4 * j
def BED_LOAD (i : Nat) : Nat := 0x800030 + 0x10000 * i
def BED_TAP (i : Nat) (j : Nat) : Nat := 0x800040 + 0x10000 * i + 0x4 * j
def BED_SHADOW (i : Nat) (j : Nat) : Nat := 0x801000 + 0x10000 * i + 0x400 * j
def BED_SENSOR (i : Nat) (j : Nat) : Nat := 0x801004 + 0x10000 * i + 0x400 * j
def BED_BLACK (i : Nat) (j : Nat) (k : Nat) : Nat := 0x801048 + 0x10000 * i + 0x400 * j + 0x4 * k
def BED_DARK_GAIN (i : Nat) (j : Nat) : Nat := 0x801058 + 0x10000 * i + 0x400 * j
def BED_OB (i : Nat) (j : Nat) : Nat := 0x80105c + 0x10000 * i + 0x400 * j
def BED_DEFECT_CNT (i : Nat) (j : Nat) : Nat := 0x801060 + 0x10000 * i + 0x400 * j
def BED_DYN (i : Nat) (j : Nat) : Nat := 0x801064 + 0x10000 * i + 0x400 * j
def BED_FLK (i : Nat) (j : Nat) : Nat := 0x801068 + 0x10000 * i + 0x400 * j
def BED_CROP_X (i : Nat) (j : Nat) : Nat := 0x80106c + 0x10000 * i + 0x400 * j
def BED_CROP_Y (i : Nat) (j : Nat) : Nat := 0x801070 + 0x10000 * i + 0x400 * j
def BED_DMS (i : Nat) (j : Nat) : Nat := 0x801074 + 0x10000 * i + 0x400 * j
def BED_LUT_CTL (i : Nat) (j : Nat) : Nat := 0x801078 + 0x10000 * i + 0x400 * j
def BED_CCM (i : Nat) (j : Nat) (k : Nat) : Nat := 0x801080 + 0x10000 * i + 0x400 * j + 0x4 * k
def BED_ENC_CTL (i : Nat) (j : Nat) (k : Nat) : Nat := 0x8010c0 + 0x10000 * i + 0x400 * j + 0x40 * k
def BED_ENC_PARAM (i : Nat) (j : Nat) (k : Nat) : Nat := 0x8010c4 + 0x10000 * i + 0x400 * j + 0x40 * k
def BED_ENC_MTX (i : Nat) (j : Nat) (k : Nat) (l : Nat) : Nat := 0x8010c8 + 0x10000 * i + 0x400 * j + 0x40 * k + 0x4 * l
def BED_SCL_SIZE (i : Nat) (j : Nat) : Nat := 0x801140 + 0x10000 * i + 0x400 * j
def BED_OB_MEAS (i : Nat) (j : Nat) (k : Nat) : Nat := 0x801144 + 0x10000 * i + 0x400 * j + 0x4 * k
def BED_FLK_RPT (i : Nat) (j : Nat) (k : Nat) : Nat := 0x801160 + 0x10000 * i + 0x400 * j + 0x8 * k
def BED_FLK_FRAME (i : Nat) (j : Nat) : Nat := 0x801178 + 0x10000 * i + 0x400 * j

/-! spec/08_pixel_engines.md -/

def PE_POOL : Nat := 0xc00000
def PE_STATUS (i : Nat) : Nat := 0xc10000 + 0x100 * i
def PE_ERR (i : Nat) : Nat := 0xc10004 + 0x100 * i
def PE_SPARE (i : Nat) : Nat := 0xc10008 + 0x100 * i
def PE_CNT (i : Nat) (j : Nat) : Nat := 0xc1000c + 0x100 * i + 0x4 * j
def PE_TILE_MAX (i : Nat) : Nat := 0xc10020 + 0x100 * i
def PE_SPLICE_STATUS (i : Nat) : Nat := 0xc20000 + 0x400 * i
def PE_SPLICE_PARAM (i : Nat) (j : Nat) (k : Nat) : Nat := 0xc20100 + 0x400 * i + 0x40 * j + 0x4 * k

/-! spec/09_encoder.md -/

def SE_CTL (i : Nat) : Nat := 0x1010000 + 0x1000 * i
def SE_STATUS (i : Nat) : Nat := 0x1010004 + 0x1000 * i
def SE_LOAD (i : Nat) : Nat := 0x1010008 + 0x1000 * i
def SE_SWITCHES (i : Nat) : Nat := 0x101000c + 0x1000 * i
def SE_CTX_CFG (i : Nat) (j : Nat) : Nat := 0x1010100 + 0x1000 * i + 0x80 * j
def SE_CTX_KEY (i : Nat) (j : Nat) : Nat := 0x1010104 + 0x1000 * i + 0x80 * j
def SE_CTX_RC (i : Nat) (j : Nat) : Nat := 0x1010108 + 0x1000 * i + 0x80 * j
def SE_CTX_CAP (i : Nat) (j : Nat) : Nat := 0x101010c + 0x1000 * i + 0x80 * j
def SE_CTX_VBV (i : Nat) (j : Nat) : Nat := 0x1010110 + 0x1000 * i + 0x80 * j
def SE_CTX_PIC (i : Nat) (j : Nat) : Nat := 0x1010114 + 0x1000 * i + 0x80 * j
def SE_CTX_SIZE (i : Nat) (j : Nat) : Nat := 0x1010118 + 0x1000 * i + 0x80 * j
def SE_CTX_STATUS (i : Nat) (j : Nat) : Nat := 0x101011c + 0x1000 * i + 0x80 * j
def SE_CTX_ERR (i : Nat) (j : Nat) : Nat := 0x1010120 + 0x1000 * i + 0x80 * j
def SE_CTX_CNT (i : Nat) (j : Nat) (k : Nat) : Nat := 0x1010124 + 0x1000 * i + 0x80 * j + 0x4 * k

/-! spec/10_decoder.md -/

def DEC_CTL (i : Nat) (j : Nat) : Nat := 0x1010104 + 0x1000 * i + 0x80 * j
def DEC_WR (i : Nat) (j : Nat) : Nat := 0x1010108 + 0x1000 * i + 0x80 * j
def DEC_RD (i : Nat) (j : Nat) : Nat := 0x101010c + 0x1000 * i + 0x80 * j
def DEC_LAST (i : Nat) (j : Nat) : Nat := 0x1010110 + 0x1000 * i + 0x80 * j
def DEC_LAST_CONC (i : Nat) (j : Nat) : Nat := 0x1010118 + 0x1000 * i + 0x80 * j
def DEC_STATUS (i : Nat) (j : Nat) : Nat := 0x101011c + 0x1000 * i + 0x80 * j
def DEC_ERR (i : Nat) (j : Nat) : Nat := 0x1010120 + 0x1000 * i + 0x80 * j
def DEC_CNT (i : Nat) (j : Nat) (k : Nat) : Nat := 0x1010124 + 0x1000 * i + 0x80 * j + 0x4 * k

/-! spec/11_scanout.md -/

def HEAD_GROUP_COMMIT (i : Nat) : Nat := 0x1400000 + 0x10 * i
def HEAD_CTL (i : Nat) : Nat := 0x1410000 + 0x1000 * i
def HEAD_COMMIT (i : Nat) : Nat := 0x1410004 + 0x1000 * i
def HEAD_STATUS (i : Nat) : Nat := 0x1410008 + 0x1000 * i
def HEAD_FRAME (i : Nat) : Nat := 0x141000c + 0x1000 * i
def HEAD_FRAME_STAMP (i : Nat) : Nat := 0x1410010 + 0x1000 * i
def HEAD_ERR (i : Nat) : Nat := 0x1410018 + 0x1000 * i
def HEAD_CNT (i : Nat) (j : Nat) : Nat := 0x1410020 + 0x1000 * i + 0x4 * j
def HEAD_BG (i : Nat) (j : Nat) : Nat := 0x1410040 + 0x1000 * i + 0x4 * j
def HEAD_PLANE_CTL (i : Nat) (j : Nat) : Nat := 0x1410100 + 0x1000 * i + 0x20 * j
def HEAD_PLANE_ADDR (i : Nat) (j : Nat) : Nat := 0x1410104 + 0x1000 * i + 0x20 * j
def HEAD_PLANE_STRIDE (i : Nat) (j : Nat) : Nat := 0x141010c + 0x1000 * i + 0x20 * j
def HEAD_PLANE_SRC (i : Nat) (j : Nat) : Nat := 0x1410110 + 0x1000 * i + 0x20 * j
def HEAD_PLANE_SIZE (i : Nat) (j : Nat) : Nat := 0x1410114 + 0x1000 * i + 0x20 * j
def HEAD_PLANE_DST (i : Nat) (j : Nat) : Nat := 0x1410118 + 0x1000 * i + 0x20 * j
def HEAD_CRC_XY (i : Nat) (j : Nat) : Nat := 0x1410200 + 0x1000 * i + 0x10 * j
def HEAD_CRC_WH (i : Nat) (j : Nat) : Nat := 0x1410204 + 0x1000 * i + 0x10 * j
def HEAD_CRC_EXPECT (i : Nat) (j : Nat) : Nat := 0x1410208 + 0x1000 * i + 0x10 * j
def HEAD_CRC_RESULT (i : Nat) (j : Nat) : Nat := 0x141020c + 0x1000 * i + 0x10 * j
def HEAD_CRC_FLAGS (i : Nat) : Nat := 0x1410300 + 0x1000 * i
def HEAD_CRC_CNT (i : Nat) (j : Nat) : Nat := 0x1410340 + 0x1000 * i + 0x4 * j

/-! spec/12_hbm_memory.md -/

def MEM_CTL : Nat := 0x1800000
def MEM_WM : Nat := 0x1800004
def MEM_PANIC : Nat := 0x1800008
def MEM_ROW : Nat := 0x180000c
def MEM_RESERVE : Nat := 0x1800010
def MEM_ERR : Nat := 0x1800014
def MEM_CLASS_PANICS (i : Nat) : Nat := 0x1800020 + 0x8 * i
def MEM_CLASS_DROPS (i : Nat) : Nat := 0x1800024 + 0x8 * i
def MEM_STK_STATUS (i : Nat) : Nat := 0x1810000 + 0x1000 * i
def MEM_STK_ERR (i : Nat) : Nat := 0x1810004 + 0x1000 * i
def MEM_PC_STATE (i : Nat) (j : Nat) : Nat := 0x1810100 + 0x1000 * i + 0x20 * j
def MEM_PC_CORR (i : Nat) (j : Nat) : Nat := 0x1810104 + 0x1000 * i + 0x20 * j
def MEM_PC_UNCORR (i : Nat) (j : Nat) : Nat := 0x1810108 + 0x1000 * i + 0x20 * j
def MEM_PC_SCRUB (i : Nat) (j : Nat) : Nat := 0x181010c + 0x1000 * i + 0x20 * j

/-! spec/13_recording_queue.md -/

def REC_CTL : Nat := 0x1c00000
def REC_STATUS : Nat := 0x1c00004
def REC_ARB : Nat := 0x1c00008
def REC_TIMING : Nat := 0x1c0000c
def REC_ERR : Nat := 0x1c00010
def REC_EVENT : Nat := 0x1c00018
def REC_SQ_BASE (i : Nat) : Nat := 0x1c10000 + 0x20 * i
def REC_CQ_BASE (i : Nat) : Nat := 0x1c20000 + 0x20 * i
def REC_SQ_CTL (i : Nat) : Nat := 0x1c10008 + 0x20 * i
def REC_SQ_HEAD (i : Nat) : Nat := 0x1c1000c + 0x20 * i
def REC_CQ_CTL (i : Nat) : Nat := 0x1c20008 + 0x20 * i
def REC_CQ_TAIL (i : Nat) : Nat := 0x1c2000c + 0x20 * i
def REC_DB_SQ (i : Nat) : Nat := 0x1c30000 + 0x8 * i
def REC_DB_CQ (i : Nat) : Nat := 0x1c30004 + 0x8 * i
def REC_PORT_CTL (i : Nat) : Nat := 0x1c40000 + 0x40 * i
def REC_PORT_STATUS (i : Nat) : Nat := 0x1c40004 + 0x40 * i
def REC_DRIVE_STATUS (i : Nat) : Nat := 0x1c50000 + 0x40 * i
def REC_DRIVE_TEMP_WIN (i : Nat) : Nat := 0x1c50004 + 0x40 * i
def REC_DRIVE_CNT (i : Nat) (j : Nat) : Nat := 0x1c50008 + 0x40 * i + 0x4 * j
def REC_STREAM_STATUS (i : Nat) : Nat := 0x1c60000 + 0x40 * i
def REC_STREAM_CLIP (i : Nat) : Nat := 0x1c60004 + 0x40 * i
def REC_STREAM_FILL (i : Nat) : Nat := 0x1c60008 + 0x40 * i
def REC_STREAM_ERR (i : Nat) : Nat := 0x1c6000c + 0x40 * i
def REC_STREAM_CNT (i : Nat) (j : Nat) : Nat := 0x1c60010 + 0x40 * i + 0x4 * j

/-! spec/14_hedgerow.md -/

def HRW_CTL : Nat := 0x2000000
def HRW_STATUS : Nat := 0x2000004
def HRW_ADDR : Nat := 0x2000008
def HRW_ERR : Nat := 0x200000c
def HRW_TIME : Nat := 0x2000010
def HRW_TIME_DELAY : Nat := 0x2000014
def HRW_GRAFT_CTL : Nat := 0x2000020
def HRW_GRAFT_AT : Nat := 0x2000028
def HRW_GRAFT_STAT : Nat := 0x2000030
def HRW_PORT_STATUS (i : Nat) : Nat := 0x2000100 + 0x40 * i
def HRW_PORT_PEER (i : Nat) : Nat := 0x2000104 + 0x40 * i
def HRW_PORT_CNT (i : Nat) (j : Nat) : Nat := 0x2000110 + 0x40 * i + 0x4 * j
def HRW_ROUTE (i : Nat) : Nat := 0x2000400 + 0x4 * i
def HRW_SEND (i : Nat) : Nat := 0x2000600 + 0x8 * i

/-! spec/15_audio.md -/

def AUD_EP_CTL (i : Nat) : Nat := 0x2410000 + 0x100 * i
def AUD_EP_CFG (i : Nat) : Nat := 0x2410004 + 0x100 * i
def AUD_EP_SLOT_MASK (i : Nat) : Nat := 0x2410008 + 0x100 * i
def AUD_EP_STATUS (i : Nat) : Nat := 0x241000c + 0x100 * i
def AUD_EP_RATE_MEAS (i : Nat) : Nat := 0x2410010 + 0x100 * i
def AUD_EP_BLOCK (i : Nat) : Nat := 0x2410014 + 0x100 * i
def AUD_EP_BLOCK_STAMP (i : Nat) : Nat := 0x2410018 + 0x100 * i
def AUD_EP_ERR (i : Nat) : Nat := 0x2410020 + 0x100 * i
def AUD_EP_CNT (i : Nat) (j : Nat) : Nat := 0x2410024 + 0x100 * i + 0x4 * j
def AUD_EP_CS (i : Nat) (j : Nat) : Nat := 0x2410040 + 0x100 * i + 0x4 * j
def AUD_TX30_CTL (i : Nat) : Nat := 0x2400100 + 0x20 * i
def AUD_TX30_DEST_IP (i : Nat) : Nat := 0x2400104 + 0x20 * i
def AUD_TX30_PORTS (i : Nat) : Nat := 0x2400108 + 0x20 * i
def AUD_TX30_RTP (i : Nat) : Nat := 0x240010c + 0x20 * i
def AUD_TX30_SSRC (i : Nat) : Nat := 0x2400110 + 0x20 * i

/-! spec/16_signalling.md -/

def TWN_CTL : Nat := 0x2800000
def TWN_ERR : Nat := 0x2800004
def TWN_GROUP : Nat := 0x2800008
def TWN_GUARD_MAP : Nat := 0x280000c
def TWN_FIRE (i : Nat) : Nat := 0x2800020 + 0x4 * i
def TWN_PEND (i : Nat) : Nat := 0x2800040 + 0x4 * i
def TWN_EVT_IN : Nat := 0x2800060
def TWN_TIMER_AT (i : Nat) : Nat := 0x2800100 + 0x10 * i
def TWN_TIMER_PERIOD (i : Nat) : Nat := 0x2800108 + 0x10 * i
def TWN_TIMER_CTL (i : Nat) : Nat := 0x280010c + 0x10 * i
def TWN_CH_CFG (i : Nat) : Nat := 0x2810000 + 0x20 * i
def TWN_CH_STAMP (i : Nat) : Nat := 0x2810004 + 0x20 * i
def TWN_CH_COUNT (i : Nat) : Nat := 0x281000c + 0x20 * i
def TWN_KNOT_CFG (i : Nat) : Nat := 0x2820000 + 0x10 * i
def TWN_KNOT_STATE (i : Nat) : Nat := 0x2820004 + 0x10 * i
def TWN_TASK (i : Nat) : Nat := 0x2830000 + 0x4 * i
def MBX_ERR : Nat := 0x2c00000
def MBX_REPORT : Nat := 0x2c00004
def MBX_LOCKED : Nat := 0x2c00008
def MBX_BIND (i : Nat) : Nat := 0x2c00100 + 0x4 * i

/-! spec/17_power_thermal_reset.md -/

def PWR_CTL : Nat := 0x3400000
def PWR_STATUS : Nat := 0x3400004
def PWR_WAKE_EN : Nat := 0x3400008
def PWR_RESET_CAUSE : Nat := 0x340000c
def PWR_SOFT_RESET : Nat := 0x3400010
def PWR_WDT : Nat := 0x3400014
def PWR_WDT_KICK : Nat := 0x3400018
def THM_CTL : Nat := 0x3410000
def THM_STATUS : Nat := 0x3410004
def THM_ERR : Nat := 0x3410008
def THM_LIMIT (i : Nat) : Nat := 0x341000c + 0x4 * i
def THM_ABS : Nat := 0x3410018
def THM_TRIP : Nat := 0x3410020
def THM_TRIP_INFO : Nat := 0x3410028
def THM_SENSOR (i : Nat) : Nat := 0x3410100 + 0x4 * i
def SEED_CAL_CTL : Nat := 0x3800080
def SEED_CAL_STATUS : Nat := 0x3800084

/-- The retention mirror of the Gardener log: word `j` of slot `i` (R41). -/
def GLB_LOG_RET (i : Nat) (j : Nat) : Nat := 0x2000 + 32 * i + 4 * j

/-- Word `j` of entry `i` of the MSI-X table (R27). -/
def MSIX_TABLE (i : Nat) (j : Nat) : Nat := 0x3c00000 + 16 * i + 4 * j

end R

namespace F


/-! spec/00_scope.md -/

def GLB_ID_VARIANT : Field := ⟨R.GLB_ID, 0, 8⟩
def GLB_ID_STEPPING : Field := ⟨R.GLB_ID, 8, 8⟩
def GLB_ID_GRAFT_MAJOR : Field := ⟨R.GLB_ID, 16, 8⟩
def GLB_ID_GRAFT_MINOR : Field := ⟨R.GLB_ID, 24, 8⟩
def GLB_CAPS_BEDS : Field := ⟨R.GLB_CAPS, 0, 5⟩
def GLB_CAPS_RUNNERS : Field := ⟨R.GLB_CAPS, 8, 7⟩
def GLB_CAPS_PES : Field := ⟨R.GLB_CAPS, 16, 7⟩
def GLB_CAPS_HBM_STACKS : Field := ⟨R.GLB_CAPS, 24, 4⟩
def GLB_CAPS_HEADS : Field := ⟨R.GLB_CAPS, 28, 4⟩

/-! spec/01_organisation.md -/

def GLB_ERR_REG_TIMEOUT : Field := ⟨R.GLB_ERR, 0, 1⟩
def GLB_ERR_REG_IN_RESET : Field := ⟨R.GLB_ERR, 1, 1⟩
def GLB_ERR_BAR2_RANGE : Field := ⟨R.GLB_ERR, 2, 1⟩
def GLB_ERR_BAR2_WR_DENY : Field := ⟨R.GLB_ERR, 3, 1⟩
def GLB_ERR_BAR2_POISON : Field := ⟨R.GLB_ERR, 4, 1⟩
def GLB_ERR_LOG_RD_BAD : Field := ⟨R.GLB_ERR, 5, 1⟩
def GLB_BAR2_BASE_BASE_GIB : Field := ⟨R.GLB_BAR2_BASE, 0, 7⟩
def GLB_LOG_BASE_ADDR : Field := ⟨R.GLB_LOG_BASE, 5, 32⟩
def GLB_LOG_CTL_SIZE_LOG2 : Field := ⟨R.GLB_LOG_CTL, 0, 4⟩
def GLB_LOG_CTL_MSIX_EN : Field := ⟨R.GLB_LOG_CTL, 8, 1⟩
def GLB_LOG_WR_WR_INDEX : Field := ⟨R.GLB_LOG_WR, 0, 25⟩
def GLB_LOG_RD_RD_INDEX : Field := ⟨R.GLB_LOG_RD, 0, 25⟩
def GLB_LOG_LOST_LOST : Field := ⟨R.GLB_LOG_LOST, 0, 32⟩
def GLB_LOG_RET_WR_SLOT : Field := ⟨R.GLB_LOG_RET_WR, 0, 6⟩
def GLB_SPARE_LANE_LAST : Field := ⟨R.GLB_SPARE, 0, 1⟩
def GLB_SPARE_LANE_EXH : Field := ⟨R.GLB_SPARE, 1, 1⟩
def GLB_SPARE_PE_LAST : Field := ⟨R.GLB_SPARE, 2, 1⟩
def GLB_SPARE_PE_EXH : Field := ⟨R.GLB_SPARE, 3, 1⟩
def GLB_SPARE_ROW_LAST : Field := ⟨R.GLB_SPARE, 4, 1⟩
def GLB_SPARE_ROW_EXH : Field := ⟨R.GLB_SPARE, 5, 1⟩
def GLB_SPARE_PC_LAST : Field := ⟨R.GLB_SPARE, 6, 1⟩
def GLB_SPARE_PC_EXH : Field := ⟨R.GLB_SPARE, 7, 1⟩
def GLB_SPARE_PE_SPARES_LEFT : Field := ⟨R.GLB_SPARE, 16, 3⟩

/-! spec/02_graft_image.md -/

def SEED_STATUS_STATE : Field := ⟨R.SEED_STATUS, 0, 4⟩
def SEED_STATUS_SOURCE : Field := ⟨R.SEED_STATUS, 4, 3⟩
def SEED_STATUS_ZERO : Field := ⟨R.SEED_STATUS, 7, 1⟩
def SEED_STATUS_SLOT : Field := ⟨R.SEED_STATUS, 8, 2⟩
def SEED_STATUS_FALLBACK : Field := ⟨R.SEED_STATUS, 10, 1⟩
def SEED_STATUS_FW_FALLBACK : Field := ⟨R.SEED_STATUS, 11, 1⟩
def SEED_STATUS_CMD_ZERO : Field := ⟨R.SEED_STATUS, 12, 1⟩
def SEED_STATUS_CODE : Field := ⟨R.SEED_STATUS, 16, 8⟩
def SEED_STATUS_SECTION : Field := ⟨R.SEED_STATUS, 24, 8⟩
def SEED_DETAIL_OFFSET : Field := ⟨R.SEED_DETAIL, 0, 32⟩
def SEED_CTL_CMD : Field := ⟨R.SEED_CTL, 0, 4⟩
def SEED_CTL_SLOT : Field := ⟨R.SEED_CTL, 4, 2⟩
def SEED_CTL_HRW_ACCEPT : Field := ⟨R.SEED_CTL, 8, 1⟩
def SEED_CTL_CONFIRM : Field := ⟨R.SEED_CTL, 16, 16⟩
def SEED_BOOT_ORDER : Field := ⟨R.SEED_BOOT, 0, 8⟩
def SEED_BOOT_ENABLE : Field := ⟨R.SEED_BOOT, 8, 4⟩
def SEED_HOST_ADDR_ADDR : Field := ⟨R.SEED_HOST_ADDR, 8, 56⟩
def SEED_HOST_LEN_LEN : Field := ⟨R.SEED_HOST_LEN, 0, 32⟩
def SEED_IMAGE_ID_BUILD_ID : Field := ⟨R.SEED_IMAGE_ID, 0, 64⟩
def SEED_TIME_MS : Field := ⟨R.SEED_TIME, 0, 16⟩
def SEED_KEYS_SLOT_STATE : Field := ⟨R.SEED_KEYS, 0, 8⟩
def SEED_KEYS_TARBOR_OFF : Field := ⟨R.SEED_KEYS, 8, 1⟩
def SEED_KEY_HASH_HASH (i : Nat) : Field := ⟨R.SEED_KEY_HASH i, 0, 32⟩
def SEED_KEY_CMD_CMD : Field := ⟨R.SEED_KEY_CMD, 0, 2⟩
def SEED_KEY_CMD_SLOT : Field := ⟨R.SEED_KEY_CMD, 2, 3⟩
def SEED_KEY_CMD_BUSY : Field := ⟨R.SEED_KEY_CMD, 5, 1⟩
def SEED_KEY_CMD_REFUSED : Field := ⟨R.SEED_KEY_CMD, 6, 1⟩
def SEED_KEY_CMD_CONFIRM : Field := ⟨R.SEED_KEY_CMD, 16, 16⟩

/-! spec/03_timebase.md -/

def TIME_CTL_SOURCE : Field := ⟨R.TIME_CTL, 0, 2⟩
def TIME_CTL_RATE_MAX : Field := ⟨R.TIME_CTL, 8, 6⟩
def TIME_CTL_MSIX_EN : Field := ⟨R.TIME_CTL, 16, 1⟩
def TIME_STATUS_STATE : Field := ⟨R.TIME_STATUS, 0, 3⟩
def TIME_STATUS_VALID : Field := ⟨R.TIME_STATUS, 3, 1⟩
def TIME_STATUS_INTERP_LOCK : Field := ⟨R.TIME_STATUS, 4, 1⟩
def TIME_ERR_RATE_CLAMP : Field := ⟨R.TIME_ERR, 0, 1⟩
def TIME_ERR_OUTLIER : Field := ⟨R.TIME_ERR, 1, 1⟩
def TIME_ERR_STEPPED : Field := ⟨R.TIME_ERR, 2, 1⟩
def TIME_ERR_HOLDOVER : Field := ⟨R.TIME_ERR, 3, 1⟩
def TIME_ERR_WR_IGNORED : Field := ⟨R.TIME_ERR, 4, 1⟩
def TIME_ERR_SLIP : Field := ⟨R.TIME_ERR, 5, 1⟩
def TIME_ERR_GL_LOST : Field := ⟨R.TIME_ERR, 6, 1⟩
def TIME_CMD_STEP : Field := ⟨R.TIME_CMD, 0, 1⟩
def TIME_CMD_SERVO_RESET : Field := ⟨R.TIME_CMD, 1, 1⟩
def TIME_CMD_CONFIRM : Field := ⟨R.TIME_CMD, 16, 16⟩
def TIME_COUNT_COUNT : Field := ⟨R.TIME_COUNT, 0, 64⟩
def TIME_EPOCH_EPOCH : Field := ⟨R.TIME_EPOCH, 0, 64⟩
def TIME_OFFSET_SEC_SEC : Field := ⟨R.TIME_OFFSET_SEC, 0, 48⟩
def TIME_OFFSET_SEC_FRAC : Field := ⟨R.TIME_OFFSET_SEC, 48, 16⟩
def TIME_OFFSET_NS_NS : Field := ⟨R.TIME_OFFSET_NS, 0, 30⟩
def TIME_RATE_RATE : Field := ⟨R.TIME_RATE, 0, 64⟩
def TIME_SNAP_TICKS_TICKS : Field := ⟨R.TIME_SNAP_TICKS, 0, 64⟩
def TIME_SNAP_SEC_SEC : Field := ⟨R.TIME_SNAP_SEC, 0, 48⟩
def TIME_SNAP_SEC_FRAC : Field := ⟨R.TIME_SNAP_SEC, 48, 16⟩
def TIME_SNAP_NS_NS : Field := ⟨R.TIME_SNAP_NS, 0, 30⟩
def TIME_STEP_STEP : Field := ⟨R.TIME_STEP, 0, 64⟩
def TIME_KP_GAIN : Field := ⟨R.TIME_KP, 0, 32⟩
def TIME_KI_GAIN : Field := ⟨R.TIME_KI, 0, 32⟩
def TIME_LIMIT_LOCK_LIMIT : Field := ⟨R.TIME_LIMIT, 0, 16⟩
def TIME_LIMIT_OUTLIER_LIMIT : Field := ⟨R.TIME_LIMIT, 16, 16⟩
def TIME_HOLD_STEP_LIMIT : Field := ⟨R.TIME_HOLD, 0, 16⟩
def TIME_HOLD_HOLDOVER : Field := ⟨R.TIME_HOLD, 16, 16⟩
def TIME_THETA_THETA : Field := ⟨R.TIME_THETA, 0, 64⟩
def TIME_COUNTS_OUTLIERS : Field := ⟨R.TIME_COUNTS, 0, 16⟩
def TIME_COUNTS_STEPS : Field := ⟨R.TIME_COUNTS, 16, 8⟩
def TIME_COUNTS_HOLDOVERS : Field := ⟨R.TIME_COUNTS, 24, 8⟩
def TIME_PTP_CTL_PORT_EN : Field := ⟨R.TIME_PTP_CTL, 0, 2⟩
def TIME_PTP_CTL_HYBRID : Field := ⟨R.TIME_PTP_CTL, 2, 1⟩
def TIME_PTP_CTL_DOMAIN : Field := ⟨R.TIME_PTP_CTL, 4, 7⟩
def TIME_PTP_CTL_ANN_TIMEOUT : Field := ⟨R.TIME_PTP_CTL, 16, 4⟩
def TIME_PTP_STATUS_MASTER : Field := ⟨R.TIME_PTP_STATUS, 0, 1⟩
def TIME_PTP_STATUS_PORT : Field := ⟨R.TIME_PTP_STATUS, 1, 1⟩
def TIME_PTP_STATUS_LOG_SYNC : Field := ⟨R.TIME_PTP_STATUS, 8, 8⟩
def TIME_PTP_STATUS_STEPS_REMOVED : Field := ⟨R.TIME_PTP_STATUS, 16, 16⟩
def TIME_PTP_GM_CLOCK_ID : Field := ⟨R.TIME_PTP_GM, 0, 64⟩
def TIME_PTP_PATH_MEAN_PATH : Field := ⟨R.TIME_PTP_PATH, 0, 32⟩
def TIME_GL_STAT_PRESENT (i : Nat) : Field := ⟨R.TIME_GL_STAT i, 0, 1⟩
def TIME_GL_STAT_TRI (i : Nat) : Field := ⟨R.TIME_GL_STAT i, 1, 1⟩
def TIME_GL_STAT_INTERLACED (i : Nat) : Field := ⟨R.TIME_GL_STAT i, 2, 1⟩
def TIME_GL_STAT_LINES (i : Nat) : Field := ⟨R.TIME_GL_STAT i, 4, 12⟩
def TIME_GL_PERIOD_PERIOD (i : Nat) : Field := ⟨R.TIME_GL_PERIOD i, 0, 32⟩
def TIME_FREF_CTL_SOURCE (i : Nat) : Field := ⟨R.TIME_FREF_CTL i, 0, 3⟩
def TIME_FREF_CTL_MULT (i : Nat) : Field := ⟨R.TIME_FREF_CTL i, 4, 2⟩
def TIME_FREF_RATE_NUM (i : Nat) : Field := ⟨R.TIME_FREF_RATE i, 0, 20⟩
def TIME_FREF_RATE_DEN (i : Nat) : Field := ⟨R.TIME_FREF_RATE i, 20, 12⟩
def TIME_FREF_PHASE_PHASE (i : Nat) : Field := ⟨R.TIME_FREF_PHASE i, 0, 64⟩
def TIME_FREF_STAT_LOCKED (i : Nat) : Field := ⟨R.TIME_FREF_STAT i, 0, 1⟩
def TIME_FREF_STAT_FREEWHEEL (i : Nat) : Field := ⟨R.TIME_FREF_STAT i, 1, 1⟩
def TIME_FREF_STAT_MISMATCH (i : Nat) : Field := ⟨R.TIME_FREF_STAT i, 2, 1⟩
def TIME_FREF_STAT_REPEATS (i : Nat) : Field := ⟨R.TIME_FREF_STAT i, 8, 8⟩
def TIME_FREF_STAT_DROPS (i : Nat) : Field := ⟨R.TIME_FREF_STAT i, 16, 8⟩
def TIME_FREF_ERR_E (i : Nat) : Field := ⟨R.TIME_FREF_ERR i, 0, 32⟩

/-! spec/04_trugs.md -/

def TRUG_MODE_MODE : Field := ⟨R.TRUG_MODE, 0, 2⟩
def TRUG_IDLE_PATTERN (i : Nat) : Field := ⟨R.TRUG_IDLE i, 0, 32⟩
def TRUG_FLAG_MAP_FLAGGED (i : Nat) : Field := ⟨R.TRUG_FLAG_MAP i, 0, 32⟩
def TRUG_CFG_DEPTH (i : Nat) : Field := ⟨R.TRUG_CFG i, 0, 17⟩
def TRUG_CFG_WIDTH (i : Nat) : Field := ⟨R.TRUG_CFG i, 17, 2⟩
def TRUG_CFG_PRIV (i : Nat) : Field := ⟨R.TRUG_CFG i, 19, 1⟩
def TRUG_CTL_FLUSH (i : Nat) : Field := ⟨R.TRUG_CTL i, 0, 1⟩
def TRUG_STAT_OCCUPANCY (i : Nat) : Field := ⟨R.TRUG_STAT i, 0, 17⟩
def TRUG_STAT_FULL (i : Nat) : Field := ⟨R.TRUG_STAT i, 17, 1⟩
def TRUG_STAT_EMPTY (i : Nat) : Field := ⟨R.TRUG_STAT i, 18, 1⟩
def TRUG_STAT_RECOVERY (i : Nat) : Field := ⟨R.TRUG_STAT i, 19, 1⟩
def TRUG_STAT_OVERRUN (i : Nat) : Field := ⟨R.TRUG_STAT i, 20, 1⟩
def TRUG_STAT_UNCORR (i : Nat) : Field := ⟨R.TRUG_STAT i, 21, 1⟩
def TRUG_OVR_COUNT (i : Nat) : Field := ⟨R.TRUG_OVR i, 0, 32⟩
def TRUG_CORR_COUNT (i : Nat) : Field := ⟨R.TRUG_CORR i, 0, 32⟩
def TRUG_UNCORR_COUNT (i : Nat) : Field := ⟨R.TRUG_UNCORR i, 0, 32⟩

/-! spec/05_runner_lanes.md -/

def RUN_CTL_ROLE (i : Nat) : Field := ⟨R.RUN_CTL i, 0, 3⟩
def RUN_CTL_TIER_CAP (i : Nat) : Field := ⟨R.RUN_CTL i, 3, 3⟩
def RUN_CTL_HOLD_T0 (i : Nat) : Field := ⟨R.RUN_CTL i, 6, 1⟩
def RUN_CTL_REQ_TIER (i : Nat) : Field := ⟨R.RUN_CTL i, 7, 3⟩
def RUN_CTL_PSTATE_REQ (i : Nat) : Field := ⟨R.RUN_CTL i, 10, 2⟩
def RUN_CTL_RETRAIN (i : Nat) : Field := ⟨R.RUN_CTL i, 12, 1⟩
def RUN_CTL_MSIX_EN (i : Nat) : Field := ⟨R.RUN_CTL i, 13, 1⟩
def RUN_STATUS_STATE (i : Nat) : Field := ⟨R.RUN_STATUS i, 0, 4⟩
def RUN_STATUS_TIER (i : Nat) : Field := ⟨R.RUN_STATUS i, 4, 3⟩
def RUN_STATUS_PSTATE (i : Nat) : Field := ⟨R.RUN_STATUS i, 7, 2⟩
def RUN_STATUS_LANES (i : Nat) : Field := ⟨R.RUN_STATUS i, 9, 4⟩
def RUN_STATUS_SPARE_RX (i : Nat) : Field := ⟨R.RUN_STATUS i, 13, 1⟩
def RUN_STATUS_SPARE_TX (i : Nat) : Field := ⟨R.RUN_STATUS i, 14, 1⟩
def RUN_STATUS_SPARE_FOR (i : Nat) : Field := ⟨R.RUN_STATUS i, 15, 4⟩
def RUN_STATUS_VERSION (i : Nat) : Field := ⟨R.RUN_STATUS i, 19, 8⟩
def RUN_ERR_FALLBACK (i : Nat) : Field := ⟨R.RUN_ERR i, 0, 1⟩
def RUN_ERR_TRAIN_FAIL (i : Nat) : Field := ⟨R.RUN_ERR i, 1, 1⟩
def RUN_ERR_LOCK_LOST (i : Nat) : Field := ⟨R.RUN_ERR i, 2, 1⟩
def RUN_ERR_CLOCK_LOST (i : Nat) : Field := ⟨R.RUN_ERR i, 3, 1⟩
def RUN_ERR_SPARE_USED (i : Nat) : Field := ⟨R.RUN_ERR i, 4, 1⟩
def RUN_ERR_SPARE_EXH (i : Nat) : Field := ⟨R.RUN_ERR i, 5, 1⟩
def RUN_ERR_NARROWED (i : Nat) : Field := ⟨R.RUN_ERR i, 6, 1⟩
def RUN_ERR_UNCORR (i : Nat) : Field := ⟨R.RUN_ERR i, 7, 1⟩
def RUN_ERR_L2_EXIT_RETRAIN (i : Nat) : Field := ⟨R.RUN_ERR i, 8, 1⟩
def RUN_ERR_RATE_BAND (i : Nat) : Field := ⟨R.RUN_ERR i, 9, 1⟩
def RUN_ERR_TIER_SHORT (i : Nat) : Field := ⟨R.RUN_ERR i, 10, 1⟩
def RUN_SPARE_THRESH (i : Nat) : Field := ⟨R.RUN_SPARE i, 0, 8⟩
def RUN_SPARE_WINDOW_MS (i : Nat) : Field := ⟨R.RUN_SPARE i, 8, 8⟩
def RUN_SPARE_RETIRED (i : Nat) : Field := ⟨R.RUN_SPARE i, 16, 9⟩
def RUN_PM_L1_IDLE (i : Nat) : Field := ⟨R.RUN_PM i, 0, 16⟩
def RUN_RAW_DDR (i : Nat) : Field := ⟨R.RUN_RAW i, 0, 1⟩
def RUN_RAW_LANES (i : Nat) : Field := ⟨R.RUN_RAW i, 1, 2⟩
def RUN_RAW_MSB_FIRST (i : Nat) : Field := ⟨R.RUN_RAW i, 3, 1⟩
def RUN_RAW_RATE_MBPS (i : Nat) : Field := ⟨R.RUN_RAW_RATE i, 0, 16⟩
def RUN_MARGIN_PHASE (i : Nat) : Field := ⟨R.RUN_MARGIN i, 0, 6⟩
def RUN_MARGIN_VOLT (i : Nat) : Field := ⟨R.RUN_MARGIN i, 8, 6⟩
def RUN_LANE_SKEW (i : Nat) (j : Nat) : Field := ⟨R.RUN_LANE i j, 0, 8⟩
def RUN_LANE_TRIM (i : Nat) (j : Nat) : Field := ⟨R.RUN_LANE i j, 8, 6⟩
def RUN_LANE_LOCK (i : Nat) (j : Nat) : Field := ⟨R.RUN_LANE i j, 14, 1⟩
def RUN_FIR_PRE (i : Nat) (j : Nat) : Field := ⟨R.RUN_FIR i j, 0, 6⟩
def RUN_FIR_MAIN (i : Nat) (j : Nat) : Field := ⟨R.RUN_FIR i j, 8, 6⟩
def RUN_FIR_POST (i : Nat) (j : Nat) : Field := ⟨R.RUN_FIR i j, 16, 6⟩
def RUN_CORR_COUNT (i : Nat) (j : Nat) : Field := ⟨R.RUN_CORR i j, 0, 32⟩
def RUN_BLKERR_COUNT (i : Nat) (j : Nat) : Field := ⟨R.RUN_BLKERR i j, 0, 32⟩
def RUN_UNCORR_COUNT (i : Nat) : Field := ⟨R.RUN_UNCORR i, 0, 32⟩
def RUN_TRAINS_TRAININGS (i : Nat) : Field := ⟨R.RUN_TRAINS i, 0, 16⟩
def RUN_TRAINS_FALLBACKS (i : Nat) : Field := ⟨R.RUN_TRAINS i, 16, 16⟩

/-! spec/06_sensor_ingest.md -/

def ING_FLAG_MAP_FLAGGED (i : Nat) : Field := ⟨R.ING_FLAG_MAP i, 0, 32⟩
def ING_PORT_CTL_MSIX_EN (i : Nat) : Field := ⟨R.ING_PORT_CTL i, 0, 1⟩
def ING_PORT_CFG_GANG (i : Nat) : Field := ⟨R.ING_PORT_CFG i, 0, 4⟩
def ING_PORT_CFG_BPP (i : Nat) : Field := ⟨R.ING_PORT_CFG i, 4, 5⟩
def ING_PORT_CFG_EOF_USED (i : Nat) : Field := ⟨R.ING_PORT_CFG i, 9, 1⟩
def ING_PORT_CFG_FREF (i : Nat) : Field := ⟨R.ING_PORT_CFG i, 10, 5⟩
def ING_PORT_CFG_DEST_BED (i : Nat) : Field := ⟨R.ING_PORT_CFG i, 15, 5⟩
def ING_PORT_CFG_EGRESS (i : Nat) : Field := ⟨R.ING_PORT_CFG i, 20, 5⟩
def ING_PORT_GEOM_SENSOR_W (i : Nat) : Field := ⟨R.ING_PORT_GEOM i, 0, 16⟩
def ING_PORT_GEOM_SENSOR_H (i : Nat) : Field := ⟨R.ING_PORT_GEOM i, 16, 16⟩
def ING_PORT_PRUNE_H_LEFT (i : Nat) : Field := ⟨R.ING_PORT_PRUNE_H i, 0, 12⟩
def ING_PORT_PRUNE_H_RIGHT (i : Nat) : Field := ⟨R.ING_PORT_PRUNE_H i, 16, 12⟩
def ING_PORT_PRUNE_V_TOP (i : Nat) : Field := ⟨R.ING_PORT_PRUNE_V i, 0, 13⟩
def ING_PORT_PRUNE_V_BOTTOM (i : Nat) : Field := ⟨R.ING_PORT_PRUNE_V i, 16, 13⟩
def ING_PORT_PAD_PAD_CODE (i : Nat) : Field := ⟨R.ING_PORT_PAD i, 0, 16⟩
def ING_PORT_STAMP_ADJ_ADJ (i : Nat) : Field := ⟨R.ING_PORT_STAMP_ADJ i, 0, 32⟩
def ING_PORT_TIMEOUT_FRAME_TIMEOUT (i : Nat) : Field := ⟨R.ING_PORT_TIMEOUT i, 0, 32⟩
def ING_PORT_LATE_LATE_LIMIT (i : Nat) : Field := ⟨R.ING_PORT_LATE i, 0, 32⟩
def ING_PORT_STATUS_SYNC (i : Nat) : Field := ⟨R.ING_PORT_STATUS i, 0, 2⟩
def ING_PORT_STATUS_IN_FRAME (i : Nat) : Field := ⟨R.ING_PORT_STATUS i, 2, 1⟩
def ING_PORT_STATUS_LINES (i : Nat) : Field := ⟨R.ING_PORT_STATUS i, 3, 15⟩
def ING_PORT_STATUS_RATE_OVER (i : Nat) : Field := ⟨R.ING_PORT_STATUS i, 18, 1⟩
def ING_PORT_STATUS_CUT_PENDING (i : Nat) : Field := ⟨R.ING_PORT_STATUS i, 19, 1⟩
def ING_PORT_FRAME_FRAME (i : Nat) : Field := ⟨R.ING_PORT_FRAME i, 0, 24⟩
def ING_PORT_ERR_SHORT_LINE (i : Nat) : Field := ⟨R.ING_PORT_ERR i, 0, 1⟩
def ING_PORT_ERR_LONG_LINE (i : Nat) : Field := ⟨R.ING_PORT_ERR i, 1, 1⟩
def ING_PORT_ERR_SHORT_FRAME (i : Nat) : Field := ⟨R.ING_PORT_ERR i, 2, 1⟩
def ING_PORT_ERR_LONG_FRAME (i : Nat) : Field := ⟨R.ING_PORT_ERR i, 3, 1⟩
def ING_PORT_ERR_LATE_FRAME (i : Nat) : Field := ⟨R.ING_PORT_ERR i, 4, 1⟩
def ING_PORT_ERR_SYNC_LOST (i : Nat) : Field := ⟨R.ING_PORT_ERR i, 5, 1⟩
def ING_PORT_ERR_BAND_CUT (i : Nat) : Field := ⟨R.ING_PORT_ERR i, 6, 1⟩
def ING_PORT_ERR_STRAY (i : Nat) : Field := ⟨R.ING_PORT_ERR i, 7, 1⟩
def ING_PORT_ERR_RATE_OVER (i : Nat) : Field := ⟨R.ING_PORT_ERR i, 8, 1⟩
def ING_PORT_ERR_PRUNE_BAD (i : Nat) : Field := ⟨R.ING_PORT_ERR i, 9, 1⟩
def ING_PORT_ERR_TIMEOUT (i : Nat) : Field := ⟨R.ING_PORT_ERR i, 10, 1⟩
def ING_PORT_CNT_COUNT (i : Nat) (j : Nat) : Field := ⟨R.ING_PORT_CNT i j, 0, 32⟩
def ING_MRG_INPUTS_PORTS (i : Nat) : Field := ⟨R.ING_MRG_INPUTS i, 0, 64⟩
def ING_MRG_CTL_MSIX_EN (i : Nat) : Field := ⟨R.ING_MRG_CTL i, 0, 1⟩
def ING_MRG_STATUS_READY (i : Nat) : Field := ⟨R.ING_MRG_STATUS i, 0, 7⟩
def ING_MRG_STATUS_WAITING (i : Nat) : Field := ⟨R.ING_MRG_STATUS i, 7, 1⟩
def ING_MRG_ERR_LATE (i : Nat) : Field := ⟨R.ING_MRG_ERR i, 0, 1⟩
def ING_MRG_ERR_WINDOW (i : Nat) : Field := ⟨R.ING_MRG_ERR i, 1, 1⟩
def ING_MRG_ERR_MARKER (i : Nat) : Field := ⟨R.ING_MRG_ERR i, 2, 1⟩
def ING_MRG_ERR_DROP (i : Nat) : Field := ⟨R.ING_MRG_ERR i, 3, 1⟩
def ING_MRG_ERR_POISONED (i : Nat) : Field := ⟨R.ING_MRG_ERR i, 4, 1⟩
def ING_MRG_CNT_COUNT (i : Nat) (j : Nat) : Field := ⟨R.ING_MRG_CNT i j, 0, 32⟩

/-! spec/07_raw_pipeline.md -/

def BED_LIN_PTR_EN (i : Nat) (j : Nat) : Field := ⟨R.BED_LIN_PTR i j, 0, 1⟩
def BED_LIN_PTR_ADDR (i : Nat) (j : Nat) : Field := ⟨R.BED_LIN_PTR i j, 8, 29⟩
def BED_COL_PTR_EN (i : Nat) (j : Nat) : Field := ⟨R.BED_COL_PTR i j, 0, 1⟩
def BED_COL_PTR_ADDR (i : Nat) (j : Nat) : Field := ⟨R.BED_COL_PTR i j, 8, 29⟩
def BED_ROW_PTR_EN (i : Nat) (j : Nat) : Field := ⟨R.BED_ROW_PTR i j, 0, 1⟩
def BED_ROW_PTR_ADDR (i : Nat) (j : Nat) : Field := ⟨R.BED_ROW_PTR i j, 8, 29⟩
def BED_DARK_PTR_EN (i : Nat) (j : Nat) : Field := ⟨R.BED_DARK_PTR i j, 0, 1⟩
def BED_DARK_PTR_ADDR (i : Nat) (j : Nat) : Field := ⟨R.BED_DARK_PTR i j, 8, 29⟩
def BED_DEFECT_PTR_EN (i : Nat) (j : Nat) : Field := ⟨R.BED_DEFECT_PTR i j, 0, 1⟩
def BED_DEFECT_PTR_ADDR (i : Nat) (j : Nat) : Field := ⟨R.BED_DEFECT_PTR i j, 8, 29⟩
def BED_MESH_PTR_EN (i : Nat) (j : Nat) : Field := ⟨R.BED_MESH_PTR i j, 0, 1⟩
def BED_MESH_PTR_ADDR (i : Nat) (j : Nat) : Field := ⟨R.BED_MESH_PTR i j, 8, 29⟩
def BED_LUT3D_PTR_EN (i : Nat) (j : Nat) : Field := ⟨R.BED_LUT3D_PTR i j, 0, 1⟩
def BED_LUT3D_PTR_ADDR (i : Nat) (j : Nat) : Field := ⟨R.BED_LUT3D_PTR i j, 8, 29⟩
def BED_SCL_PTR_EN (i : Nat) (j : Nat) : Field := ⟨R.BED_SCL_PTR i j, 0, 1⟩
def BED_SCL_PTR_ADDR (i : Nat) (j : Nat) : Field := ⟨R.BED_SCL_PTR i j, 8, 29⟩
def BED_CFG_JOIN (i : Nat) : Field := ⟨R.BED_CFG i, 0, 3⟩
def BED_CFG_MEMBER (i : Nat) : Field := ⟨R.BED_CFG i, 3, 2⟩
def BED_CFG_LEAD (i : Nat) : Field := ⟨R.BED_CFG i, 5, 4⟩
def BED_CFG_SLOTS (i : Nat) : Field := ⟨R.BED_CFG i, 9, 4⟩
def BED_CFG_QUAD (i : Nat) : Field := ⟨R.BED_CFG i, 13, 1⟩
def BED_CFG_PHASE (i : Nat) : Field := ⟨R.BED_CFG i, 14, 2⟩
def BED_STRIPE_X0 (i : Nat) : Field := ⟨R.BED_STRIPE i, 0, 16⟩
def BED_STRIPE_WIDTH (i : Nat) : Field := ⟨R.BED_STRIPE i, 16, 16⟩
def BED_CTL_MSIX_EN (i : Nat) : Field := ⟨R.BED_CTL i, 0, 1⟩
def BED_CTL_RAW_EN (i : Nat) : Field := ⟨R.BED_CTL i, 1, 1⟩
def BED_CTL_DEV_EN (i : Nat) : Field := ⟨R.BED_CTL i, 2, 1⟩
def BED_CTL_PROXY_EN (i : Nat) : Field := ⟨R.BED_CTL i, 3, 1⟩
def BED_STATUS_CLOCK_STEP (i : Nat) : Field := ⟨R.BED_STATUS i, 0, 2⟩
def BED_STATUS_PROXY_OFF (i : Nat) : Field := ⟨R.BED_STATUS i, 2, 1⟩
def BED_STATUS_RAW_OFF (i : Nat) : Field := ⟨R.BED_STATUS i, 3, 1⟩
def BED_STATUS_KBYPASS_A (i : Nat) : Field := ⟨R.BED_STATUS i, 4, 1⟩
def BED_STATUS_KBYPASS_B (i : Nat) : Field := ⟨R.BED_STATUS i, 5, 1⟩
def BED_STATUS_SLOT (i : Nat) : Field := ⟨R.BED_STATUS i, 6, 3⟩
def BED_STATUS_BUSY (i : Nat) : Field := ⟨R.BED_STATUS i, 9, 1⟩
def BED_ERR_FILL (i : Nat) : Field := ⟨R.BED_ERR i, 0, 1⟩
def BED_ERR_POISON (i : Nat) : Field := ⟨R.BED_ERR i, 1, 1⟩
def BED_ERR_TAP_CUT (i : Nat) : Field := ⟨R.BED_ERR i, 2, 1⟩
def BED_ERR_APPLY_LATE (i : Nat) : Field := ⟨R.BED_ERR i, 3, 1⟩
def BED_ERR_DEFECT_ORDER (i : Nat) : Field := ⟨R.BED_ERR i, 4, 1⟩
def BED_ERR_CROP_BAD (i : Nat) : Field := ⟨R.BED_ERR i, 5, 1⟩
def BED_ERR_KBYPASS (i : Nat) : Field := ⟨R.BED_ERR i, 6, 1⟩
def BED_ERR_SCALE_BAD (i : Nat) : Field := ⟨R.BED_ERR i, 7, 1⟩
def BED_ERR_ENC_BAD (i : Nat) : Field := ⟨R.BED_ERR i, 8, 1⟩
def BED_ERR_TABLE_BAD (i : Nat) : Field := ⟨R.BED_ERR i, 9, 1⟩
def BED_ERR_CLOCK_STEP (i : Nat) : Field := ⟨R.BED_ERR i, 10, 1⟩
def BED_CNT_COUNT (i : Nat) (j : Nat) : Field := ⟨R.BED_CNT i j, 0, 32⟩
def BED_LOAD_LOAD (i : Nat) : Field := ⟨R.BED_LOAD i, 0, 11⟩
def BED_LOAD_COLUMNS (i : Nat) : Field := ⟨R.BED_LOAD i, 15, 17⟩
def BED_TAP_DEST (i : Nat) (j : Nat) : Field := ⟨R.BED_TAP i j, 0, 2⟩
def BED_TAP_FMT (i : Nat) (j : Nat) : Field := ⟨R.BED_TAP i j, 2, 2⟩
def BED_TAP_POINT (i : Nat) (j : Nat) : Field := ⟨R.BED_TAP i j, 4, 1⟩
def BED_TAP_TARGET (i : Nat) (j : Nat) : Field := ⟨R.BED_TAP i j, 16, 10⟩
def BED_SHADOW_HOLD (i : Nat) (j : Nat) : Field := ⟨R.BED_SHADOW i j, 0, 1⟩
def BED_SHADOW_PENDING (i : Nat) (j : Nat) : Field := ⟨R.BED_SHADOW i j, 1, 1⟩
def BED_SENSOR_PORT (i : Nat) (j : Nat) : Field := ⟨R.BED_SENSOR i j, 0, 6⟩
def BED_SENSOR_VALID (i : Nat) (j : Nat) : Field := ⟨R.BED_SENSOR i j, 6, 1⟩
def BED_BLACK_LEVEL (i : Nat) (j : Nat) (k : Nat) : Field := ⟨R.BED_BLACK i j k, 0, 20⟩
def BED_DARK_GAIN_GAIN (i : Nat) (j : Nat) : Field := ⟨R.BED_DARK_GAIN i j, 0, 16⟩
def BED_OB_OB_TOP (i : Nat) (j : Nat) : Field := ⟨R.BED_OB i j, 0, 14⟩
def BED_OB_OB_ROWS (i : Nat) (j : Nat) : Field := ⟨R.BED_OB i j, 14, 8⟩
def BED_OB_TC (i : Nat) (j : Nat) : Field := ⟨R.BED_OB i j, 22, 4⟩
def BED_DEFECT_CNT_COUNT (i : Nat) (j : Nat) : Field := ⟨R.BED_DEFECT_CNT i j, 0, 17⟩
def BED_DYN_DYN_HI (i : Nat) (j : Nat) : Field := ⟨R.BED_DYN i j, 0, 12⟩
def BED_DYN_DYN_LO (i : Nat) (j : Nat) : Field := ⟨R.BED_DYN i j, 12, 12⟩
def BED_FLK_FRAMES (i : Nat) (j : Nat) : Field := ⟨R.BED_FLK i j, 0, 5⟩
def BED_FLK_THRESH (i : Nat) (j : Nat) : Field := ⟨R.BED_FLK i j, 5, 16⟩
def BED_CROP_X_LEFT (i : Nat) (j : Nat) : Field := ⟨R.BED_CROP_X i j, 0, 16⟩
def BED_CROP_X_WIDTH (i : Nat) (j : Nat) : Field := ⟨R.BED_CROP_X i j, 16, 16⟩
def BED_CROP_Y_TOP (i : Nat) (j : Nat) : Field := ⟨R.BED_CROP_Y i j, 0, 16⟩
def BED_CROP_Y_HEIGHT (i : Nat) (j : Nat) : Field := ⟨R.BED_CROP_Y i j, 16, 16⟩
def BED_DMS_T_DIR (i : Nat) (j : Nat) : Field := ⟨R.BED_DMS i j, 0, 4⟩
def BED_DMS_T_FLAT (i : Nat) (j : Nat) : Field := ⟨R.BED_DMS i j, 4, 16⟩
def BED_DMS_EPS (i : Nat) (j : Nat) : Field := ⟨R.BED_DMS i j, 20, 12⟩
def BED_LUT_CTL_SHAPER (i : Nat) (j : Nat) : Field := ⟨R.BED_LUT_CTL i j, 0, 1⟩
def BED_CCM_VALUE (i : Nat) (j : Nat) (k : Nat) : Field := ⟨R.BED_CCM i j k, 0, 24⟩
def BED_ENC_CTL_CURVE (i : Nat) (j : Nat) (k : Nat) : Field := ⟨R.BED_ENC_CTL i j k, 0, 3⟩
def BED_ENC_CTL_DEPTH (i : Nat) (j : Nat) (k : Nat) : Field := ⟨R.BED_ENC_CTL i j k, 3, 2⟩
def BED_ENC_CTL_LAYOUT (i : Nat) (j : Nat) (k : Nat) : Field := ⟨R.BED_ENC_CTL i j k, 5, 2⟩
def BED_ENC_CTL_NARROW (i : Nat) (j : Nat) (k : Nat) : Field := ⟨R.BED_ENC_CTL i j k, 7, 1⟩
def BED_ENC_CTL_YCC_2020 (i : Nat) (j : Nat) (k : Nat) : Field := ⟨R.BED_ENC_CTL i j k, 8, 1⟩
def BED_ENC_CTL_PACK (i : Nat) (j : Nat) (k : Nat) : Field := ⟨R.BED_ENC_CTL i j k, 9, 1⟩
def BED_ENC_PARAM_PQ_WHITE (i : Nat) (j : Nat) (k : Nat) : Field := ⟨R.BED_ENC_PARAM i j k, 0, 16⟩
def BED_ENC_PARAM_HLG_GAIN (i : Nat) (j : Nat) (k : Nat) : Field := ⟨R.BED_ENC_PARAM i j k, 16, 16⟩
def BED_ENC_MTX_VALUE (i : Nat) (j : Nat) (k : Nat) (l : Nat) : Field := ⟨R.BED_ENC_MTX i j k l, 0, 24⟩
def BED_SCL_SIZE_OUT_W (i : Nat) (j : Nat) : Field := ⟨R.BED_SCL_SIZE i j, 0, 16⟩
def BED_SCL_SIZE_OUT_H (i : Nat) (j : Nat) : Field := ⟨R.BED_SCL_SIZE i j, 16, 16⟩
def BED_OB_MEAS_BLACK_EFF (i : Nat) (j : Nat) (k : Nat) : Field := ⟨R.BED_OB_MEAS i j k, 0, 20⟩
def BED_FLK_RPT_FREQ (i : Nat) (j : Nat) (k : Nat) : Field := ⟨R.BED_FLK_RPT i j k, 0, 32⟩
def BED_FLK_RPT_AMP (i : Nat) (j : Nat) (k : Nat) : Field := ⟨R.BED_FLK_RPT i j k, 32, 16⟩
def BED_FLK_RPT_PHASE (i : Nat) (j : Nat) (k : Nat) : Field := ⟨R.BED_FLK_RPT i j k, 48, 16⟩
def BED_FLK_FRAME_FRAME (i : Nat) (j : Nat) : Field := ⟨R.BED_FLK_FRAME i j, 0, 24⟩
def BED_FLK_FRAME_COUNT (i : Nat) (j : Nat) : Field := ⟨R.BED_FLK_FRAME i j, 24, 2⟩

/-! spec/08_pixel_engines.md -/

def PE_POOL_FITTED : Field := ⟨R.PE_POOL, 0, 7⟩
def PE_POOL_RETIRED : Field := ⟨R.PE_POOL, 8, 7⟩
def PE_POOL_IN_SERVICE : Field := ⟨R.PE_POOL, 16, 7⟩
def PE_POOL_AVAILABLE : Field := ⟨R.PE_POOL, 24, 7⟩
def PE_STATUS_STATE (i : Nat) : Field := ⟨R.PE_STATUS i, 0, 3⟩
def PE_STATUS_KERNEL (i : Nat) : Field := ⟨R.PE_STATUS i, 3, 7⟩
def PE_STATUS_SPLICE (i : Nat) : Field := ⟨R.PE_STATUS i, 10, 5⟩
def PE_STATUS_MEMBER (i : Nat) : Field := ⟨R.PE_STATUS i, 15, 2⟩
def PE_STATUS_SHARE (i : Nat) : Field := ⟨R.PE_STATUS i, 17, 3⟩
def PE_ERR_DEGRADED (i : Nat) : Field := ⟨R.PE_ERR i, 0, 1⟩
def PE_ERR_HARD_FAULT (i : Nat) : Field := ⟨R.PE_ERR i, 1, 1⟩
def PE_ERR_LINE_OVER (i : Nat) : Field := ⟨R.PE_ERR i, 2, 1⟩
def PE_ERR_CONST_WR (i : Nat) : Field := ⟨R.PE_ERR i, 3, 1⟩
def PE_ERR_POISON (i : Nat) : Field := ⟨R.PE_ERR i, 4, 1⟩
def PE_ERR_DISAGREE (i : Nat) : Field := ⟨R.PE_ERR i, 5, 1⟩
def PE_ERR_MIGRATED (i : Nat) : Field := ⟨R.PE_ERR i, 6, 1⟩
def PE_SPARE_THRESH (i : Nat) : Field := ⟨R.PE_SPARE i, 0, 8⟩
def PE_SPARE_WINDOW_MS (i : Nat) : Field := ⟨R.PE_SPARE i, 8, 16⟩
def PE_SPARE_RETIRED (i : Nat) : Field := ⟨R.PE_SPARE i, 24, 1⟩
def PE_CNT_COUNT (i : Nat) (j : Nat) : Field := ⟨R.PE_CNT i j, 0, 32⟩
def PE_TILE_MAX_CYCLES (i : Nat) : Field := ⟨R.PE_TILE_MAX i, 0, 16⟩
def PE_SPLICE_STATUS_KERNELS (i : Nat) : Field := ⟨R.PE_SPLICE_STATUS i, 0, 3⟩
def PE_SPLICE_STATUS_BYPASS (i : Nat) : Field := ⟨R.PE_SPLICE_STATUS i, 3, 1⟩
def PE_SPLICE_STATUS_BUDGET (i : Nat) : Field := ⟨R.PE_SPLICE_STATUS i, 4, 16⟩
def PE_SPLICE_PARAM_VALUE (i : Nat) (j : Nat) (k : Nat) : Field := ⟨R.PE_SPLICE_PARAM i j k, 0, 32⟩

/-! spec/09_encoder.md -/

def SE_CTL_MSIX_EN (i : Nat) : Field := ⟨R.SE_CTL i, 0, 1⟩
def SE_STATUS_CONTEXTS (i : Nat) : Field := ⟨R.SE_STATUS i, 0, 8⟩
def SE_STATUS_CURRENT (i : Nat) : Field := ⟨R.SE_STATUS i, 8, 3⟩
def SE_STATUS_BUSY (i : Nat) : Field := ⟨R.SE_STATUS i, 11, 1⟩
def SE_STATUS_SWITCHING (i : Nat) : Field := ⟨R.SE_STATUS i, 12, 1⟩
def SE_LOAD_LOAD (i : Nat) : Field := ⟨R.SE_LOAD i, 0, 11⟩
def SE_SWITCHES_COUNT (i : Nat) : Field := ⟨R.SE_SWITCHES i, 0, 32⟩
def SE_CTX_CFG_VALID (i : Nat) (j : Nat) : Field := ⟨R.SE_CTX_CFG i j, 0, 1⟩
def SE_CTX_CFG_DIR (i : Nat) (j : Nat) : Field := ⟨R.SE_CTX_CFG i j, 1, 1⟩
def SE_CTX_CFG_PROFILE (i : Nat) (j : Nat) : Field := ⟨R.SE_CTX_CFG i j, 2, 3⟩
def SE_CTX_CFG_INPUT (i : Nat) (j : Nat) : Field := ⟨R.SE_CTX_CFG i j, 5, 2⟩
def SE_CTX_CFG_STRUCT (i : Nat) (j : Nat) : Field := ⟨R.SE_CTX_CFG i j, 7, 2⟩
def SE_CTX_CFG_GIR_N (i : Nat) (j : Nat) : Field := ⟨R.SE_CTX_CFG i j, 9, 7⟩
def SE_CTX_CFG_SLICE_COUNT (i : Nat) (j : Nat) : Field := ⟨R.SE_CTX_CFG i j, 16, 8⟩
def SE_CTX_CFG_MOSAIC (i : Nat) (j : Nat) : Field := ⟨R.SE_CTX_CFG i j, 24, 8⟩
def SE_CTX_KEY_IDR (i : Nat) (j : Nat) : Field := ⟨R.SE_CTX_KEY i j, 0, 1⟩
def SE_CTX_KEY_SWEEP (i : Nat) (j : Nat) : Field := ⟨R.SE_CTX_KEY i j, 1, 1⟩
def SE_CTX_RC_QP_MIN (i : Nat) (j : Nat) : Field := ⟨R.SE_CTX_RC i j, 0, 6⟩
def SE_CTX_RC_QP_MAX (i : Nat) (j : Nat) : Field := ⟨R.SE_CTX_RC i j, 8, 6⟩
def SE_CTX_CAP_CAP (i : Nat) (j : Nat) : Field := ⟨R.SE_CTX_CAP i j, 0, 32⟩
def SE_CTX_VBV_FULLNESS (i : Nat) (j : Nat) : Field := ⟨R.SE_CTX_VBV i j, 0, 32⟩
def SE_CTX_PIC_PICTURE (i : Nat) (j : Nat) : Field := ⟨R.SE_CTX_PIC i j, 0, 32⟩
def SE_CTX_SIZE_BYTES (i : Nat) (j : Nat) : Field := ⟨R.SE_CTX_SIZE i j, 0, 32⟩
def SE_CTX_STATUS_STATE (i : Nat) (j : Nat) : Field := ⟨R.SE_CTX_STATUS i j, 0, 2⟩
def SE_CTX_STATUS_SWEEP_POS (i : Nat) (j : Nat) : Field := ⟨R.SE_CTX_STATUS i j, 2, 7⟩
def SE_CTX_STATUS_QP (i : Nat) (j : Nat) : Field := ⟨R.SE_CTX_STATUS i j, 9, 6⟩
def SE_CTX_ERR_PIC_STARVED (i : Nat) (j : Nat) : Field := ⟨R.SE_CTX_ERR i j, 0, 1⟩
def SE_CTX_ERR_SLICE_LATE (i : Nat) (j : Nat) : Field := ⟨R.SE_CTX_ERR i j, 1, 1⟩
def SE_CTX_ERR_FORMAT_BAD (i : Nat) (j : Nat) : Field := ⟨R.SE_CTX_ERR i j, 2, 1⟩
def SE_CTX_ERR_GEOM_FILL (i : Nat) (j : Nat) : Field := ⟨R.SE_CTX_ERR i j, 3, 1⟩
def SE_CTX_ERR_LINE_MISSING (i : Nat) (j : Nat) : Field := ⟨R.SE_CTX_ERR i j, 4, 1⟩
def SE_CTX_ERR_POISON (i : Nat) (j : Nat) : Field := ⟨R.SE_CTX_ERR i j, 5, 1⟩
def SE_CTX_ERR_DROPPED (i : Nat) (j : Nat) : Field := ⟨R.SE_CTX_ERR i j, 6, 1⟩
def SE_CTX_ERR_SHED (i : Nat) (j : Nat) : Field := ⟨R.SE_CTX_ERR i j, 7, 1⟩
def SE_CTX_ERR_CAP_BAD (i : Nat) (j : Nat) : Field := ⟨R.SE_CTX_ERR i j, 8, 1⟩
def SE_CTX_CNT_COUNT (i : Nat) (j : Nat) (k : Nat) : Field := ⟨R.SE_CTX_CNT i j k, 0, 32⟩

/-! spec/10_decoder.md -/

def DEC_CTL_FLUSH (i : Nat) (j : Nat) : Field := ⟨R.DEC_CTL i j, 0, 1⟩
def DEC_CTL_RESYNC (i : Nat) (j : Nat) : Field := ⟨R.DEC_CTL i j, 1, 1⟩
def DEC_CTL_EOS (i : Nat) (j : Nat) : Field := ⟨R.DEC_CTL i j, 2, 1⟩
def DEC_WR_OFFSET (i : Nat) (j : Nat) : Field := ⟨R.DEC_WR i j, 0, 32⟩
def DEC_RD_OFFSET (i : Nat) (j : Nat) : Field := ⟨R.DEC_RD i j, 0, 32⟩
def DEC_LAST_PICTURE (i : Nat) (j : Nat) : Field := ⟨R.DEC_LAST i j, 0, 32⟩
def DEC_LAST_CONC_CTUS (i : Nat) (j : Nat) : Field := ⟨R.DEC_LAST_CONC i j, 0, 32⟩
def DEC_STATUS_STATE (i : Nat) (j : Nat) : Field := ⟨R.DEC_STATUS i j, 0, 2⟩
def DEC_STATUS_SEARCHING (i : Nat) (j : Nat) : Field := ⟨R.DEC_STATUS i j, 2, 1⟩
def DEC_STATUS_DRIFT (i : Nat) (j : Nat) : Field := ⟨R.DEC_STATUS i j, 3, 1⟩
def DEC_STATUS_GOOD (i : Nat) (j : Nat) : Field := ⟨R.DEC_STATUS i j, 4, 1⟩
def DEC_ERR_CLASS (i : Nat) (j : Nat) : Field := ⟨R.DEC_ERR i j, 0, 10⟩
def DEC_ERR_CONCEALED (i : Nat) (j : Nat) : Field := ⟨R.DEC_ERR i j, 10, 1⟩
def DEC_ERR_DEC_LATE (i : Nat) (j : Nat) : Field := ⟨R.DEC_ERR i j, 11, 1⟩
def DEC_ERR_REPORT_LOST (i : Nat) (j : Nat) : Field := ⟨R.DEC_ERR i j, 12, 1⟩
def DEC_CNT_COUNT (i : Nat) (j : Nat) (k : Nat) : Field := ⟨R.DEC_CNT i j k, 0, 32⟩

/-! spec/11_scanout.md -/

def HEAD_GROUP_COMMIT_REQ (i : Nat) : Field := ⟨R.HEAD_GROUP_COMMIT i, 0, 1⟩
def HEAD_CTL_COMMIT_LEAD (i : Nat) : Field := ⟨R.HEAD_CTL i, 0, 8⟩
def HEAD_COMMIT_REQ (i : Nat) : Field := ⟨R.HEAD_COMMIT i, 0, 1⟩
def HEAD_COMMIT_SEQ (i : Nat) : Field := ⟨R.HEAD_COMMIT i, 8, 16⟩
def HEAD_STATUS_LINE (i : Nat) : Field := ⟨R.HEAD_STATUS i, 0, 14⟩
def HEAD_STATUS_IN_ACTIVE (i : Nat) : Field := ⟨R.HEAD_STATUS i, 14, 1⟩
def HEAD_STATUS_WINDOW_OPEN (i : Nat) : Field := ⟨R.HEAD_STATUS i, 15, 1⟩
def HEAD_STATUS_LOCKED (i : Nat) : Field := ⟨R.HEAD_STATUS i, 16, 1⟩
def HEAD_STATUS_OFF (i : Nat) : Field := ⟨R.HEAD_STATUS i, 17, 1⟩
def HEAD_FRAME_FRAME (i : Nat) : Field := ⟨R.HEAD_FRAME i, 0, 32⟩
def HEAD_FRAME_STAMP_STAMP (i : Nat) : Field := ⟨R.HEAD_FRAME_STAMP i, 0, 64⟩
def HEAD_ERR_COMMIT_LATE (i : Nat) : Field := ⟨R.HEAD_ERR i, 0, 1⟩
def HEAD_ERR_UNDERRUN (i : Nat) : Field := ⟨R.HEAD_ERR i, 1, 1⟩
def HEAD_ERR_POISON (i : Nat) : Field := ⟨R.HEAD_ERR i, 2, 1⟩
def HEAD_ERR_SLIP (i : Nat) : Field := ⟨R.HEAD_ERR i, 3, 1⟩
def HEAD_ERR_CURVE_MISMATCH (i : Nat) : Field := ⟨R.HEAD_ERR i, 4, 1⟩
def HEAD_ERR_FMT_BAD (i : Nat) : Field := ⟨R.HEAD_ERR i, 5, 1⟩
def HEAD_ERR_CRC (i : Nat) : Field := ⟨R.HEAD_ERR i, 6, 1⟩
def HEAD_CNT_COUNT (i : Nat) (j : Nat) : Field := ⟨R.HEAD_CNT i j, 0, 32⟩
def HEAD_BG_CODE (i : Nat) (j : Nat) : Field := ⟨R.HEAD_BG i j, 0, 16⟩
def HEAD_PLANE_CTL_KIND (i : Nat) (j : Nat) : Field := ⟨R.HEAD_PLANE_CTL i j, 0, 2⟩
def HEAD_PLANE_CTL_FORMAT (i : Nat) (j : Nat) : Field := ⟨R.HEAD_PLANE_CTL i j, 2, 2⟩
def HEAD_PLANE_CTL_FOLLOW (i : Nat) (j : Nat) : Field := ⟨R.HEAD_PLANE_CTL i j, 4, 1⟩
def HEAD_PLANE_CTL_ALPHA (i : Nat) (j : Nat) : Field := ⟨R.HEAD_PLANE_CTL i j, 8, 8⟩
def HEAD_PLANE_ADDR_OFFSET (i : Nat) (j : Nat) : Field := ⟨R.HEAD_PLANE_ADDR i j, 0, 64⟩
def HEAD_PLANE_STRIDE_STRIDE (i : Nat) (j : Nat) : Field := ⟨R.HEAD_PLANE_STRIDE i j, 0, 32⟩
def HEAD_PLANE_SRC_SRC_X (i : Nat) (j : Nat) : Field := ⟨R.HEAD_PLANE_SRC i j, 0, 16⟩
def HEAD_PLANE_SRC_SRC_Y (i : Nat) (j : Nat) : Field := ⟨R.HEAD_PLANE_SRC i j, 16, 16⟩
def HEAD_PLANE_SIZE_WIDTH (i : Nat) (j : Nat) : Field := ⟨R.HEAD_PLANE_SIZE i j, 0, 16⟩
def HEAD_PLANE_SIZE_HEIGHT (i : Nat) (j : Nat) : Field := ⟨R.HEAD_PLANE_SIZE i j, 16, 16⟩
def HEAD_PLANE_DST_DST_X (i : Nat) (j : Nat) : Field := ⟨R.HEAD_PLANE_DST i j, 0, 16⟩
def HEAD_PLANE_DST_DST_Y (i : Nat) (j : Nat) : Field := ⟨R.HEAD_PLANE_DST i j, 16, 16⟩
def HEAD_CRC_XY_X (i : Nat) (j : Nat) : Field := ⟨R.HEAD_CRC_XY i j, 0, 16⟩
def HEAD_CRC_XY_Y (i : Nat) (j : Nat) : Field := ⟨R.HEAD_CRC_XY i j, 16, 16⟩
def HEAD_CRC_WH_W (i : Nat) (j : Nat) : Field := ⟨R.HEAD_CRC_WH i j, 0, 16⟩
def HEAD_CRC_WH_H (i : Nat) (j : Nat) : Field := ⟨R.HEAD_CRC_WH i j, 16, 16⟩
def HEAD_CRC_EXPECT_EXPECT (i : Nat) (j : Nat) : Field := ⟨R.HEAD_CRC_EXPECT i j, 0, 32⟩
def HEAD_CRC_RESULT_RESULT (i : Nat) (j : Nat) : Field := ⟨R.HEAD_CRC_RESULT i j, 0, 32⟩
def HEAD_CRC_FLAGS_MISMATCH (i : Nat) : Field := ⟨R.HEAD_CRC_FLAGS i, 0, 16⟩
def HEAD_CRC_CNT_COUNT (i : Nat) (j : Nat) : Field := ⟨R.HEAD_CRC_CNT i j, 0, 32⟩

/-! spec/12_hbm_memory.md -/

def MEM_CTL_IDLE_NS : Field := ⟨R.MEM_CTL, 0, 16⟩
def MEM_CTL_SCRUB_HOURS : Field := ⟨R.MEM_CTL, 16, 8⟩
def MEM_CTL_MSIX_EN : Field := ⟨R.MEM_CTL, 24, 1⟩
def MEM_WM_HIGH : Field := ⟨R.MEM_WM, 0, 7⟩
def MEM_WM_LOW : Field := ⟨R.MEM_WM, 8, 7⟩
def MEM_PANIC_RD_LEVEL : Field := ⟨R.MEM_PANIC, 0, 4⟩
def MEM_PANIC_WR_LEVEL : Field := ⟨R.MEM_PANIC, 4, 4⟩
def MEM_ROW_THRESH : Field := ⟨R.MEM_ROW, 0, 8⟩
def MEM_ROW_WINDOW_MS : Field := ⟨R.MEM_ROW, 8, 16⟩
def MEM_RESERVE_FREE : Field := ⟨R.MEM_RESERVE, 0, 16⟩
def MEM_RESERVE_NEED : Field := ⟨R.MEM_RESERVE, 16, 16⟩
def MEM_ERR_LINE_DROP : Field := ⟨R.MEM_ERR, 0, 1⟩
def MEM_ERR_UNBACKED : Field := ⟨R.MEM_ERR, 1, 1⟩
def MEM_ERR_PLOT_DROPPED : Field := ⟨R.MEM_ERR, 2, 1⟩
def MEM_CLASS_PANICS_COUNT (i : Nat) : Field := ⟨R.MEM_CLASS_PANICS i, 0, 32⟩
def MEM_CLASS_DROPS_COUNT (i : Nat) : Field := ⟨R.MEM_CLASS_DROPS i, 0, 32⟩
def MEM_STK_STATUS_TRAINED (i : Nat) : Field := ⟨R.MEM_STK_STATUS i, 0, 1⟩
def MEM_STK_STATUS_HOT_REFRESH (i : Nat) : Field := ⟨R.MEM_STK_STATUS i, 1, 1⟩
def MEM_STK_STATUS_RETIRED (i : Nat) : Field := ⟨R.MEM_STK_STATUS i, 2, 6⟩
def MEM_STK_ERR_UNCORR (i : Nat) : Field := ⟨R.MEM_STK_ERR i, 0, 1⟩
def MEM_STK_ERR_ROW_REMAP (i : Nat) : Field := ⟨R.MEM_STK_ERR i, 1, 1⟩
def MEM_STK_ERR_RETIRE (i : Nat) : Field := ⟨R.MEM_STK_ERR i, 2, 1⟩
def MEM_STK_ERR_TRAIN_FAIL (i : Nat) : Field := ⟨R.MEM_STK_ERR i, 3, 1⟩
def MEM_PC_STATE_STATE (i : Nat) (j : Nat) : Field := ⟨R.MEM_PC_STATE i j, 0, 2⟩
def MEM_PC_STATE_BANKS_FULL (i : Nat) (j : Nat) : Field := ⟨R.MEM_PC_STATE i j, 2, 6⟩
def MEM_PC_STATE_ROWS (i : Nat) (j : Nat) : Field := ⟨R.MEM_PC_STATE i j, 8, 8⟩
def MEM_PC_CORR_COUNT (i : Nat) (j : Nat) : Field := ⟨R.MEM_PC_CORR i j, 0, 32⟩
def MEM_PC_UNCORR_COUNT (i : Nat) (j : Nat) : Field := ⟨R.MEM_PC_UNCORR i j, 0, 32⟩
def MEM_PC_SCRUB_COUNT (i : Nat) (j : Nat) : Field := ⟨R.MEM_PC_SCRUB i j, 0, 32⟩

/-! spec/13_recording_queue.md -/

def REC_CTL_IFACE_MAJOR : Field := ⟨R.REC_CTL, 0, 4⟩
def REC_CTL_IFACE_MINOR : Field := ⟨R.REC_CTL, 4, 4⟩
def REC_CTL_RESET_ALL : Field := ⟨R.REC_CTL, 8, 1⟩
def REC_CTL_EVENTS_EN : Field := ⟨R.REC_CTL, 9, 1⟩
def REC_CTL_CHECKPOINT_MS : Field := ⟨R.REC_CTL, 16, 16⟩
def REC_STATUS_READY : Field := ⟨R.REC_STATUS, 0, 1⟩
def REC_STATUS_VER_BAD : Field := ⟨R.REC_STATUS, 1, 1⟩
def REC_STATUS_MAJOR : Field := ⟨R.REC_STATUS, 2, 4⟩
def REC_STATUS_MINOR : Field := ⟨R.REC_STATUS, 6, 4⟩
def REC_ARB_W_HIGH : Field := ⟨R.REC_ARB, 0, 8⟩
def REC_ARB_W_MED : Field := ⟨R.REC_ARB, 8, 8⟩
def REC_ARB_W_LOW : Field := ⟨R.REC_ARB, 16, 8⟩
def REC_TIMING_STOP_WAIT : Field := ⟨R.REC_TIMING, 0, 8⟩
def REC_ERR_NOT_READY : Field := ⟨R.REC_ERR, 0, 1⟩
def REC_ERR_EVENTS_LOST : Field := ⟨R.REC_ERR, 1, 1⟩
def REC_EVENT_EVENT : Field := ⟨R.REC_EVENT, 0, 64⟩
def REC_SQ_BASE_ADDR (i : Nat) : Field := ⟨R.REC_SQ_BASE i, 12, 52⟩
def REC_CQ_BASE_ADDR (i : Nat) : Field := ⟨R.REC_CQ_BASE i, 12, 52⟩
def REC_SQ_CTL_SIZE (i : Nat) : Field := ⟨R.REC_SQ_CTL i, 0, 13⟩
def REC_SQ_CTL_CQ (i : Nat) : Field := ⟨R.REC_SQ_CTL i, 16, 6⟩
def REC_SQ_CTL_CLASS (i : Nat) : Field := ⟨R.REC_SQ_CTL i, 22, 2⟩
def REC_SQ_CTL_RESET (i : Nat) : Field := ⟨R.REC_SQ_CTL i, 24, 1⟩
def REC_SQ_HEAD_HEAD (i : Nat) : Field := ⟨R.REC_SQ_HEAD i, 0, 12⟩
def REC_CQ_CTL_SIZE (i : Nat) : Field := ⟨R.REC_CQ_CTL i, 0, 13⟩
def REC_CQ_CTL_VEC_EN (i : Nat) : Field := ⟨R.REC_CQ_CTL i, 16, 1⟩
def REC_CQ_TAIL_TAIL (i : Nat) : Field := ⟨R.REC_CQ_TAIL i, 0, 12⟩
def REC_CQ_TAIL_PHASE (i : Nat) : Field := ⟨R.REC_CQ_TAIL i, 12, 1⟩
def REC_DB_SQ_INDEX (i : Nat) : Field := ⟨R.REC_DB_SQ i, 0, 12⟩
def REC_DB_CQ_INDEX (i : Nat) : Field := ⟨R.REC_DB_CQ i, 0, 12⟩
def REC_PORT_CTL_EN (i : Nat) : Field := ⟨R.REC_PORT_CTL i, 0, 1⟩
def REC_PORT_CTL_SPLIT (i : Nat) : Field := ⟨R.REC_PORT_CTL i, 1, 1⟩
def REC_PORT_CTL_LINK_RESET (i : Nat) : Field := ⟨R.REC_PORT_CTL i, 2, 1⟩
def REC_PORT_STATUS_WIDTH_A (i : Nat) : Field := ⟨R.REC_PORT_STATUS i, 0, 4⟩
def REC_PORT_STATUS_WIDTH_B (i : Nat) : Field := ⟨R.REC_PORT_STATUS i, 4, 4⟩
def REC_PORT_STATUS_SPEED_A (i : Nat) : Field := ⟨R.REC_PORT_STATUS i, 8, 3⟩
def REC_PORT_STATUS_SPEED_B (i : Nat) : Field := ⟨R.REC_PORT_STATUS i, 11, 3⟩
def REC_DRIVE_STATUS_PRESENT (i : Nat) : Field := ⟨R.REC_DRIVE_STATUS i, 0, 1⟩
def REC_DRIVE_STATUS_LAYOUT (i : Nat) : Field := ⟨R.REC_DRIVE_STATUS i, 1, 1⟩
def REC_DRIVE_STATUS_FAILED (i : Nat) : Field := ⟨R.REC_DRIVE_STATUS i, 2, 1⟩
def REC_DRIVE_STATUS_INTERLOCK (i : Nat) : Field := ⟨R.REC_DRIVE_STATUS i, 3, 1⟩
def REC_DRIVE_STATUS_UNSUPPORTED (i : Nat) : Field := ⟨R.REC_DRIVE_STATUS i, 4, 1⟩
def REC_DRIVE_STATUS_TEMP (i : Nat) : Field := ⟨R.REC_DRIVE_STATUS i, 8, 8⟩
def REC_DRIVE_TEMP_WIN_LO (i : Nat) : Field := ⟨R.REC_DRIVE_TEMP_WIN i, 0, 8⟩
def REC_DRIVE_TEMP_WIN_HI (i : Nat) : Field := ⟨R.REC_DRIVE_TEMP_WIN i, 8, 8⟩
def REC_DRIVE_CNT_COUNT (i : Nat) (j : Nat) : Field := ⟨R.REC_DRIVE_CNT i j, 0, 32⟩
def REC_STREAM_STATUS_STATE (i : Nat) : Field := ⟨R.REC_STREAM_STATUS i, 0, 2⟩
def REC_STREAM_STATUS_OWNER (i : Nat) : Field := ⟨R.REC_STREAM_STATUS i, 2, 6⟩
def REC_STREAM_STATUS_CLASS (i : Nat) : Field := ⟨R.REC_STREAM_STATUS i, 8, 2⟩
def REC_STREAM_STATUS_DRIVES (i : Nat) : Field := ⟨R.REC_STREAM_STATUS i, 10, 4⟩
def REC_STREAM_CLIP_CLIP (i : Nat) : Field := ⟨R.REC_STREAM_CLIP i, 0, 32⟩
def REC_STREAM_FILL_FILL (i : Nat) : Field := ⟨R.REC_STREAM_FILL i, 0, 32⟩
def REC_STREAM_ERR_PREROLL_LOSS (i : Nat) : Field := ⟨R.REC_STREAM_ERR i, 0, 1⟩
def REC_STREAM_ERR_POISON (i : Nat) : Field := ⟨R.REC_STREAM_ERR i, 1, 1⟩
def REC_STREAM_ERR_GAP (i : Nat) : Field := ⟨R.REC_STREAM_ERR i, 2, 1⟩
def REC_STREAM_ERR_DRIVE_LOST (i : Nat) : Field := ⟨R.REC_STREAM_ERR i, 3, 1⟩
def REC_STREAM_ERR_MEDIA_FULL (i : Nat) : Field := ⟨R.REC_STREAM_ERR i, 4, 1⟩
def REC_STREAM_CNT_COUNT (i : Nat) (j : Nat) : Field := ⟨R.REC_STREAM_CNT i j, 0, 32⟩

/-! spec/14_hedgerow.md -/

def HRW_CTL_MSIX_EN : Field := ⟨R.HRW_CTL, 0, 1⟩
def HRW_CTL_AUTO_ENUM : Field := ⟨R.HRW_CTL, 1, 1⟩
def HRW_CTL_WAKE_FWD : Field := ⟨R.HRW_CTL, 2, 1⟩
def HRW_CTL_ENUM : Field := ⟨R.HRW_CTL, 3, 1⟩
def HRW_CTL_EXPECT : Field := ⟨R.HRW_CTL, 16, 13⟩
def HRW_STATUS_HEAD : Field := ⟨R.HRW_STATUS, 0, 1⟩
def HRW_STATUS_RING : Field := ⟨R.HRW_STATUS, 1, 1⟩
def HRW_STATUS_ENUM_STATE : Field := ⟨R.HRW_STATUS, 2, 2⟩
def HRW_STATUS_COUNT : Field := ⟨R.HRW_STATUS, 4, 13⟩
def HRW_ADDR_ADDR : Field := ⟨R.HRW_ADDR, 0, 12⟩
def HRW_ADDR_VALID : Field := ⟨R.HRW_ADDR, 12, 1⟩
def HRW_ADDR_EPOCH : Field := ⟨R.HRW_ADDR, 16, 16⟩
def HRW_ERR_BROKEN : Field := ⟨R.HRW_ERR, 0, 1⟩
def HRW_ERR_ADDR_CHANGED : Field := ⟨R.HRW_ERR, 1, 1⟩
def HRW_ERR_OVERFLOW : Field := ⟨R.HRW_ERR, 2, 1⟩
def HRW_ERR_SHORT : Field := ⟨R.HRW_ERR, 3, 1⟩
def HRW_ERR_JOIN_PENDING : Field := ⟨R.HRW_ERR, 4, 1⟩
def HRW_ERR_LINK_LOST : Field := ⟨R.HRW_ERR, 5, 1⟩
def HRW_ERR_FWD_DROP : Field := ⟨R.HRW_ERR, 6, 1⟩
def HRW_ERR_VER_DROP : Field := ⟨R.HRW_ERR, 7, 1⟩
def HRW_ERR_NO_ROUTE : Field := ⟨R.HRW_ERR, 8, 1⟩
def HRW_ERR_HDR_BAD : Field := ⟨R.HRW_ERR, 9, 1⟩
def HRW_ERR_ITEM_CUT : Field := ⟨R.HRW_ERR, 10, 1⟩
def HRW_ERR_MSG_BAD : Field := ⟨R.HRW_ERR, 11, 1⟩
def HRW_ERR_WOKEN : Field := ⟨R.HRW_ERR, 12, 1⟩
def HRW_ERR_COMMIT_LATE : Field := ⟨R.HRW_ERR, 13, 1⟩
def HRW_ERR_SETUP_BAD : Field := ⟨R.HRW_ERR, 14, 1⟩
def HRW_TIME_RATE : Field := ⟨R.HRW_TIME, 0, 10⟩
def HRW_TIME_DELAY_DELAY : Field := ⟨R.HRW_TIME_DELAY, 0, 32⟩
def HRW_GRAFT_CTL_CMD : Field := ⟨R.HRW_GRAFT_CTL, 0, 2⟩
def HRW_GRAFT_CTL_BCAST : Field := ⟨R.HRW_GRAFT_CTL, 2, 1⟩
def HRW_GRAFT_CTL_DEST : Field := ⟨R.HRW_GRAFT_CTL, 4, 12⟩
def HRW_GRAFT_CTL_CONFIRM : Field := ⟨R.HRW_GRAFT_CTL, 16, 16⟩
def HRW_GRAFT_AT_AT : Field := ⟨R.HRW_GRAFT_AT, 0, 64⟩
def HRW_GRAFT_STAT_TRANSFER_ID : Field := ⟨R.HRW_GRAFT_STAT, 0, 16⟩
def HRW_GRAFT_STAT_READY : Field := ⟨R.HRW_GRAFT_STAT, 16, 8⟩
def HRW_GRAFT_STAT_REFUSED : Field := ⟨R.HRW_GRAFT_STAT, 24, 8⟩
def HRW_PORT_STATUS_LINKS (i : Nat) : Field := ⟨R.HRW_PORT_STATUS i, 0, 4⟩
def HRW_PORT_STATUS_GAP (i : Nat) : Field := ⟨R.HRW_PORT_STATUS i, 4, 4⟩
def HRW_PORT_STATUS_CAP (i : Nat) : Field := ⟨R.HRW_PORT_STATUS i, 8, 3⟩
def HRW_PORT_STATUS_BROKEN (i : Nat) : Field := ⟨R.HRW_PORT_STATUS i, 11, 1⟩
def HRW_PORT_STATUS_VERSION (i : Nat) : Field := ⟨R.HRW_PORT_STATUS i, 12, 8⟩
def HRW_PORT_PEER_ADDR (i : Nat) : Field := ⟨R.HRW_PORT_PEER i, 0, 12⟩
def HRW_PORT_PEER_VALID (i : Nat) : Field := ⟨R.HRW_PORT_PEER i, 12, 1⟩
def HRW_PORT_PEER_HEAD (i : Nat) : Field := ⟨R.HRW_PORT_PEER i, 13, 1⟩
def HRW_PORT_CNT_COUNT (i : Nat) (j : Nat) : Field := ⟨R.HRW_PORT_CNT i j, 0, 32⟩
def HRW_ROUTE_SRC (i : Nat) : Field := ⟨R.HRW_ROUTE i, 0, 12⟩
def HRW_ROUTE_ANY_SRC (i : Nat) : Field := ⟨R.HRW_ROUTE i, 12, 1⟩
def HRW_ROUTE_STREAM (i : Nat) : Field := ⟨R.HRW_ROUTE i, 13, 8⟩
def HRW_ROUTE_TRUG (i : Nat) : Field := ⟨R.HRW_ROUTE i, 21, 9⟩
def HRW_ROUTE_EN (i : Nat) : Field := ⟨R.HRW_ROUTE i, 30, 1⟩
def HRW_SEND_TRUG (i : Nat) : Field := ⟨R.HRW_SEND i, 0, 9⟩
def HRW_SEND_PORT (i : Nat) : Field := ⟨R.HRW_SEND i, 9, 1⟩
def HRW_SEND_BCAST (i : Nat) : Field := ⟨R.HRW_SEND i, 10, 1⟩
def HRW_SEND_KIND (i : Nat) : Field := ⟨R.HRW_SEND i, 11, 3⟩
def HRW_SEND_EN (i : Nat) : Field := ⟨R.HRW_SEND i, 14, 1⟩
def HRW_SEND_STREAM (i : Nat) : Field := ⟨R.HRW_SEND i, 16, 8⟩
def HRW_SEND_DEST (i : Nat) : Field := ⟨R.HRW_SEND i, 32, 12⟩

/-! spec/15_audio.md -/

def AUD_EP_CTL_MSIX_EN (i : Nat) : Field := ⟨R.AUD_EP_CTL i, 0, 1⟩
def AUD_EP_CFG_MODE (i : Nat) : Field := ⟨R.AUD_EP_CFG i, 0, 2⟩
def AUD_EP_CFG_FORMAT (i : Nat) : Field := ⟨R.AUD_EP_CFG i, 2, 2⟩
def AUD_EP_CFG_CHANNELS (i : Nat) : Field := ⟨R.AUD_EP_CFG i, 4, 5⟩
def AUD_EP_CFG_WORD_BITS (i : Nat) : Field := ⟨R.AUD_EP_CFG i, 9, 6⟩
def AUD_EP_CFG_LEADER (i : Nat) : Field := ⟨R.AUD_EP_CFG i, 15, 1⟩
def AUD_EP_CFG_RATE (i : Nat) : Field := ⟨R.AUD_EP_CFG i, 16, 3⟩
def AUD_EP_CFG_SOURCE (i : Nat) : Field := ⟨R.AUD_EP_CFG i, 19, 4⟩
def AUD_EP_SLOT_MASK_MASK (i : Nat) : Field := ⟨R.AUD_EP_SLOT_MASK i, 0, 16⟩
def AUD_EP_STATUS_APPLIED (i : Nat) : Field := ⟨R.AUD_EP_STATUS i, 0, 16⟩
def AUD_EP_STATUS_RUNNING (i : Nat) : Field := ⟨R.AUD_EP_STATUS i, 16, 1⟩
def AUD_EP_STATUS_LOCKED (i : Nat) : Field := ⟨R.AUD_EP_STATUS i, 17, 1⟩
def AUD_EP_STATUS_NONAUDIO (i : Nat) : Field := ⟨R.AUD_EP_STATUS i, 18, 1⟩
def AUD_EP_STATUS_MASK_PENDING (i : Nat) : Field := ⟨R.AUD_EP_STATUS i, 19, 1⟩
def AUD_EP_RATE_MEAS_HZ (i : Nat) : Field := ⟨R.AUD_EP_RATE_MEAS i, 0, 32⟩
def AUD_EP_BLOCK_BLOCK (i : Nat) : Field := ⟨R.AUD_EP_BLOCK i, 0, 32⟩
def AUD_EP_BLOCK_STAMP_STAMP (i : Nat) : Field := ⟨R.AUD_EP_BLOCK_STAMP i, 0, 64⟩
def AUD_EP_ERR_UNDERRUN (i : Nat) : Field := ⟨R.AUD_EP_ERR i, 0, 1⟩
def AUD_EP_ERR_OVERRUN (i : Nat) : Field := ⟨R.AUD_EP_ERR i, 1, 1⟩
def AUD_EP_ERR_SKIP (i : Nat) : Field := ⟨R.AUD_EP_ERR i, 2, 1⟩
def AUD_EP_ERR_NONAUDIO (i : Nat) : Field := ⟨R.AUD_EP_ERR i, 3, 1⟩
def AUD_EP_ERR_LOCK_LOST (i : Nat) : Field := ⟨R.AUD_EP_ERR i, 4, 1⟩
def AUD_EP_ERR_PARITY (i : Nat) : Field := ⟨R.AUD_EP_ERR i, 5, 1⟩
def AUD_EP_ERR_POISON (i : Nat) : Field := ⟨R.AUD_EP_ERR i, 6, 1⟩
def AUD_EP_ERR_BLOCK_LOST (i : Nat) : Field := ⟨R.AUD_EP_ERR i, 7, 1⟩
def AUD_EP_ERR_RATE_BAD (i : Nat) : Field := ⟨R.AUD_EP_ERR i, 8, 1⟩
def AUD_EP_CNT_COUNT (i : Nat) (j : Nat) : Field := ⟨R.AUD_EP_CNT i j, 0, 32⟩
def AUD_EP_CS_BYTES (i : Nat) (j : Nat) : Field := ⟨R.AUD_EP_CS i j, 0, 32⟩
def AUD_TX30_CTL_EN (i : Nat) : Field := ⟨R.AUD_TX30_CTL i, 0, 1⟩
def AUD_TX30_CTL_PORT (i : Nat) : Field := ⟨R.AUD_TX30_CTL i, 1, 1⟩
def AUD_TX30_CTL_PTIME (i : Nat) : Field := ⟨R.AUD_TX30_CTL i, 2, 1⟩
def AUD_TX30_CTL_SOURCE (i : Nat) : Field := ⟨R.AUD_TX30_CTL i, 4, 4⟩
def AUD_TX30_CTL_FIRST (i : Nat) : Field := ⟨R.AUD_TX30_CTL i, 8, 4⟩
def AUD_TX30_CTL_COUNT (i : Nat) : Field := ⟨R.AUD_TX30_CTL i, 12, 5⟩
def AUD_TX30_DEST_IP_DEST_IP (i : Nat) : Field := ⟨R.AUD_TX30_DEST_IP i, 0, 32⟩
def AUD_TX30_PORTS_DEST_PORT (i : Nat) : Field := ⟨R.AUD_TX30_PORTS i, 0, 16⟩
def AUD_TX30_PORTS_SRC_PORT (i : Nat) : Field := ⟨R.AUD_TX30_PORTS i, 16, 16⟩
def AUD_TX30_RTP_PT (i : Nat) : Field := ⟨R.AUD_TX30_RTP i, 0, 7⟩
def AUD_TX30_RTP_DSCP (i : Nat) : Field := ⟨R.AUD_TX30_RTP i, 7, 6⟩
def AUD_TX30_RTP_VLAN (i : Nat) : Field := ⟨R.AUD_TX30_RTP i, 13, 12⟩
def AUD_TX30_SSRC_SSRC (i : Nat) : Field := ⟨R.AUD_TX30_SSRC i, 0, 32⟩

/-! spec/16_signalling.md -/

def TWN_CTL_MSIX_EN : Field := ⟨R.TWN_CTL, 0, 1⟩
def TWN_ERR_LOOP_GUARD : Field := ⟨R.TWN_ERR, 0, 1⟩
def TWN_ERR_OVERRUN : Field := ⟨R.TWN_ERR, 1, 1⟩
def TWN_ERR_FIRE_OFF : Field := ⟨R.TWN_ERR, 2, 1⟩
def TWN_GROUP_EN : Field := ⟨R.TWN_GROUP, 0, 16⟩
def TWN_GUARD_MAP_GUARDED : Field := ⟨R.TWN_GUARD_MAP, 0, 16⟩
def TWN_FIRE_FIRE (i : Nat) : Field := ⟨R.TWN_FIRE i, 0, 32⟩
def TWN_PEND_PEND (i : Nat) : Field := ⟨R.TWN_PEND i, 0, 32⟩
def TWN_EVT_IN_LEVEL : Field := ⟨R.TWN_EVT_IN, 0, 32⟩
def TWN_TIMER_AT_AT (i : Nat) : Field := ⟨R.TWN_TIMER_AT i, 0, 64⟩
def TWN_TIMER_PERIOD_PERIOD (i : Nat) : Field := ⟨R.TWN_TIMER_PERIOD i, 0, 32⟩
def TWN_TIMER_CTL_EN (i : Nat) : Field := ⟨R.TWN_TIMER_CTL i, 0, 1⟩
def TWN_CH_CFG_SOURCE (i : Nat) : Field := ⟨R.TWN_CH_CFG i, 0, 16⟩
def TWN_CH_CFG_GROUP (i : Nat) : Field := ⟨R.TWN_CH_CFG i, 16, 4⟩
def TWN_CH_CFG_VEC (i : Nat) : Field := ⟨R.TWN_CH_CFG i, 20, 1⟩
def TWN_CH_CFG_TASKS (i : Nat) : Field := ⟨R.TWN_CH_CFG i, 21, 4⟩
def TWN_CH_CFG_KNOT (i : Nat) : Field := ⟨R.TWN_CH_CFG i, 25, 1⟩
def TWN_CH_CFG_VALID (i : Nat) : Field := ⟨R.TWN_CH_CFG i, 26, 1⟩
def TWN_CH_STAMP_STAMP (i : Nat) : Field := ⟨R.TWN_CH_STAMP i, 0, 64⟩
def TWN_CH_COUNT_EVENTS (i : Nat) : Field := ⟨R.TWN_CH_COUNT i, 0, 24⟩
def TWN_CH_COUNT_MERGED (i : Nat) : Field := ⟨R.TWN_CH_COUNT i, 24, 8⟩
def TWN_KNOT_CFG_TABLE (i : Nat) : Field := ⟨R.TWN_KNOT_CFG i, 0, 16⟩
def TWN_KNOT_CFG_OUT_CH (i : Nat) : Field := ⟨R.TWN_KNOT_CFG i, 16, 8⟩
def TWN_KNOT_CFG_MODE (i : Nat) : Field := ⟨R.TWN_KNOT_CFG i, 24, 8⟩
def TWN_KNOT_STATE_Q (i : Nat) : Field := ⟨R.TWN_KNOT_STATE i, 0, 1⟩
def TWN_KNOT_STATE_O (i : Nat) : Field := ⟨R.TWN_KNOT_STATE i, 1, 1⟩
def TWN_KNOT_STATE_LOOP_GUARD (i : Nat) : Field := ⟨R.TWN_KNOT_STATE i, 2, 1⟩
def TWN_TASK_MERGED (i : Nat) : Field := ⟨R.TWN_TASK i, 0, 16⟩
def TWN_TASK_OVERRUNS (i : Nat) : Field := ⟨R.TWN_TASK i, 16, 14⟩
def TWN_TASK_OVERRUN (i : Nat) : Field := ⟨R.TWN_TASK i, 31, 1⟩
def MBX_ERR_ACCESS : Field := ⟨R.MBX_ERR, 0, 1⟩
def MBX_ERR_POST_FULL : Field := ⟨R.MBX_ERR, 1, 1⟩
def MBX_ERR_LOCK_BAD : Field := ⟨R.MBX_ERR, 2, 1⟩
def MBX_ERR_BAD_TAKEN : Field := ⟨R.MBX_ERR, 3, 1⟩
def MBX_ERR_CHANNEL : Field := ⟨R.MBX_ERR, 4, 6⟩
def MBX_ERR_IDENTITY : Field := ⟨R.MBX_ERR, 16, 16⟩
def MBX_REPORT_CHANNEL : Field := ⟨R.MBX_REPORT, 0, 6⟩
def MBX_REPORT_VALID : Field := ⟨R.MBX_REPORT, 6, 1⟩
def MBX_LOCKED_LOCKED : Field := ⟨R.MBX_LOCKED, 0, 1⟩
def MBX_BIND_SENDER (i : Nat) : Field := ⟨R.MBX_BIND i, 0, 16⟩
def MBX_BIND_RECEIVER (i : Nat) : Field := ⟨R.MBX_BIND i, 16, 16⟩

/-! spec/17_power_thermal_reset.md -/

def PWR_CTL_REQ : Field := ⟨R.PWR_CTL, 0, 2⟩
def PWR_CTL_CONFIRM : Field := ⟨R.PWR_CTL, 16, 16⟩
def PWR_STATUS_STATE : Field := ⟨R.PWR_STATUS, 0, 3⟩
def PWR_STATUS_LAST_WAKE : Field := ⟨R.PWR_STATUS, 8, 3⟩
def PWR_STATUS_REFUSED : Field := ⟨R.PWR_STATUS, 16, 1⟩
def PWR_WAKE_EN_TWINE : Field := ⟨R.PWR_WAKE_EN, 0, 1⟩
def PWR_WAKE_EN_HRW_UP : Field := ⟨R.PWR_WAKE_EN, 1, 1⟩
def PWR_WAKE_EN_HRW_DN : Field := ⟨R.PWR_WAKE_EN, 2, 1⟩
def PWR_WAKE_EN_PCIE : Field := ⟨R.PWR_WAKE_EN, 3, 1⟩
def PWR_RESET_CAUSE_POR : Field := ⟨R.PWR_RESET_CAUSE, 0, 1⟩
def PWR_RESET_CAUSE_PIN : Field := ⟨R.PWR_RESET_CAUSE, 1, 1⟩
def PWR_RESET_CAUSE_TRIP : Field := ⟨R.PWR_RESET_CAUSE, 2, 1⟩
def PWR_RESET_CAUSE_WDT : Field := ⟨R.PWR_RESET_CAUSE, 3, 1⟩
def PWR_SOFT_RESET_BLOCK : Field := ⟨R.PWR_SOFT_RESET, 1, 16⟩
def PWR_WDT_TIMEOUT_MS : Field := ⟨R.PWR_WDT, 0, 16⟩
def PWR_WDT_KICK_KEY : Field := ⟨R.PWR_WDT_KICK, 0, 32⟩
def THM_CTL_MSIX_EN : Field := ⟨R.THM_CTL, 0, 1⟩
def THM_STATUS_WARN : Field := ⟨R.THM_STATUS, 0, 1⟩
def THM_STATUS_COND : Field := ⟨R.THM_STATUS, 1, 1⟩
def THM_STATUS_REQ : Field := ⟨R.THM_STATUS, 2, 1⟩
def THM_STATUS_RELIEF : Field := ⟨R.THM_STATUS, 3, 1⟩
def THM_STATUS_STEPS : Field := ⟨R.THM_STATUS, 4, 5⟩
def THM_STATUS_GRACE_LEFT : Field := ⟨R.THM_STATUS, 16, 16⟩
def THM_ERR_WARN : Field := ⟨R.THM_ERR, 0, 1⟩
def THM_ERR_REQ : Field := ⟨R.THM_ERR, 1, 1⟩
def THM_ERR_ENFORCED : Field := ⟨R.THM_ERR, 2, 1⟩
def THM_LIMIT_LOW (i : Nat) : Field := ⟨R.THM_LIMIT i, 0, 16⟩
def THM_LIMIT_HIGH (i : Nat) : Field := ⟨R.THM_LIMIT i, 16, 16⟩
def THM_ABS_LEVEL : Field := ⟨R.THM_ABS, 0, 16⟩
def THM_TRIP_STAMP : Field := ⟨R.THM_TRIP, 0, 64⟩
def THM_TRIP_INFO_COUNT : Field := ⟨R.THM_TRIP_INFO, 0, 16⟩
def THM_TRIP_INFO_SENSOR : Field := ⟨R.THM_TRIP_INFO, 16, 5⟩
def THM_SENSOR_TEMP (i : Nat) : Field := ⟨R.THM_SENSOR i, 0, 16⟩
def THM_SENSOR_RATE (i : Nat) : Field := ⟨R.THM_SENSOR i, 16, 16⟩
def SEED_CAL_CTL_CMD : Field := ⟨R.SEED_CAL_CTL, 0, 2⟩
def SEED_CAL_CTL_CONFIRM : Field := ⟨R.SEED_CAL_CTL, 16, 16⟩
def SEED_CAL_STATUS_BUSY : Field := ⟨R.SEED_CAL_STATUS, 0, 1⟩
def SEED_CAL_STATUS_INVALID : Field := ⟨R.SEED_CAL_STATUS, 1, 1⟩
def SEED_CAL_STATUS_FACTORY : Field := ⟨R.SEED_CAL_STATUS, 2, 1⟩
def SEED_CAL_STATUS_TEMP_REFUSED : Field := ⟨R.SEED_CAL_STATUS, 3, 1⟩
def SEED_CAL_STATUS_FORMAT_REFUSED : Field := ⟨R.SEED_CAL_STATUS, 4, 1⟩

end F

end Sys2Proof.Machine
end

