-- ==== Sys2Proof/Machine/RegTable.lean ====
section
/-!
DEFINITION. The register tables of the chapters as data: for every register word its place, the access code of each
of its bits (R13), its reset value on each bonding and the keep class of each bit (R17). A field whose reset value is
"from graft", "from flash", "from fuses", "from trim" or "strap" stands here with 0; the operation that loads it
writes it.
-/

namespace Sys2Proof.Machine

/-- The block whose instance count decides whether a register's instance is present on a bonding (R1, R4). -/
inductive InstKind where
  | one | runner | bed | merger | pe | splice | head | stack
  deriving DecidableEq, Repr

/-- Whether a word is a register by itself or one half of a 64-bit register (R11, R12). -/
inductive Half where
  | one | low | high
  deriving DecidableEq, Repr

/-- Which bits of a word carry each access code of R13; a bit in none of the masks is read-only or reserved. -/
structure Access where
  rw : Nat
  w1c : Nat
  w1s : Nat
  rws : Nat
  rwc : Nat
  wo : Nat
  deriving DecidableEq, Repr

/-- The reset value of a word: the same on all three bondings, or one value for each (QC-8816, QC-8808, QC-8804). -/
inductive ResetValue where
  | same (v : Nat)
  | per (v16 v8 v4 : Nat)
  deriving DecidableEq, Repr

/-- Which bits of a word are of keep class A, D and G; every other bit is of class V (R17). -/
structure Keep where
  a : Nat
  d : Nat
  g : Nat
  deriving DecidableEq, Repr

/-- One register word of the tables, or an array of them: `dims` gives the count and the stride of each index. -/
structure RegDesc where
  base : Nat
  dims : List (Nat × Nat)
  inst : InstKind
  half : Half
  access : Access
  reset : ResetValue
  keep : Keep
  deriving DecidableEq, Repr

/-! Glb: GLB_ID, GLB_CAPS, GLB_ERR, GLB_BAR2_BASE, GLB_LOG_BASE, GLB_LOG_CTL, GLB_LOG_WR, GLB_LOG_RD, GLB_LOG_LOST, GLB_LOG_RET_WR, GLB_SPARE, GLB_LOG_RET -/

def regsGlb0 : List RegDesc := [
  ⟨0x0, [], .one, .one, ⟨0x0, 0x0, 0x0, 0x0, 0x0, 0x0⟩, .per 0x10110 0x10108 0x10104, ⟨0xffffffff, 0x0, 0x0⟩⟩,
  ⟨0x4, [], .one, .one, ⟨0x0, 0x0, 0x0, 0x0, 0x0, 0x0⟩, .per 0x84444010 0x42222008 0x21111004, ⟨0xffffffff, 0x0, 0x0⟩⟩,
  ⟨0x14, [], .one, .one, ⟨0x0, 0x3f, 0x0, 0x0, 0x0, 0x0⟩, .same 0x0, ⟨0x0, 0x0, 0x0⟩⟩,
  ⟨0x18, [], .one, .one, ⟨0x7f, 0x0, 0x0, 0x0, 0x0, 0x0⟩, .same 0x0, ⟨0x0, 0x0, 0x0⟩⟩,
  ⟨0x20, [], .one, .low, ⟨0x0, 0x0, 0x0, 0x0, 0x0, 0x0⟩, .same 0x0, ⟨0x0, 0x0, 0xffffffff⟩⟩,
  ⟨0x24, [], .one, .high, ⟨0x0, 0x0, 0x0, 0x0, 0x0, 0x0⟩, .same 0x0, ⟨0x0, 0x0, 0xffffffff⟩⟩,
  ⟨0x28, [], .one, .one, ⟨0x100, 0x0, 0x0, 0x0, 0x0, 0x0⟩, .same 0x100, ⟨0x0, 0x0, 0xff⟩⟩,
  ⟨0x2c, [], .one, .one, ⟨0x0, 0x0, 0x0, 0x0, 0x0, 0x0⟩, .same 0x0, ⟨0x0, 0xffffffff, 0x0⟩⟩,
  ⟨0x30, [], .one, .one, ⟨0x1ffffff, 0x0, 0x0, 0x0, 0x0, 0x0⟩, .same 0x0, ⟨0x0, 0xffffffff, 0x0⟩⟩,
  ⟨0x34, [], .one, .one, ⟨0x0, 0x0, 0x0, 0x0, 0x0, 0x0⟩, .same 0x0, ⟨0x0, 0xffffffff, 0x0⟩⟩,
  ⟨0x38, [], .one, .one, ⟨0x0, 0x0, 0x0, 0x0, 0x0, 0x0⟩, .same 0x0, ⟨0xffffffff, 0x0, 0x0⟩⟩,
  ⟨0x10, [], .one, .one, ⟨0x0, 0x0, 0x0, 0x0, 0x0, 0x0⟩, .per 0x40000 0x20000 0x10000, ⟨0xffffffff, 0x0, 0x0⟩⟩,
  ⟨0x2000, [(512, 0x4)], .one, .one, ⟨0, 0, 0, 0, 0, 0⟩, .same 0, ⟨0xffffffff, 0, 0⟩⟩]

/-- The registers of the range at 0x0 (R27). -/
def regsGlb : List RegDesc := regsGlb0

/-! Time: TIME_CTL, TIME_STATUS, TIME_ERR, TIME_CMD, TIME_COUNT, TIME_EPOCH, TIME_OFFSET_SEC, TIME_OFFSET_NS, TIME_RATE, TIME_SNAP_TICKS, TIME_SNAP_SEC, TIME_SNAP_NS, TIME_STEP, TIME_KP, TIME_KI, TIME_LIMIT, TIME_HOLD, TIME_THETA, TIME_COUNTS, TIME_PTP_CTL, TIME_PTP_STATUS, TIME_PTP_GM, TIME_PTP_PATH, TIME_GL_STAT, TIME_GL_PERIOD, TIME_FREF_CTL, TIME_FREF_RATE, TIME_FREF_PHASE, TIME_FREF_STAT, TIME_FREF_ERR -/

def regsTime0 : List RegDesc := [
  ⟨0x100000, [], .one, .one, ⟨0x13f03, 0x0, 0x0, 0x0, 0x0, 0x0⟩, .same 0x12400, ⟨0x0, 0xffffffff, 0x0⟩⟩,
  ⟨0x100004, [], .one, .one, ⟨0x0, 0x0, 0x0, 0x0, 0x0, 0x0⟩, .same 0x0, ⟨0x8, 0x0, 0x0⟩⟩,
  ⟨0x100008, [], .one, .one, ⟨0x0, 0x7f, 0x0, 0x0, 0x0, 0x0⟩, .same 0x0, ⟨0x0, 0x0, 0x0⟩⟩,
  ⟨0x10000c, [], .one, .one, ⟨0x0, 0x0, 0x0, 0x0, 0x0, 0xffff0003⟩, .same 0x0, ⟨0x0, 0x0, 0x0⟩⟩,
  ⟨0x100010, [], .one, .low, ⟨0x0, 0x0, 0x0, 0x0, 0x0, 0x0⟩, .same 0x0, ⟨0xffffffff, 0x0, 0x0⟩⟩,
  ⟨0x100014, [], .one, .high, ⟨0x0, 0x0, 0x0, 0x0, 0x0, 0x0⟩, .same 0x0, ⟨0xffffffff, 0x0, 0x0⟩⟩,
  ⟨0x100018, [], .one, .low, ⟨0x0, 0x0, 0x0, 0x0, 0x0, 0x0⟩, .same 0x0, ⟨0xffffffff, 0x0, 0x0⟩⟩,
  ⟨0x10001c, [], .one, .high, ⟨0x0, 0x0, 0x0, 0x0, 0x0, 0x0⟩, .same 0x0, ⟨0xffffffff, 0x0, 0x0⟩⟩,
  ⟨0x100020, [], .one, .low, ⟨0xffffffff, 0x0, 0x0, 0x0, 0x0, 0x0⟩, .same 0x0, ⟨0xffffffff, 0x0, 0x0⟩⟩,
  ⟨0x100024, [], .one, .high, ⟨0xffffffff, 0x0, 0x0, 0x0, 0x0, 0x0⟩, .same 0x0, ⟨0xffffffff, 0x0, 0x0⟩⟩,
  ⟨0x100028, [], .one, .one, ⟨0x3fffffff, 0x0, 0x0, 0x0, 0x0, 0x0⟩, .same 0x0, ⟨0xffffffff, 0x0, 0x0⟩⟩,
  ⟨0x100030, [], .one, .low, ⟨0xffffffff, 0x0, 0x0, 0x0, 0x0, 0x0⟩, .same 0x0, ⟨0xffffffff, 0x0, 0x0⟩⟩,
  ⟨0x100034, [], .one, .high, ⟨0xffffffff, 0x0, 0x0, 0x0, 0x0, 0x0⟩, .same 0x0, ⟨0xffffffff, 0x0, 0x0⟩⟩,
  ⟨0x100040, [], .one, .low, ⟨0x0, 0x0, 0x0, 0x0, 0x0, 0x0⟩, .same 0x0, ⟨0x0, 0x0, 0x0⟩⟩,
  ⟨0x100044, [], .one, .high, ⟨0x0, 0x0, 0x0, 0x0, 0x0, 0x0⟩, .same 0x0, ⟨0x0, 0x0, 0x0⟩⟩,
  ⟨0x100048, [], .one, .low, ⟨0x0, 0x0, 0x0, 0x0, 0x0, 0x0⟩, .same 0x0, ⟨0x0, 0x0, 0x0⟩⟩]

def regsTime1 : List RegDesc := [
  ⟨0x10004c, [], .one, .high, ⟨0x0, 0x0, 0x0, 0x0, 0x0, 0x0⟩, .same 0x0, ⟨0x0, 0x0, 0x0⟩⟩,
  ⟨0x100050, [], .one, .one, ⟨0x0, 0x0, 0x0, 0x0, 0x0, 0x0⟩, .same 0x0, ⟨0x0, 0x0, 0x0⟩⟩,
  ⟨0x100060, [], .one, .low, ⟨0xffffffff, 0x0, 0x0, 0x0, 0x0, 0x0⟩, .same 0x0, ⟨0x0, 0x0, 0x0⟩⟩,
  ⟨0x100064, [], .one, .high, ⟨0xffffffff, 0x0, 0x0, 0x0, 0x0, 0x0⟩, .same 0x0, ⟨0x0, 0x0, 0x0⟩⟩,
  ⟨0x100070, [], .one, .one, ⟨0xffffffff, 0x0, 0x0, 0x0, 0x0, 0x0⟩, .same 0x89706, ⟨0x0, 0xffffffff, 0x0⟩⟩,
  ⟨0x100074, [], .one, .one, ⟨0xffffffff, 0x0, 0x0, 0x0, 0x0, 0x0⟩, .same 0x8970, ⟨0x0, 0xffffffff, 0x0⟩⟩,
  ⟨0x100078, [], .one, .one, ⟨0xffffffff, 0x0, 0x0, 0x0, 0x0, 0x0⟩, .same 0x3e80064, ⟨0x0, 0xffffffff, 0x0⟩⟩,
  ⟨0x10007c, [], .one, .one, ⟨0xffffffff, 0x0, 0x0, 0x0, 0x0, 0x0⟩, .same 0x3e8000a, ⟨0x0, 0xffffffff, 0x0⟩⟩,
  ⟨0x100080, [], .one, .low, ⟨0x0, 0x0, 0x0, 0x0, 0x0, 0x0⟩, .same 0x0, ⟨0x0, 0x0, 0x0⟩⟩,
  ⟨0x100084, [], .one, .high, ⟨0x0, 0x0, 0x0, 0x0, 0x0, 0x0⟩, .same 0x0, ⟨0x0, 0x0, 0x0⟩⟩,
  ⟨0x100088, [], .one, .one, ⟨0x0, 0x0, 0x0, 0x0, 0x0, 0x0⟩, .same 0x0, ⟨0x0, 0x0, 0x0⟩⟩,
  ⟨0x100090, [], .one, .one, ⟨0xf07f7, 0x0, 0x0, 0x0, 0x0, 0x0⟩, .same 0x307f0, ⟨0x0, 0xffffffff, 0x0⟩⟩,
  ⟨0x100094, [], .one, .one, ⟨0x0, 0x0, 0x0, 0x0, 0x0, 0x0⟩, .same 0x0, ⟨0x0, 0x0, 0x0⟩⟩,
  ⟨0x100098, [], .one, .low, ⟨0x0, 0x0, 0x0, 0x0, 0x0, 0x0⟩, .same 0x0, ⟨0x0, 0x0, 0x0⟩⟩,
  ⟨0x10009c, [], .one, .high, ⟨0x0, 0x0, 0x0, 0x0, 0x0, 0x0⟩, .same 0x0, ⟨0x0, 0x0, 0x0⟩⟩,
  ⟨0x1000a0, [], .one, .one, ⟨0x0, 0x0, 0x0, 0x0, 0x0, 0x0⟩, .same 0x0, ⟨0x0, 0x0, 0x0⟩⟩]

def regsTime2 : List RegDesc := [
  ⟨0x1000c0, [(2, 0x8)], .one, .one, ⟨0x0, 0x0, 0x0, 0x0, 0x0, 0x0⟩, .same 0x0, ⟨0x0, 0x0, 0x0⟩⟩,
  ⟨0x1000c4, [(2, 0x8)], .one, .one, ⟨0x0, 0x0, 0x0, 0x0, 0x0, 0x0⟩, .same 0x0, ⟨0x0, 0x0, 0x0⟩⟩,
  ⟨0x100100, [(16, 0x20)], .one, .one, ⟨0x37, 0x0, 0x0, 0x0, 0x0, 0x0⟩, .same 0x0, ⟨0x0, 0xffffffff, 0x0⟩⟩,
  ⟨0x100104, [(16, 0x20)], .one, .one, ⟨0xffffffff, 0x0, 0x0, 0x0, 0x0, 0x0⟩, .same 0x0, ⟨0x0, 0xffffffff, 0x0⟩⟩,
  ⟨0x100108, [(16, 0x20)], .one, .low, ⟨0xffffffff, 0x0, 0x0, 0x0, 0x0, 0x0⟩, .same 0x0, ⟨0x0, 0xffffffff, 0x0⟩⟩,
  ⟨0x10010c, [(16, 0x20)], .one, .high, ⟨0xffffffff, 0x0, 0x0, 0x0, 0x0, 0x0⟩, .same 0x0, ⟨0x0, 0xffffffff, 0x0⟩⟩,
  ⟨0x100110, [(16, 0x20)], .one, .one, ⟨0x0, 0x0, 0x0, 0x0, 0x0, 0x0⟩, .same 0x0, ⟨0x0, 0x0, 0x0⟩⟩,
  ⟨0x100114, [(16, 0x20)], .one, .one, ⟨0x0, 0x0, 0x0, 0x0, 0x0, 0x0⟩, .same 0x0, ⟨0x0, 0x0, 0x0⟩⟩]

/-- The registers of the range at 0x100000 (R27). -/
def regsTime : List RegDesc := regsTime0 ++ regsTime1 ++ regsTime2

/-! Run: RUN_CTL, RUN_STATUS, RUN_ERR, RUN_SPARE, RUN_PM, RUN_RAW, RUN_RAW_RATE, RUN_MARGIN, RUN_LANE, RUN_FIR, RUN_CORR, RUN_BLKERR, RUN_UNCORR, RUN_TRAINS -/

def regsRun0 : List RegDesc := [
  ⟨0x200000, [(64, 0x1000)], .runner, .one, ⟨0x2c38, 0x0, 0x1000, 0x0, 0x0, 0x0⟩, .same 0x2000, ⟨0x0, 0x2c00, 0x3bf⟩⟩,
  ⟨0x200004, [(64, 0x1000)], .runner, .one, ⟨0x0, 0x0, 0x0, 0x0, 0x0, 0x0⟩, .same 0x0, ⟨0x0, 0x0, 0x0⟩⟩,
  ⟨0x200008, [(64, 0x1000)], .runner, .one, ⟨0x0, 0x7ff, 0x0, 0x0, 0x0, 0x0⟩, .same 0x0, ⟨0x0, 0x0, 0x0⟩⟩,
  ⟨0x20000c, [(64, 0x1000)], .runner, .one, ⟨0xffff, 0x0, 0x0, 0x0, 0x0, 0x0⟩, .same 0x6440, ⟨0xffff0000, 0xffff, 0x0⟩⟩,
  ⟨0x200010, [(64, 0x1000)], .runner, .one, ⟨0xffff, 0x0, 0x0, 0x0, 0x0, 0x0⟩, .same 0x3e8, ⟨0x0, 0xffffffff, 0x0⟩⟩,
  ⟨0x200014, [(64, 0x1000)], .runner, .one, ⟨0x0, 0x0, 0x0, 0x0, 0x0, 0x0⟩, .same 0x0, ⟨0x0, 0x0, 0xffffffff⟩⟩,
  ⟨0x200018, [(64, 0x1000)], .runner, .one, ⟨0x0, 0x0, 0x0, 0x0, 0x0, 0x0⟩, .same 0x0, ⟨0x0, 0x0, 0x0⟩⟩,
  ⟨0x20001c, [(64, 0x1000)], .runner, .one, ⟨0x3f3f, 0x0, 0x0, 0x0, 0x0, 0x0⟩, .same 0xa0c, ⟨0x0, 0xffffffff, 0x0⟩⟩,
  ⟨0x200040, [(64, 0x1000), (10, 0x4)], .runner, .one, ⟨0x0, 0x0, 0x0, 0x0, 0x0, 0x0⟩, .same 0x0, ⟨0x0, 0x0, 0x0⟩⟩,
  ⟨0x200080, [(64, 0x1000), (9, 0x4)], .runner, .one, ⟨0x0, 0x0, 0x0, 0x0, 0x0, 0x0⟩, .same 0x3f00, ⟨0x0, 0xffffffff, 0x0⟩⟩,
  ⟨0x2000c0, [(64, 0x1000), (9, 0x4)], .runner, .one, ⟨0x0, 0x0, 0x0, 0x0, 0x0, 0x0⟩, .same 0x0, ⟨0x0, 0x0, 0x0⟩⟩,
  ⟨0x200100, [(64, 0x1000), (9, 0x4)], .runner, .one, ⟨0x0, 0x0, 0x0, 0x0, 0x0, 0x0⟩, .same 0x0, ⟨0x0, 0x0, 0x0⟩⟩,
  ⟨0x200140, [(64, 0x1000)], .runner, .one, ⟨0x0, 0x0, 0x0, 0x0, 0x0, 0x0⟩, .same 0x0, ⟨0x0, 0x0, 0x0⟩⟩,
  ⟨0x200144, [(64, 0x1000)], .runner, .one, ⟨0x0, 0x0, 0x0, 0x0, 0x0, 0x0⟩, .same 0x0, ⟨0x0, 0x0, 0x0⟩⟩]

/-- The registers of the range at 0x200000 (R27). -/
def regsRun : List RegDesc := regsRun0

/-! Ing: ING_FLAG_MAP, ING_PORT_CTL, ING_PORT_CFG, ING_PORT_GEOM, ING_PORT_PRUNE_H, ING_PORT_PRUNE_V, ING_PORT_PAD, ING_PORT_STAMP_ADJ, ING_PORT_TIMEOUT, ING_PORT_LATE, ING_PORT_STATUS, ING_PORT_FRAME, ING_PORT_ERR, ING_PORT_CNT, ING_MRG_INPUTS, ING_MRG_CTL, ING_MRG_STATUS, ING_MRG_ERR, ING_MRG_CNT -/

def regsIng0 : List RegDesc := [
  ⟨0x400000, [(2, 0x4)], .one, .one, ⟨0x0, 0x0, 0x0, 0x0, 0x0, 0x0⟩, .same 0x0, ⟨0x0, 0x0, 0x0⟩⟩,
  ⟨0x410000, [(64, 0x100)], .runner, .one, ⟨0x1, 0x0, 0x0, 0x0, 0x0, 0x0⟩, .same 0x1, ⟨0x0, 0xffffffff, 0x0⟩⟩,
  ⟨0x410004, [(64, 0x100)], .runner, .one, ⟨0x0, 0x0, 0x0, 0x0, 0x0, 0x0⟩, .same 0x0, ⟨0x0, 0x0, 0xffffffff⟩⟩,
  ⟨0x410008, [(64, 0x100)], .runner, .one, ⟨0x0, 0x0, 0x0, 0x0, 0x0, 0x0⟩, .same 0x0, ⟨0x0, 0x0, 0xffffffff⟩⟩,
  ⟨0x41000c, [(64, 0x100)], .runner, .one, ⟨0x0, 0x0, 0x0, 0xfff0fff, 0x0, 0x0⟩, .same 0x0, ⟨0x0, 0x0, 0xffffffff⟩⟩,
  ⟨0x410010, [(64, 0x100)], .runner, .one, ⟨0x0, 0x0, 0x0, 0x1fff1fff, 0x0, 0x0⟩, .same 0x0, ⟨0x0, 0x0, 0xffffffff⟩⟩,
  ⟨0x410014, [(64, 0x100)], .runner, .one, ⟨0x0, 0x0, 0x0, 0xffff, 0x0, 0x0⟩, .same 0x0, ⟨0x0, 0x0, 0xffffffff⟩⟩,
  ⟨0x410018, [(64, 0x100)], .runner, .one, ⟨0x0, 0x0, 0x0, 0xffffffff, 0x0, 0x0⟩, .same 0x0, ⟨0x0, 0x0, 0xffffffff⟩⟩,
  ⟨0x41001c, [(64, 0x100)], .runner, .one, ⟨0xffffffff, 0x0, 0x0, 0x0, 0x0, 0x0⟩, .same 0x0, ⟨0x0, 0x0, 0xffffffff⟩⟩,
  ⟨0x410020, [(64, 0x100)], .runner, .one, ⟨0xffffffff, 0x0, 0x0, 0x0, 0x0, 0x0⟩, .same 0x0, ⟨0x0, 0x0, 0xffffffff⟩⟩,
  ⟨0x410024, [(64, 0x100)], .runner, .one, ⟨0x0, 0x0, 0x0, 0x0, 0x0, 0x0⟩, .same 0x0, ⟨0x0, 0x0, 0x0⟩⟩,
  ⟨0x410028, [(64, 0x100)], .runner, .one, ⟨0x0, 0x0, 0x0, 0x0, 0x0, 0x0⟩, .same 0x0, ⟨0x0, 0xffffffff, 0x0⟩⟩,
  ⟨0x41002c, [(64, 0x100)], .runner, .one, ⟨0x0, 0x7ff, 0x0, 0x0, 0x0, 0x0⟩, .same 0x0, ⟨0x0, 0x0, 0x0⟩⟩,
  ⟨0x410030, [(64, 0x100), (9, 0x4)], .runner, .one, ⟨0x0, 0x0, 0x0, 0x0, 0x0, 0x0⟩, .same 0x0, ⟨0x0, 0x0, 0x0⟩⟩,
  ⟨0x420000, [(32, 0x40)], .merger, .low, ⟨0x0, 0x0, 0x0, 0x0, 0x0, 0x0⟩, .same 0x0, ⟨0x0, 0x0, 0xffffffff⟩⟩,
  ⟨0x420004, [(32, 0x40)], .merger, .high, ⟨0x0, 0x0, 0x0, 0x0, 0x0, 0x0⟩, .same 0x0, ⟨0x0, 0x0, 0xffffffff⟩⟩]

def regsIng1 : List RegDesc := [
  ⟨0x420008, [(32, 0x40)], .merger, .one, ⟨0x1, 0x0, 0x0, 0x0, 0x0, 0x0⟩, .same 0x1, ⟨0x0, 0xffffffff, 0x0⟩⟩,
  ⟨0x42000c, [(32, 0x40)], .merger, .one, ⟨0x0, 0x0, 0x0, 0x0, 0x0, 0x0⟩, .same 0x0, ⟨0x0, 0x0, 0x0⟩⟩,
  ⟨0x420010, [(32, 0x40)], .merger, .one, ⟨0x0, 0x1f, 0x0, 0x0, 0x0, 0x0⟩, .same 0x0, ⟨0x0, 0x0, 0x0⟩⟩,
  ⟨0x420014, [(32, 0x40), (4, 0x4)], .merger, .one, ⟨0x0, 0x0, 0x0, 0x0, 0x0, 0x0⟩, .same 0x0, ⟨0x0, 0x0, 0x0⟩⟩]

/-- The registers of the range at 0x400000 (R27). -/
def regsIng : List RegDesc := regsIng0 ++ regsIng1

/-! Bed: BED_LIN_PTR, BED_COL_PTR, BED_ROW_PTR, BED_DARK_PTR, BED_DEFECT_PTR, BED_MESH_PTR, BED_LUT3D_PTR, BED_SCL_PTR, BED_CFG, BED_STRIPE, BED_CTL, BED_STATUS, BED_ERR, BED_CNT, BED_LOAD, BED_TAP, BED_SHADOW, BED_SENSOR, BED_BLACK, BED_DARK_GAIN, BED_OB, BED_DEFECT_CNT, BED_DYN, BED_FLK, BED_CROP_X, BED_CROP_Y, BED_DMS, BED_LUT_CTL, BED_CCM, BED_ENC_CTL, BED_ENC_PARAM, BED_ENC_MTX, BED_SCL_SIZE, BED_OB_MEAS, BED_FLK_RPT, BED_FLK_FRAME -/

def regsBed0 : List RegDesc := [
  ⟨0x801008, [(16, 0x10000), (8, 0x400)], .bed, .low, ⟨0x0, 0x0, 0x0, 0xffffff01, 0x0, 0x0⟩, .same 0x0, ⟨0x0, 0xffffffff, 0x0⟩⟩,
  ⟨0x80100c, [(16, 0x10000), (8, 0x400)], .bed, .high, ⟨0x0, 0x0, 0x0, 0x1f, 0x0, 0x0⟩, .same 0x0, ⟨0x0, 0xffffffff, 0x0⟩⟩,
  ⟨0x801010, [(16, 0x10000), (8, 0x400)], .bed, .low, ⟨0x0, 0x0, 0x0, 0xffffff01, 0x0, 0x0⟩, .same 0x0, ⟨0x0, 0xffffffff, 0x0⟩⟩,
  ⟨0x801014, [(16, 0x10000), (8, 0x400)], .bed, .high, ⟨0x0, 0x0, 0x0, 0x1f, 0x0, 0x0⟩, .same 0x0, ⟨0x0, 0xffffffff, 0x0⟩⟩,
  ⟨0x801018, [(16, 0x10000), (8, 0x400)], .bed, .low, ⟨0x0, 0x0, 0x0, 0xffffff01, 0x0, 0x0⟩, .same 0x0, ⟨0x0, 0xffffffff, 0x0⟩⟩,
  ⟨0x80101c, [(16, 0x10000), (8, 0x400)], .bed, .high, ⟨0x0, 0x0, 0x0, 0x1f, 0x0, 0x0⟩, .same 0x0, ⟨0x0, 0xffffffff, 0x0⟩⟩,
  ⟨0x801020, [(16, 0x10000), (8, 0x400)], .bed, .low, ⟨0x0, 0x0, 0x0, 0xffffff01, 0x0, 0x0⟩, .same 0x0, ⟨0x0, 0xffffffff, 0x0⟩⟩,
  ⟨0x801024, [(16, 0x10000), (8, 0x400)], .bed, .high, ⟨0x0, 0x0, 0x0, 0x1f, 0x0, 0x0⟩, .same 0x0, ⟨0x0, 0xffffffff, 0x0⟩⟩,
  ⟨0x801028, [(16, 0x10000), (8, 0x400)], .bed, .low, ⟨0x0, 0x0, 0x0, 0xffffff01, 0x0, 0x0⟩, .same 0x0, ⟨0x0, 0xffffffff, 0x0⟩⟩,
  ⟨0x80102c, [(16, 0x10000), (8, 0x400)], .bed, .high, ⟨0x0, 0x0, 0x0, 0x1f, 0x0, 0x0⟩, .same 0x0, ⟨0x0, 0xffffffff, 0x0⟩⟩,
  ⟨0x801030, [(16, 0x10000), (8, 0x400)], .bed, .low, ⟨0x0, 0x0, 0x0, 0xffffff01, 0x0, 0x0⟩, .same 0x0, ⟨0x0, 0xffffffff, 0x0⟩⟩,
  ⟨0x801034, [(16, 0x10000), (8, 0x400)], .bed, .high, ⟨0x0, 0x0, 0x0, 0x1f, 0x0, 0x0⟩, .same 0x0, ⟨0x0, 0xffffffff, 0x0⟩⟩,
  ⟨0x801038, [(16, 0x10000), (8, 0x400)], .bed, .low, ⟨0x0, 0x0, 0x0, 0xffffff01, 0x0, 0x0⟩, .same 0x0, ⟨0x0, 0xffffffff, 0x0⟩⟩,
  ⟨0x80103c, [(16, 0x10000), (8, 0x400)], .bed, .high, ⟨0x0, 0x0, 0x0, 0x1f, 0x0, 0x0⟩, .same 0x0, ⟨0x0, 0xffffffff, 0x0⟩⟩,
  ⟨0x801040, [(16, 0x10000), (8, 0x400)], .bed, .low, ⟨0x0, 0x0, 0x0, 0xffffff01, 0x0, 0x0⟩, .same 0x0, ⟨0x0, 0xffffffff, 0x0⟩⟩,
  ⟨0x801044, [(16, 0x10000), (8, 0x400)], .bed, .high, ⟨0x0, 0x0, 0x0, 0x1f, 0x0, 0x0⟩, .same 0x0, ⟨0x0, 0xffffffff, 0x0⟩⟩]

def regsBed1 : List RegDesc := [
  ⟨0x800000, [(16, 0x10000)], .bed, .one, ⟨0x0, 0x0, 0x0, 0x0, 0x0, 0x0⟩, .same 0x0, ⟨0x0, 0x0, 0xffffffff⟩⟩,
  ⟨0x800004, [(16, 0x10000)], .bed, .one, ⟨0x0, 0x0, 0x0, 0x0, 0x0, 0x0⟩, .same 0x0, ⟨0x0, 0x0, 0xffffffff⟩⟩,
  ⟨0x800008, [(16, 0x10000)], .bed, .one, ⟨0xf, 0x0, 0x0, 0x0, 0x0, 0x0⟩, .same 0xf, ⟨0x0, 0xffffffff, 0x0⟩⟩,
  ⟨0x80000c, [(16, 0x10000)], .bed, .one, ⟨0x0, 0x0, 0x0, 0x0, 0x0, 0x0⟩, .same 0x0, ⟨0x0, 0x0, 0x0⟩⟩,
  ⟨0x800010, [(16, 0x10000)], .bed, .one, ⟨0x0, 0x7ff, 0x0, 0x0, 0x0, 0x0⟩, .same 0x0, ⟨0x0, 0x0, 0x0⟩⟩,
  ⟨0x800014, [(16, 0x10000), (6, 0x4)], .bed, .one, ⟨0x0, 0x0, 0x0, 0x0, 0x0, 0x0⟩, .same 0x0, ⟨0x0, 0x0, 0x0⟩⟩,
  ⟨0x800030, [(16, 0x10000)], .bed, .one, ⟨0x0, 0x0, 0x0, 0x0, 0x0, 0x0⟩, .same 0x0, ⟨0x0, 0x0, 0xffffffff⟩⟩,
  ⟨0x800040, [(16, 0x10000), (3, 0x4)], .bed, .one, ⟨0x0, 0x0, 0x0, 0x0, 0x0, 0x0⟩, .same 0x0, ⟨0x0, 0x0, 0xffffffff⟩⟩,
  ⟨0x801000, [(16, 0x10000), (8, 0x400)], .bed, .one, ⟨0x1, 0x0, 0x0, 0x0, 0x0, 0x0⟩, .same 0x0, ⟨0x0, 0xffffffff, 0x0⟩⟩,
  ⟨0x801004, [(16, 0x10000), (8, 0x400)], .bed, .one, ⟨0x0, 0x0, 0x0, 0x0, 0x0, 0x0⟩, .same 0x0, ⟨0x0, 0x0, 0xffffffff⟩⟩,
  ⟨0x801048, [(16, 0x10000), (8, 0x400), (4, 0x4)], .bed, .one, ⟨0x0, 0x0, 0x0, 0xfffff, 0x0, 0x0⟩, .same 0x0, ⟨0x0, 0xffffffff, 0x0⟩⟩,
  ⟨0x801058, [(16, 0x10000), (8, 0x400)], .bed, .one, ⟨0x0, 0x0, 0x0, 0xffff, 0x0, 0x0⟩, .same 0x4000, ⟨0x0, 0xffffffff, 0x0⟩⟩,
  ⟨0x80105c, [(16, 0x10000), (8, 0x400)], .bed, .one, ⟨0x0, 0x0, 0x0, 0x3ffffff, 0x0, 0x0⟩, .same 0x1000000, ⟨0x0, 0xffffffff, 0x0⟩⟩,
  ⟨0x801060, [(16, 0x10000), (8, 0x400)], .bed, .one, ⟨0x0, 0x0, 0x0, 0x1ffff, 0x0, 0x0⟩, .same 0x0, ⟨0x0, 0xffffffff, 0x0⟩⟩,
  ⟨0x801064, [(16, 0x10000), (8, 0x400)], .bed, .one, ⟨0x0, 0x0, 0x0, 0xffffff, 0x0, 0x0⟩, .same 0x0, ⟨0x0, 0xffffffff, 0x0⟩⟩,
  ⟨0x801068, [(16, 0x10000), (8, 0x400)], .bed, .one, ⟨0x0, 0x0, 0x0, 0x1fffff, 0x0, 0x0⟩, .same 0x51e0, ⟨0x0, 0xffffffff, 0x0⟩⟩]

def regsBed2 : List RegDesc := [
  ⟨0x80106c, [(16, 0x10000), (8, 0x400)], .bed, .one, ⟨0x0, 0x0, 0x0, 0xffffffff, 0x0, 0x0⟩, .same 0x0, ⟨0x0, 0xffffffff, 0x0⟩⟩,
  ⟨0x801070, [(16, 0x10000), (8, 0x400)], .bed, .one, ⟨0x0, 0x0, 0x0, 0xffffffff, 0x0, 0x0⟩, .same 0x0, ⟨0x0, 0xffffffff, 0x0⟩⟩,
  ⟨0x801074, [(16, 0x10000), (8, 0x400)], .bed, .one, ⟨0x0, 0x0, 0x0, 0xffffffff, 0x0, 0x0⟩, .same 0x40008c, ⟨0x0, 0xffffffff, 0x0⟩⟩,
  ⟨0x801078, [(16, 0x10000), (8, 0x400)], .bed, .one, ⟨0x0, 0x0, 0x0, 0x1, 0x0, 0x0⟩, .same 0x0, ⟨0x0, 0xffffffff, 0x0⟩⟩,
  ⟨0x801080, [(16, 0x10000), (8, 0x400)], .bed, .one, ⟨0x0, 0x0, 0x0, 0xffffff, 0x0, 0x0⟩, .same 0x200000, ⟨0x0, 0xffffffff, 0x0⟩⟩,
  ⟨0x801084, [(16, 0x10000), (8, 0x400)], .bed, .one, ⟨0x0, 0x0, 0x0, 0xffffff, 0x0, 0x0⟩, .same 0x0, ⟨0x0, 0xffffffff, 0x0⟩⟩,
  ⟨0x801088, [(16, 0x10000), (8, 0x400)], .bed, .one, ⟨0x0, 0x0, 0x0, 0xffffff, 0x0, 0x0⟩, .same 0x0, ⟨0x0, 0xffffffff, 0x0⟩⟩,
  ⟨0x80108c, [(16, 0x10000), (8, 0x400)], .bed, .one, ⟨0x0, 0x0, 0x0, 0xffffff, 0x0, 0x0⟩, .same 0x0, ⟨0x0, 0xffffffff, 0x0⟩⟩,
  ⟨0x801090, [(16, 0x10000), (8, 0x400)], .bed, .one, ⟨0x0, 0x0, 0x0, 0xffffff, 0x0, 0x0⟩, .same 0x0, ⟨0x0, 0xffffffff, 0x0⟩⟩,
  ⟨0x801094, [(16, 0x10000), (8, 0x400)], .bed, .one, ⟨0x0, 0x0, 0x0, 0xffffff, 0x0, 0x0⟩, .same 0x200000, ⟨0x0, 0xffffffff, 0x0⟩⟩,
  ⟨0x801098, [(16, 0x10000), (8, 0x400)], .bed, .one, ⟨0x0, 0x0, 0x0, 0xffffff, 0x0, 0x0⟩, .same 0x0, ⟨0x0, 0xffffffff, 0x0⟩⟩,
  ⟨0x80109c, [(16, 0x10000), (8, 0x400)], .bed, .one, ⟨0x0, 0x0, 0x0, 0xffffff, 0x0, 0x0⟩, .same 0x0, ⟨0x0, 0xffffffff, 0x0⟩⟩,
  ⟨0x8010a0, [(16, 0x10000), (8, 0x400)], .bed, .one, ⟨0x0, 0x0, 0x0, 0xffffff, 0x0, 0x0⟩, .same 0x0, ⟨0x0, 0xffffffff, 0x0⟩⟩,
  ⟨0x8010a4, [(16, 0x10000), (8, 0x400)], .bed, .one, ⟨0x0, 0x0, 0x0, 0xffffff, 0x0, 0x0⟩, .same 0x0, ⟨0x0, 0xffffffff, 0x0⟩⟩,
  ⟨0x8010a8, [(16, 0x10000), (8, 0x400)], .bed, .one, ⟨0x0, 0x0, 0x0, 0xffffff, 0x0, 0x0⟩, .same 0x200000, ⟨0x0, 0xffffffff, 0x0⟩⟩,
  ⟨0x8010ac, [(16, 0x10000), (8, 0x400)], .bed, .one, ⟨0x0, 0x0, 0x0, 0xffffff, 0x0, 0x0⟩, .same 0x0, ⟨0x0, 0xffffffff, 0x0⟩⟩]

def regsBed3 : List RegDesc := [
  ⟨0x8010c0, [(16, 0x10000), (8, 0x400)], .bed, .one, ⟨0x0, 0x0, 0x0, 0x3ff, 0x0, 0x0⟩, .same 0x9, ⟨0x0, 0xffffffff, 0x0⟩⟩,
  ⟨0x801100, [(16, 0x10000), (8, 0x400)], .bed, .one, ⟨0x0, 0x0, 0x0, 0x3ff, 0x0, 0x0⟩, .same 0xc4, ⟨0x0, 0xffffffff, 0x0⟩⟩,
  ⟨0x8010c4, [(16, 0x10000), (8, 0x400), (2, 0x40)], .bed, .one, ⟨0x0, 0x0, 0x0, 0xffffffff, 0x0, 0x0⟩, .same 0x10000064, ⟨0x0, 0xffffffff, 0x0⟩⟩,
  ⟨0x8010c8, [(16, 0x10000), (8, 0x400), (2, 0x40)], .bed, .one, ⟨0x0, 0x0, 0x0, 0xffffff, 0x0, 0x0⟩, .same 0x200000, ⟨0x0, 0xffffffff, 0x0⟩⟩,
  ⟨0x8010cc, [(16, 0x10000), (8, 0x400), (2, 0x40)], .bed, .one, ⟨0x0, 0x0, 0x0, 0xffffff, 0x0, 0x0⟩, .same 0x0, ⟨0x0, 0xffffffff, 0x0⟩⟩,
  ⟨0x8010d0, [(16, 0x10000), (8, 0x400), (2, 0x40)], .bed, .one, ⟨0x0, 0x0, 0x0, 0xffffff, 0x0, 0x0⟩, .same 0x0, ⟨0x0, 0xffffffff, 0x0⟩⟩,
  ⟨0x8010d4, [(16, 0x10000), (8, 0x400), (2, 0x40)], .bed, .one, ⟨0x0, 0x0, 0x0, 0xffffff, 0x0, 0x0⟩, .same 0x0, ⟨0x0, 0xffffffff, 0x0⟩⟩,
  ⟨0x8010d8, [(16, 0x10000), (8, 0x400), (2, 0x40)], .bed, .one, ⟨0x0, 0x0, 0x0, 0xffffff, 0x0, 0x0⟩, .same 0x200000, ⟨0x0, 0xffffffff, 0x0⟩⟩,
  ⟨0x8010dc, [(16, 0x10000), (8, 0x400), (2, 0x40)], .bed, .one, ⟨0x0, 0x0, 0x0, 0xffffff, 0x0, 0x0⟩, .same 0x0, ⟨0x0, 0xffffffff, 0x0⟩⟩,
  ⟨0x8010e0, [(16, 0x10000), (8, 0x400), (2, 0x40)], .bed, .one, ⟨0x0, 0x0, 0x0, 0xffffff, 0x0, 0x0⟩, .same 0x0, ⟨0x0, 0xffffffff, 0x0⟩⟩,
  ⟨0x8010e4, [(16, 0x10000), (8, 0x400), (2, 0x40)], .bed, .one, ⟨0x0, 0x0, 0x0, 0xffffff, 0x0, 0x0⟩, .same 0x0, ⟨0x0, 0xffffffff, 0x0⟩⟩,
  ⟨0x8010e8, [(16, 0x10000), (8, 0x400), (2, 0x40)], .bed, .one, ⟨0x0, 0x0, 0x0, 0xffffff, 0x0, 0x0⟩, .same 0x200000, ⟨0x0, 0xffffffff, 0x0⟩⟩,
  ⟨0x801140, [(16, 0x10000), (8, 0x400)], .bed, .one, ⟨0x0, 0x0, 0x0, 0xffffffff, 0x0, 0x0⟩, .same 0x0, ⟨0x0, 0xffffffff, 0x0⟩⟩,
  ⟨0x801144, [(16, 0x10000), (8, 0x400), (4, 0x4)], .bed, .one, ⟨0x0, 0x0, 0x0, 0x0, 0x0, 0x0⟩, .same 0x0, ⟨0x0, 0x0, 0x0⟩⟩,
  ⟨0x801160, [(16, 0x10000), (8, 0x400), (3, 0x8)], .bed, .low, ⟨0x0, 0x0, 0x0, 0x0, 0x0, 0x0⟩, .same 0x0, ⟨0x0, 0x0, 0x0⟩⟩,
  ⟨0x801164, [(16, 0x10000), (8, 0x400), (3, 0x8)], .bed, .high, ⟨0x0, 0x0, 0x0, 0x0, 0x0, 0x0⟩, .same 0x0, ⟨0x0, 0x0, 0x0⟩⟩]

def regsBed4 : List RegDesc := [
  ⟨0x801178, [(16, 0x10000), (8, 0x400)], .bed, .one, ⟨0x0, 0x0, 0x0, 0x0, 0x0, 0x0⟩, .same 0x0, ⟨0x0, 0x0, 0x0⟩⟩]

/-- The registers of the range at 0x800000 (R27). -/
def regsBed : List RegDesc := regsBed0 ++ regsBed1 ++ regsBed2 ++ regsBed3 ++ regsBed4

/-! Pe: PE_POOL, PE_STATUS, PE_ERR, PE_SPARE, PE_CNT, PE_TILE_MAX, PE_SPLICE_STATUS, PE_SPLICE_PARAM -/

def regsPe0 : List RegDesc := [
  ⟨0xc00000, [], .one, .one, ⟨0x0, 0x0, 0x0, 0x0, 0x0, 0x0⟩, .per 0x44 0x22 0x11, ⟨0xffff, 0x0, 0x0⟩⟩,
  ⟨0xc10000, [(68, 0x100)], .pe, .one, ⟨0x0, 0x0, 0x0, 0x0, 0x0, 0x0⟩, .same 0x0, ⟨0x0, 0x0, 0x0⟩⟩,
  ⟨0xc10004, [(68, 0x100)], .pe, .one, ⟨0x0, 0x7f, 0x0, 0x0, 0x0, 0x0⟩, .same 0x0, ⟨0x0, 0x0, 0x0⟩⟩,
  ⟨0xc10008, [(68, 0x100)], .pe, .one, ⟨0xffffff, 0x0, 0x0, 0x0, 0x0, 0x0⟩, .same 0x3e820, ⟨0xff000000, 0xffffff, 0x0⟩⟩,
  ⟨0xc1000c, [(68, 0x100), (5, 0x4)], .pe, .one, ⟨0x0, 0x0, 0x0, 0x0, 0x0, 0x0⟩, .same 0x0, ⟨0x0, 0x0, 0x0⟩⟩,
  ⟨0xc10020, [(68, 0x100)], .pe, .one, ⟨0x0, 0x0, 0x0, 0x0, 0x0, 0x0⟩, .same 0x0, ⟨0x0, 0x0, 0x0⟩⟩,
  ⟨0xc20000, [(32, 0x400)], .splice, .one, ⟨0x0, 0x0, 0x0, 0x0, 0x0, 0x0⟩, .same 0x0, ⟨0x0, 0x0, 0xffff7⟩⟩,
  ⟨0xc20100, [(32, 0x400), (8, 0x40), (16, 0x4)], .splice, .one, ⟨0x0, 0x0, 0x0, 0xffffffff, 0x0, 0x0⟩, .same 0x0, ⟨0x0, 0xffffffff, 0x0⟩⟩]

/-- The registers of the range at 0xc00000 (R27). -/
def regsPe : List RegDesc := regsPe0

/-! Se: SE_CTL, SE_STATUS, SE_LOAD, SE_SWITCHES, SE_CTX_CFG, SE_CTX_KEY, SE_CTX_RC, SE_CTX_CAP, SE_CTX_VBV, SE_CTX_PIC, SE_CTX_SIZE, SE_CTX_STATUS, SE_CTX_ERR, SE_CTX_CNT -/

def regsSe0 : List RegDesc := [
  ⟨0x1010000, [(16, 0x1000)], .bed, .one, ⟨0x1, 0x0, 0x0, 0x0, 0x0, 0x0⟩, .same 0x1, ⟨0x0, 0xffffffff, 0x0⟩⟩,
  ⟨0x1010004, [(16, 0x1000)], .bed, .one, ⟨0x0, 0x0, 0x0, 0x0, 0x0, 0x0⟩, .same 0x0, ⟨0x0, 0x0, 0xff⟩⟩,
  ⟨0x1010008, [(16, 0x1000)], .bed, .one, ⟨0x0, 0x0, 0x0, 0x0, 0x0, 0x0⟩, .same 0x0, ⟨0x0, 0x0, 0xffffffff⟩⟩,
  ⟨0x101000c, [(16, 0x1000)], .bed, .one, ⟨0x0, 0x0, 0x0, 0x0, 0x0, 0x0⟩, .same 0x0, ⟨0x0, 0x0, 0x0⟩⟩,
  ⟨0x1010100, [(16, 0x1000), (8, 0x80)], .bed, .one, ⟨0x0, 0x0, 0x0, 0x0, 0x0, 0x0⟩, .same 0x0, ⟨0x0, 0x0, 0xffffffff⟩⟩,
  ⟨0x1010104, [(16, 0x1000), (8, 0x80)], .bed, .one, ⟨0x0, 0x0, 0x3, 0x0, 0x0, 0x0⟩, .same 0x0, ⟨0x0, 0x0, 0x0⟩⟩,
  ⟨0x1010108, [(16, 0x1000), (8, 0x80)], .bed, .one, ⟨0x0, 0x0, 0x0, 0x3f3f, 0x0, 0x0⟩, .same 0x0, ⟨0x0, 0xffffffff, 0x0⟩⟩,
  ⟨0x101010c, [(16, 0x1000), (8, 0x80)], .bed, .one, ⟨0x0, 0x0, 0x0, 0xffffffff, 0x0, 0x0⟩, .same 0x0, ⟨0x0, 0xffffffff, 0x0⟩⟩,
  ⟨0x1010110, [(16, 0x1000), (8, 0x80)], .bed, .one, ⟨0x0, 0x0, 0x0, 0x0, 0x0, 0x0⟩, .same 0x0, ⟨0x0, 0x0, 0x0⟩⟩,
  ⟨0x1010114, [(16, 0x1000), (8, 0x80)], .bed, .one, ⟨0x0, 0x0, 0x0, 0x0, 0x0, 0x0⟩, .same 0x0, ⟨0x0, 0x0, 0x0⟩⟩,
  ⟨0x1010118, [(16, 0x1000), (8, 0x80)], .bed, .one, ⟨0x0, 0x0, 0x0, 0x0, 0x0, 0x0⟩, .same 0x0, ⟨0x0, 0x0, 0x0⟩⟩,
  ⟨0x101011c, [(16, 0x1000), (8, 0x80)], .bed, .one, ⟨0x0, 0x0, 0x0, 0x0, 0x0, 0x0⟩, .same 0x0, ⟨0x0, 0x0, 0x0⟩⟩,
  ⟨0x1010120, [(16, 0x1000), (8, 0x80)], .bed, .one, ⟨0x0, 0x1ff, 0x0, 0x0, 0x0, 0x0⟩, .same 0x0, ⟨0x0, 0x0, 0x0⟩⟩,
  ⟨0x1010124, [(16, 0x1000), (8, 0x80), (9, 0x4)], .bed, .one, ⟨0x0, 0x0, 0x0, 0x0, 0x0, 0x0⟩, .same 0x0, ⟨0x0, 0x0, 0x0⟩⟩]

/-- The registers of the range at 0x1000000 (R27). -/
def regsSe : List RegDesc := regsSe0

/-! Head: HEAD_GROUP_COMMIT, HEAD_CTL, HEAD_COMMIT, HEAD_STATUS, HEAD_FRAME, HEAD_FRAME_STAMP, HEAD_ERR, HEAD_CNT, HEAD_BG, HEAD_PLANE_CTL, HEAD_PLANE_ADDR, HEAD_PLANE_STRIDE, HEAD_PLANE_SRC, HEAD_PLANE_SIZE, HEAD_PLANE_DST, HEAD_CRC_XY, HEAD_CRC_WH, HEAD_CRC_EXPECT, HEAD_CRC_RESULT, HEAD_CRC_FLAGS, HEAD_CRC_CNT -/

def regsHead0 : List RegDesc := [
  ⟨0x1400000, [(4, 0x10)], .one, .one, ⟨0x0, 0x0, 0x1, 0x0, 0x0, 0x0⟩, .same 0x0, ⟨0x0, 0x0, 0x0⟩⟩,
  ⟨0x1410000, [(8, 0x1000)], .head, .one, ⟨0xff, 0x0, 0x0, 0x0, 0x0, 0x0⟩, .same 0x0, ⟨0x0, 0x0, 0xffffffff⟩⟩,
  ⟨0x1410004, [(8, 0x1000)], .head, .one, ⟨0x0, 0x0, 0x1, 0x0, 0x0, 0x0⟩, .same 0x0, ⟨0x0, 0x0, 0x0⟩⟩,
  ⟨0x1410008, [(8, 0x1000)], .head, .one, ⟨0x0, 0x0, 0x0, 0x0, 0x0, 0x0⟩, .same 0x0, ⟨0x0, 0x0, 0x0⟩⟩,
  ⟨0x141000c, [(8, 0x1000)], .head, .one, ⟨0x0, 0x0, 0x0, 0x0, 0x0, 0x0⟩, .same 0x0, ⟨0x0, 0x0, 0x0⟩⟩,
  ⟨0x1410010, [(8, 0x1000)], .head, .low, ⟨0x0, 0x0, 0x0, 0x0, 0x0, 0x0⟩, .same 0x0, ⟨0x0, 0x0, 0x0⟩⟩,
  ⟨0x1410014, [(8, 0x1000)], .head, .high, ⟨0x0, 0x0, 0x0, 0x0, 0x0, 0x0⟩, .same 0x0, ⟨0x0, 0x0, 0x0⟩⟩,
  ⟨0x1410018, [(8, 0x1000)], .head, .one, ⟨0x0, 0x7f, 0x0, 0x0, 0x0, 0x0⟩, .same 0x0, ⟨0x0, 0x0, 0x0⟩⟩,
  ⟨0x1410020, [(8, 0x1000), (7, 0x4)], .head, .one, ⟨0x0, 0x0, 0x0, 0x0, 0x0, 0x0⟩, .same 0x0, ⟨0x0, 0x0, 0x0⟩⟩,
  ⟨0x1410040, [(8, 0x1000), (3, 0x4)], .head, .one, ⟨0x0, 0x0, 0x0, 0x0, 0xffff, 0x0⟩, .same 0x0, ⟨0x0, 0x0, 0xffffffff⟩⟩,
  ⟨0x1410100, [(8, 0x1000), (4, 0x20)], .head, .one, ⟨0x0, 0x0, 0x0, 0x0, 0xff10, 0x0⟩, .same 0x0, ⟨0x0, 0x0, 0xffffffff⟩⟩,
  ⟨0x1410104, [(8, 0x1000), (4, 0x20)], .head, .low, ⟨0x0, 0x0, 0x0, 0x0, 0xffffffff, 0x0⟩, .same 0x0, ⟨0x0, 0x0, 0xffffffff⟩⟩,
  ⟨0x1410108, [(8, 0x1000), (4, 0x20)], .head, .high, ⟨0x0, 0x0, 0x0, 0x0, 0xffffffff, 0x0⟩, .same 0x0, ⟨0x0, 0x0, 0xffffffff⟩⟩,
  ⟨0x141010c, [(8, 0x1000), (4, 0x20)], .head, .one, ⟨0x0, 0x0, 0x0, 0x0, 0xffffffff, 0x0⟩, .same 0x0, ⟨0x0, 0x0, 0xffffffff⟩⟩,
  ⟨0x1410110, [(8, 0x1000), (4, 0x20)], .head, .one, ⟨0x0, 0x0, 0x0, 0x0, 0xffffffff, 0x0⟩, .same 0x0, ⟨0x0, 0x0, 0xffffffff⟩⟩,
  ⟨0x1410114, [(8, 0x1000), (4, 0x20)], .head, .one, ⟨0x0, 0x0, 0x0, 0x0, 0xffffffff, 0x0⟩, .same 0x0, ⟨0x0, 0x0, 0xffffffff⟩⟩]

def regsHead1 : List RegDesc := [
  ⟨0x1410118, [(8, 0x1000), (4, 0x20)], .head, .one, ⟨0x0, 0x0, 0x0, 0x0, 0xffffffff, 0x0⟩, .same 0x0, ⟨0x0, 0x0, 0xffffffff⟩⟩,
  ⟨0x1410200, [(8, 0x1000), (16, 0x10)], .head, .one, ⟨0x0, 0x0, 0x0, 0x0, 0xffffffff, 0x0⟩, .same 0x0, ⟨0x0, 0xffffffff, 0x0⟩⟩,
  ⟨0x1410204, [(8, 0x1000), (16, 0x10)], .head, .one, ⟨0x0, 0x0, 0x0, 0x0, 0xffffffff, 0x0⟩, .same 0x0, ⟨0x0, 0xffffffff, 0x0⟩⟩,
  ⟨0x1410208, [(8, 0x1000), (16, 0x10)], .head, .one, ⟨0x0, 0x0, 0x0, 0x0, 0xffffffff, 0x0⟩, .same 0x0, ⟨0x0, 0xffffffff, 0x0⟩⟩,
  ⟨0x141020c, [(8, 0x1000), (16, 0x10)], .head, .one, ⟨0x0, 0x0, 0x0, 0x0, 0x0, 0x0⟩, .same 0x0, ⟨0x0, 0x0, 0x0⟩⟩,
  ⟨0x1410300, [(8, 0x1000)], .head, .one, ⟨0x0, 0xffff, 0x0, 0x0, 0x0, 0x0⟩, .same 0x0, ⟨0x0, 0x0, 0x0⟩⟩,
  ⟨0x1410340, [(8, 0x1000), (16, 0x4)], .head, .one, ⟨0x0, 0x0, 0x0, 0x0, 0x0, 0x0⟩, .same 0x0, ⟨0x0, 0x0, 0x0⟩⟩]

/-- The registers of the range at 0x1400000 (R27). -/
def regsHead : List RegDesc := regsHead0 ++ regsHead1

/-! Mem: MEM_CTL, MEM_WM, MEM_PANIC, MEM_ROW, MEM_RESERVE, MEM_ERR, MEM_CLASS_PANICS, MEM_CLASS_DROPS, MEM_STK_STATUS, MEM_STK_ERR, MEM_PC_STATE, MEM_PC_CORR, MEM_PC_UNCORR, MEM_PC_SCRUB -/

def regsMem0 : List RegDesc := [
  ⟨0x1800000, [], .one, .one, ⟨0x1ffffff, 0x0, 0x0, 0x0, 0x0, 0x0⟩, .same 0x10107d0, ⟨0x0, 0xffffffff, 0x0⟩⟩,
  ⟨0x1800004, [], .one, .one, ⟨0x7f7f, 0x0, 0x0, 0x0, 0x0, 0x0⟩, .same 0x1030, ⟨0x0, 0xffffffff, 0x0⟩⟩,
  ⟨0x1800008, [], .one, .one, ⟨0xff, 0x0, 0x0, 0x0, 0x0, 0x0⟩, .same 0xa6, ⟨0x0, 0xffffffff, 0x0⟩⟩,
  ⟨0x180000c, [], .one, .one, ⟨0xffffff, 0x0, 0x0, 0x0, 0x0, 0x0⟩, .same 0x3e803, ⟨0x0, 0xffffffff, 0x0⟩⟩,
  ⟨0x1800010, [], .one, .one, ⟨0x0, 0x0, 0x0, 0x0, 0x0, 0x0⟩, .same 0x0, ⟨0xffffffff, 0x0, 0x0⟩⟩,
  ⟨0x1800014, [], .one, .one, ⟨0x0, 0x7, 0x0, 0x0, 0x0, 0x0⟩, .same 0x0, ⟨0x0, 0x0, 0x0⟩⟩,
  ⟨0x1800020, [(3, 0x8)], .one, .one, ⟨0x0, 0x0, 0x0, 0x0, 0x0, 0x0⟩, .same 0x0, ⟨0x0, 0x0, 0x0⟩⟩,
  ⟨0x1800024, [(3, 0x8)], .one, .one, ⟨0x0, 0x0, 0x0, 0x0, 0x0, 0x0⟩, .same 0x0, ⟨0x0, 0x0, 0x0⟩⟩,
  ⟨0x1810000, [(4, 0x1000)], .stack, .one, ⟨0x0, 0x0, 0x0, 0x0, 0x0, 0x0⟩, .same 0x0, ⟨0xfc, 0x0, 0x0⟩⟩,
  ⟨0x1810004, [(4, 0x1000)], .stack, .one, ⟨0x0, 0xf, 0x0, 0x0, 0x0, 0x0⟩, .same 0x0, ⟨0x0, 0x0, 0x0⟩⟩,
  ⟨0x1810100, [(4, 0x1000), (32, 0x20)], .stack, .one, ⟨0x0, 0x0, 0x0, 0x0, 0x0, 0x0⟩, .same 0x0, ⟨0xffffffff, 0x0, 0x0⟩⟩,
  ⟨0x1810104, [(4, 0x1000), (32, 0x20)], .stack, .one, ⟨0x0, 0x0, 0x0, 0x0, 0x0, 0x0⟩, .same 0x0, ⟨0x0, 0x0, 0x0⟩⟩,
  ⟨0x1810108, [(4, 0x1000), (32, 0x20)], .stack, .one, ⟨0x0, 0x0, 0x0, 0x0, 0x0, 0x0⟩, .same 0x0, ⟨0x0, 0x0, 0x0⟩⟩,
  ⟨0x181010c, [(4, 0x1000), (32, 0x20)], .stack, .one, ⟨0x0, 0x0, 0x0, 0x0, 0x0, 0x0⟩, .same 0x0, ⟨0x0, 0x0, 0x0⟩⟩]

/-- The registers of the range at 0x1800000 (R27). -/
def regsMem : List RegDesc := regsMem0

/-! Rec: REC_CTL, REC_STATUS, REC_ARB, REC_TIMING, REC_ERR, REC_EVENT, REC_SQ_BASE, REC_CQ_BASE, REC_SQ_CTL, REC_SQ_HEAD, REC_CQ_CTL, REC_CQ_TAIL, REC_DB_SQ, REC_DB_CQ, REC_PORT_CTL, REC_PORT_STATUS, REC_DRIVE_STATUS, REC_DRIVE_TEMP_WIN, REC_DRIVE_CNT, REC_STREAM_STATUS, REC_STREAM_CLIP, REC_STREAM_FILL, REC_STREAM_ERR, REC_STREAM_CNT -/

def regsRec0 : List RegDesc := [
  ⟨0x1c00000, [], .one, .one, ⟨0xffff02ff, 0x0, 0x100, 0x0, 0x0, 0x0⟩, .same 0x1f40000, ⟨0x0, 0xfffffeff, 0x0⟩⟩,
  ⟨0x1c00004, [], .one, .one, ⟨0x0, 0x0, 0x0, 0x0, 0x0, 0x0⟩, .same 0x0, ⟨0x0, 0xffffffff, 0x0⟩⟩,
  ⟨0x1c00008, [], .one, .one, ⟨0xffffff, 0x0, 0x0, 0x0, 0x0, 0x0⟩, .same 0x10410, ⟨0x0, 0xffffffff, 0x0⟩⟩,
  ⟨0x1c0000c, [], .one, .one, ⟨0xff, 0x0, 0x0, 0x0, 0x0, 0x0⟩, .same 0xa, ⟨0x0, 0xffffffff, 0x0⟩⟩,
  ⟨0x1c00010, [], .one, .one, ⟨0x0, 0x3, 0x0, 0x0, 0x0, 0x0⟩, .same 0x0, ⟨0x0, 0x0, 0x0⟩⟩,
  ⟨0x1c00018, [], .one, .low, ⟨0x0, 0x0, 0x0, 0x0, 0x0, 0x0⟩, .same 0x0, ⟨0x0, 0x0, 0x0⟩⟩,
  ⟨0x1c0001c, [], .one, .high, ⟨0x0, 0x0, 0x0, 0x0, 0x0, 0x0⟩, .same 0x0, ⟨0x0, 0x0, 0x0⟩⟩,
  ⟨0x1c10000, [(64, 0x20)], .one, .low, ⟨0xfffff000, 0x0, 0x0, 0x0, 0x0, 0x0⟩, .same 0x0, ⟨0x0, 0xffffffff, 0x0⟩⟩,
  ⟨0x1c10004, [(64, 0x20)], .one, .high, ⟨0xffffffff, 0x0, 0x0, 0x0, 0x0, 0x0⟩, .same 0x0, ⟨0x0, 0xffffffff, 0x0⟩⟩,
  ⟨0x1c20000, [(64, 0x20)], .one, .low, ⟨0xfffff000, 0x0, 0x0, 0x0, 0x0, 0x0⟩, .same 0x0, ⟨0x0, 0xffffffff, 0x0⟩⟩,
  ⟨0x1c20004, [(64, 0x20)], .one, .high, ⟨0xffffffff, 0x0, 0x0, 0x0, 0x0, 0x0⟩, .same 0x0, ⟨0x0, 0xffffffff, 0x0⟩⟩,
  ⟨0x1c10008, [(64, 0x20)], .one, .one, ⟨0xff1fff, 0x0, 0x1000000, 0x0, 0x0, 0x0⟩, .same 0xc00000, ⟨0x0, 0xfeffffff, 0x0⟩⟩,
  ⟨0x1c1000c, [(64, 0x20)], .one, .one, ⟨0x0, 0x0, 0x0, 0x0, 0x0, 0x0⟩, .same 0x0, ⟨0x0, 0x0, 0x0⟩⟩,
  ⟨0x1c20008, [(64, 0x20)], .one, .one, ⟨0x11fff, 0x0, 0x0, 0x0, 0x0, 0x0⟩, .same 0x10000, ⟨0x0, 0xffffffff, 0x0⟩⟩,
  ⟨0x1c2000c, [(64, 0x20)], .one, .one, ⟨0x0, 0x0, 0x0, 0x0, 0x0, 0x0⟩, .same 0x1000, ⟨0x0, 0x0, 0x0⟩⟩,
  ⟨0x1c30000, [(64, 0x8)], .one, .one, ⟨0x0, 0x0, 0x0, 0x0, 0x0, 0xfff⟩, .same 0x0, ⟨0x0, 0x0, 0x0⟩⟩]

def regsRec1 : List RegDesc := [
  ⟨0x1c30004, [(64, 0x8)], .one, .one, ⟨0x0, 0x0, 0x0, 0x0, 0x0, 0xfff⟩, .same 0x0, ⟨0x0, 0x0, 0x0⟩⟩,
  ⟨0x1c40000, [(2, 0x40)], .one, .one, ⟨0x3, 0x0, 0x4, 0x0, 0x0, 0x0⟩, .same 0x1, ⟨0x0, 0xfffffffb, 0x0⟩⟩,
  ⟨0x1c40004, [(2, 0x40)], .one, .one, ⟨0x0, 0x0, 0x0, 0x0, 0x0, 0x0⟩, .same 0x0, ⟨0x0, 0x0, 0x0⟩⟩,
  ⟨0x1c50000, [(4, 0x40)], .one, .one, ⟨0x0, 0x0, 0x0, 0x0, 0x0, 0x0⟩, .same 0x0, ⟨0x0, 0x0, 0x0⟩⟩,
  ⟨0x1c50004, [(4, 0x40)], .one, .one, ⟨0xffff, 0x0, 0x0, 0x0, 0x0, 0x0⟩, .same 0x4600, ⟨0x0, 0xffffffff, 0x0⟩⟩,
  ⟨0x1c50008, [(4, 0x40), (4, 0x4)], .one, .one, ⟨0x0, 0x0, 0x0, 0x0, 0x0, 0x0⟩, .same 0x0, ⟨0x0, 0x0, 0x0⟩⟩,
  ⟨0x1c60000, [(32, 0x40)], .one, .one, ⟨0x0, 0x0, 0x0, 0x0, 0x0, 0x0⟩, .same 0x0, ⟨0x0, 0x0, 0x0⟩⟩,
  ⟨0x1c60004, [(32, 0x40)], .one, .one, ⟨0x0, 0x0, 0x0, 0x0, 0x0, 0x0⟩, .same 0x0, ⟨0x0, 0x0, 0x0⟩⟩,
  ⟨0x1c60008, [(32, 0x40)], .one, .one, ⟨0x0, 0x0, 0x0, 0x0, 0x0, 0x0⟩, .same 0x0, ⟨0x0, 0x0, 0x0⟩⟩,
  ⟨0x1c6000c, [(32, 0x40)], .one, .one, ⟨0x0, 0x1f, 0x0, 0x0, 0x0, 0x0⟩, .same 0x0, ⟨0x0, 0x0, 0x0⟩⟩,
  ⟨0x1c60010, [(32, 0x40), (3, 0x4)], .one, .one, ⟨0x0, 0x0, 0x0, 0x0, 0x0, 0x0⟩, .same 0x0, ⟨0x0, 0x0, 0x0⟩⟩]

/-- The registers of the range at 0x1c00000 (R27). -/
def regsRec : List RegDesc := regsRec0 ++ regsRec1

/-! Hrw: HRW_CTL, HRW_STATUS, HRW_ADDR, HRW_ERR, HRW_TIME, HRW_TIME_DELAY, HRW_GRAFT_CTL, HRW_GRAFT_AT, HRW_GRAFT_STAT, HRW_PORT_STATUS, HRW_PORT_PEER, HRW_PORT_CNT, HRW_ROUTE, HRW_SEND -/

def regsHrw0 : List RegDesc := [
  ⟨0x2000000, [], .one, .one, ⟨0x1fff0007, 0x0, 0x8, 0x0, 0x0, 0x0⟩, .same 0x7, ⟨0x0, 0xfffffff7, 0x0⟩⟩,
  ⟨0x2000004, [], .one, .one, ⟨0x0, 0x0, 0x0, 0x0, 0x0, 0x0⟩, .same 0x0, ⟨0x1fff1, 0x0, 0x0⟩⟩,
  ⟨0x2000008, [], .one, .one, ⟨0x0, 0x0, 0x0, 0x0, 0x0, 0x0⟩, .same 0x0, ⟨0xffffffff, 0x0, 0x0⟩⟩,
  ⟨0x200000c, [], .one, .one, ⟨0x0, 0x7fff, 0x0, 0x0, 0x0, 0x0⟩, .same 0x0, ⟨0x0, 0x0, 0x0⟩⟩,
  ⟨0x2000010, [], .one, .one, ⟨0x3ff, 0x0, 0x0, 0x0, 0x0, 0x0⟩, .same 0x80, ⟨0x0, 0xffffffff, 0x0⟩⟩,
  ⟨0x2000014, [], .one, .one, ⟨0x0, 0x0, 0x0, 0x0, 0x0, 0x0⟩, .same 0x0, ⟨0x0, 0x0, 0x0⟩⟩,
  ⟨0x2000020, [], .one, .one, ⟨0x0, 0x0, 0x0, 0x0, 0x0, 0xfffffff7⟩, .same 0x0, ⟨0x0, 0x0, 0x0⟩⟩,
  ⟨0x2000028, [], .one, .low, ⟨0xffffffff, 0x0, 0x0, 0x0, 0x0, 0x0⟩, .same 0x0, ⟨0x0, 0x0, 0x0⟩⟩,
  ⟨0x200002c, [], .one, .high, ⟨0xffffffff, 0x0, 0x0, 0x0, 0x0, 0x0⟩, .same 0x0, ⟨0x0, 0x0, 0x0⟩⟩,
  ⟨0x2000030, [], .one, .one, ⟨0x0, 0x0, 0x0, 0x0, 0x0, 0x0⟩, .same 0x0, ⟨0x0, 0x0, 0x0⟩⟩,
  ⟨0x2000100, [(2, 0x40)], .one, .one, ⟨0x0, 0x0, 0x0, 0x0, 0x0, 0x0⟩, .same 0x700, ⟨0x0, 0x0, 0x0⟩⟩,
  ⟨0x2000104, [(2, 0x40)], .one, .one, ⟨0x0, 0x0, 0x0, 0x0, 0x0, 0x0⟩, .same 0x0, ⟨0xffffffff, 0x0, 0x0⟩⟩,
  ⟨0x2000110, [(2, 0x40), (8, 0x4)], .one, .one, ⟨0x0, 0x0, 0x0, 0x0, 0x0, 0x0⟩, .same 0x0, ⟨0x0, 0x0, 0x0⟩⟩,
  ⟨0x2000400, [(64, 0x4)], .one, .one, ⟨0x7fffffff, 0x0, 0x0, 0x0, 0x0, 0x0⟩, .same 0x0, ⟨0x0, 0xffffffff, 0x0⟩⟩,
  ⟨0x2000600, [(64, 0x8)], .one, .low, ⟨0xff7fff, 0x0, 0x0, 0x0, 0x0, 0x0⟩, .same 0x0, ⟨0x0, 0xffffffff, 0x0⟩⟩,
  ⟨0x2000604, [(64, 0x8)], .one, .high, ⟨0xfff, 0x0, 0x0, 0x0, 0x0, 0x0⟩, .same 0x0, ⟨0x0, 0xffffffff, 0x0⟩⟩]

/-- The registers of the range at 0x2000000 (R27). -/
def regsHrw : List RegDesc := regsHrw0

/-! Aud: AUD_EP_CTL, AUD_EP_CFG, AUD_EP_SLOT_MASK, AUD_EP_STATUS, AUD_EP_RATE_MEAS, AUD_EP_BLOCK, AUD_EP_BLOCK_STAMP, AUD_EP_ERR, AUD_EP_CNT, AUD_EP_CS, AUD_TX30_CTL, AUD_TX30_DEST_IP, AUD_TX30_PORTS, AUD_TX30_RTP, AUD_TX30_SSRC -/

def regsAud0 : List RegDesc := [
  ⟨0x2410000, [(12, 0x100)], .one, .one, ⟨0x1, 0x0, 0x0, 0x0, 0x0, 0x0⟩, .same 0x1, ⟨0x0, 0xffffffff, 0x0⟩⟩,
  ⟨0x2410004, [(12, 0x100)], .one, .one, ⟨0x0, 0x0, 0x0, 0x0, 0x0, 0x0⟩, .same 0x0, ⟨0x0, 0x0, 0xffffffff⟩⟩,
  ⟨0x2410008, [(12, 0x100)], .one, .one, ⟨0xffff, 0x0, 0x0, 0x0, 0x0, 0x0⟩, .same 0xffff, ⟨0x0, 0xffffffff, 0x0⟩⟩,
  ⟨0x241000c, [(12, 0x100)], .one, .one, ⟨0x0, 0x0, 0x0, 0x0, 0x0, 0x0⟩, .same 0xffff, ⟨0x0, 0x0, 0x0⟩⟩,
  ⟨0x2410010, [(12, 0x100)], .one, .one, ⟨0x0, 0x0, 0x0, 0x0, 0x0, 0x0⟩, .same 0x0, ⟨0x0, 0x0, 0x0⟩⟩,
  ⟨0x2410014, [(12, 0x100)], .one, .one, ⟨0x0, 0x0, 0x0, 0x0, 0x0, 0x0⟩, .same 0x0, ⟨0x0, 0x0, 0x0⟩⟩,
  ⟨0x2410018, [(12, 0x100)], .one, .low, ⟨0x0, 0x0, 0x0, 0x0, 0x0, 0x0⟩, .same 0x0, ⟨0x0, 0x0, 0x0⟩⟩,
  ⟨0x241001c, [(12, 0x100)], .one, .high, ⟨0x0, 0x0, 0x0, 0x0, 0x0, 0x0⟩, .same 0x0, ⟨0x0, 0x0, 0x0⟩⟩,
  ⟨0x2410020, [(12, 0x100)], .one, .one, ⟨0x0, 0x1ff, 0x0, 0x0, 0x0, 0x0⟩, .same 0x0, ⟨0x0, 0x0, 0x0⟩⟩,
  ⟨0x2410024, [(12, 0x100), (7, 0x4)], .one, .one, ⟨0x0, 0x0, 0x0, 0x0, 0x0, 0x0⟩, .same 0x0, ⟨0x0, 0x0, 0x0⟩⟩,
  ⟨0x2410040, [(12, 0x100), (6, 0x4)], .one, .one, ⟨0x0, 0x0, 0x0, 0x0, 0x0, 0x0⟩, .same 0x0, ⟨0x0, 0x0, 0x0⟩⟩,
  ⟨0x2400100, [(2, 0x20)], .one, .one, ⟨0x1fff7, 0x0, 0x0, 0x0, 0x0, 0x0⟩, .same 0x0, ⟨0x0, 0xffffffff, 0x0⟩⟩,
  ⟨0x2400104, [(2, 0x20)], .one, .one, ⟨0xffffffff, 0x0, 0x0, 0x0, 0x0, 0x0⟩, .same 0x0, ⟨0x0, 0xffffffff, 0x0⟩⟩,
  ⟨0x2400108, [(2, 0x20)], .one, .one, ⟨0xffffffff, 0x0, 0x0, 0x0, 0x0, 0x0⟩, .same 0x0, ⟨0x0, 0xffffffff, 0x0⟩⟩,
  ⟨0x240010c, [(2, 0x20)], .one, .one, ⟨0x1ffffff, 0x0, 0x0, 0x0, 0x0, 0x0⟩, .same 0x0, ⟨0x0, 0x1ffffff, 0x0⟩⟩,
  ⟨0x2400110, [(2, 0x20)], .one, .one, ⟨0xffffffff, 0x0, 0x0, 0x0, 0x0, 0x0⟩, .same 0x0, ⟨0x0, 0xffffffff, 0x0⟩⟩]

/-- The registers of the range at 0x2400000 (R27). -/
def regsAud : List RegDesc := regsAud0

/-! Twn: TWN_CTL, TWN_ERR, TWN_GROUP, TWN_GUARD_MAP, TWN_FIRE, TWN_PEND, TWN_EVT_IN, TWN_TIMER_AT, TWN_TIMER_PERIOD, TWN_TIMER_CTL, TWN_CH_CFG, TWN_CH_STAMP, TWN_CH_COUNT, TWN_KNOT_CFG, TWN_KNOT_STATE, TWN_TASK -/

def regsTwn0 : List RegDesc := [
  ⟨0x2800000, [], .one, .one, ⟨0x1, 0x0, 0x0, 0x0, 0x0, 0x0⟩, .same 0x1, ⟨0x0, 0xffffffff, 0x0⟩⟩,
  ⟨0x2800004, [], .one, .one, ⟨0x0, 0x7, 0x0, 0x0, 0x0, 0x0⟩, .same 0x0, ⟨0xffffffff, 0x0, 0x0⟩⟩,
  ⟨0x2800008, [], .one, .one, ⟨0xffff, 0x0, 0x0, 0x0, 0x0, 0x0⟩, .same 0x0, ⟨0x0, 0x0, 0xffffffff⟩⟩,
  ⟨0x280000c, [], .one, .one, ⟨0x0, 0xffff, 0x0, 0x0, 0x0, 0x0⟩, .same 0x0, ⟨0xffffffff, 0x0, 0x0⟩⟩,
  ⟨0x2800020, [(8, 0x4)], .one, .one, ⟨0x0, 0x0, 0xffffffff, 0x0, 0x0, 0x0⟩, .same 0x0, ⟨0x0, 0x0, 0x0⟩⟩,
  ⟨0x2800040, [(8, 0x4)], .one, .one, ⟨0x0, 0xffffffff, 0x0, 0x0, 0x0, 0x0⟩, .same 0x0, ⟨0xffffffff, 0x0, 0x0⟩⟩,
  ⟨0x2800060, [], .one, .one, ⟨0x0, 0x0, 0x0, 0x0, 0x0, 0x0⟩, .same 0x0, ⟨0x0, 0x0, 0x0⟩⟩,
  ⟨0x2800100, [(8, 0x10)], .one, .low, ⟨0xffffffff, 0x0, 0x0, 0x0, 0x0, 0x0⟩, .same 0x0, ⟨0xffffffff, 0x0, 0x0⟩⟩,
  ⟨0x2800104, [(8, 0x10)], .one, .high, ⟨0xffffffff, 0x0, 0x0, 0x0, 0x0, 0x0⟩, .same 0x0, ⟨0xffffffff, 0x0, 0x0⟩⟩,
  ⟨0x2800108, [(8, 0x10)], .one, .one, ⟨0xffffffff, 0x0, 0x0, 0x0, 0x0, 0x0⟩, .same 0x0, ⟨0xffffffff, 0x0, 0x0⟩⟩,
  ⟨0x280010c, [(8, 0x10)], .one, .one, ⟨0x1, 0x0, 0x0, 0x0, 0x0, 0x0⟩, .same 0x0, ⟨0x1, 0x0, 0x0⟩⟩,
  ⟨0x2810000, [(256, 0x20)], .one, .one, ⟨0x0, 0x0, 0x0, 0x0, 0x0, 0x0⟩, .same 0x0, ⟨0x0, 0x0, 0xffffffff⟩⟩,
  ⟨0x2810004, [(256, 0x20)], .one, .low, ⟨0x0, 0x0, 0x0, 0x0, 0x0, 0x0⟩, .same 0x0, ⟨0xffffffff, 0x0, 0x0⟩⟩,
  ⟨0x2810008, [(256, 0x20)], .one, .high, ⟨0x0, 0x0, 0x0, 0x0, 0x0, 0x0⟩, .same 0x0, ⟨0xffffffff, 0x0, 0x0⟩⟩,
  ⟨0x281000c, [(256, 0x20)], .one, .one, ⟨0x0, 0x0, 0x0, 0x0, 0x0, 0x0⟩, .same 0x0, ⟨0xffffffff, 0x0, 0x0⟩⟩,
  ⟨0x2820000, [(128, 0x10)], .one, .one, ⟨0x0, 0x0, 0x0, 0x0, 0x0, 0x0⟩, .same 0x0, ⟨0x0, 0x0, 0xffffffff⟩⟩]

def regsTwn1 : List RegDesc := [
  ⟨0x2820004, [(128, 0x10)], .one, .one, ⟨0x0, 0x4, 0x0, 0x0, 0x0, 0x0⟩, .same 0x0, ⟨0x4, 0x0, 0x3⟩⟩,
  ⟨0x2830000, [(512, 0x4)], .one, .one, ⟨0x0, 0x80000000, 0x0, 0x0, 0x0, 0x0⟩, .same 0x0, ⟨0xffffffff, 0x0, 0x0⟩⟩]

/-- The registers of the range at 0x2800000 (R27). -/
def regsTwn : List RegDesc := regsTwn0 ++ regsTwn1

/-! Mbx: MBX_ERR, MBX_REPORT, MBX_LOCKED, MBX_BIND -/

def regsMbx0 : List RegDesc := [
  ⟨0x2c00000, [], .one, .one, ⟨0x0, 0xf, 0x0, 0x0, 0x0, 0x0⟩, .same 0x0, ⟨0x0, 0x0, 0x0⟩⟩,
  ⟨0x2c00004, [], .one, .one, ⟨0x0, 0x0, 0x0, 0x0, 0x0, 0x0⟩, .same 0x0, ⟨0x7f, 0x0, 0x0⟩⟩,
  ⟨0x2c00008, [], .one, .one, ⟨0x0, 0x0, 0x0, 0x0, 0x0, 0x0⟩, .same 0x0, ⟨0x1, 0x0, 0x0⟩⟩,
  ⟨0x2c00100, [(64, 0x4)], .one, .one, ⟨0x0, 0x0, 0x0, 0x0, 0x0, 0x0⟩, .same 0x0, ⟨0xffffffff, 0x0, 0x0⟩⟩]

/-- The registers of the range at 0x2c00000 (R27). -/
def regsMbx : List RegDesc := regsMbx0

/-! Trug: TRUG_MODE, TRUG_IDLE, TRUG_FLAG_MAP, TRUG_CFG, TRUG_CTL, TRUG_STAT, TRUG_OVR, TRUG_CORR, TRUG_UNCORR -/

def regsTrug0 : List RegDesc := [
  ⟨0x3000000, [], .one, .one, ⟨0x0, 0x0, 0x0, 0x0, 0x0, 0x0⟩, .same 0x1, ⟨0x0, 0x0, 0x0⟩⟩,
  ⟨0x3000020, [(8, 0x4)], .one, .one, ⟨0xffffffff, 0x0, 0x0, 0x0, 0x0, 0x0⟩, .same 0x0, ⟨0x0, 0xffffffff, 0x0⟩⟩,
  ⟨0x3000040, [(16, 0x4)], .one, .one, ⟨0x0, 0x0, 0x0, 0x0, 0x0, 0x0⟩, .same 0x0, ⟨0x0, 0xffffffff, 0x0⟩⟩,
  ⟨0x3010000, [(512, 0x20)], .one, .one, ⟨0x0, 0x0, 0x0, 0x0, 0x0, 0x0⟩, .same 0x0, ⟨0x0, 0x0, 0xffffffff⟩⟩,
  ⟨0x3010004, [(512, 0x20)], .one, .one, ⟨0x0, 0x0, 0x1, 0x0, 0x0, 0x0⟩, .same 0x0, ⟨0x0, 0x0, 0x0⟩⟩,
  ⟨0x3010008, [(512, 0x20)], .one, .one, ⟨0x0, 0x300000, 0x0, 0x0, 0x0, 0x0⟩, .same 0x40000, ⟨0x0, 0xfff7ffff, 0x0⟩⟩,
  ⟨0x301000c, [(512, 0x20)], .one, .one, ⟨0x0, 0x0, 0x0, 0x0, 0x0, 0x0⟩, .same 0x0, ⟨0x0, 0xffffffff, 0x0⟩⟩,
  ⟨0x3010010, [(512, 0x20)], .one, .one, ⟨0x0, 0x0, 0x0, 0x0, 0x0, 0x0⟩, .same 0x0, ⟨0x0, 0xffffffff, 0x0⟩⟩,
  ⟨0x3010014, [(512, 0x20)], .one, .one, ⟨0x0, 0x0, 0x0, 0x0, 0x0, 0x0⟩, .same 0x0, ⟨0x0, 0xffffffff, 0x0⟩⟩]

/-- The registers of the range at 0x3000000 (R27). -/
def regsTrug : List RegDesc := regsTrug0

/-! Pwr: PWR_CTL, PWR_STATUS, PWR_WAKE_EN, PWR_RESET_CAUSE, PWR_SOFT_RESET, PWR_WDT, PWR_WDT_KICK, THM_CTL, THM_STATUS, THM_ERR, THM_LIMIT, THM_ABS, THM_TRIP, THM_TRIP_INFO, THM_SENSOR -/

def regsPwr0 : List RegDesc := [
  ⟨0x3400000, [], .one, .one, ⟨0x0, 0x0, 0x0, 0x0, 0x0, 0xffff0003⟩, .same 0x0, ⟨0x0, 0x0, 0x0⟩⟩,
  ⟨0x3400004, [], .one, .one, ⟨0x0, 0x10000, 0x0, 0x0, 0x0, 0x0⟩, .same 0x0, ⟨0xff00, 0x0, 0x0⟩⟩,
  ⟨0x3400008, [], .one, .one, ⟨0xf, 0x0, 0x0, 0x0, 0x0, 0x0⟩, .same 0xf, ⟨0xffffffff, 0x0, 0x0⟩⟩,
  ⟨0x340000c, [], .one, .one, ⟨0x0, 0x0, 0x0, 0x0, 0x0, 0x0⟩, .same 0x1, ⟨0xffffffff, 0x0, 0x0⟩⟩,
  ⟨0x3400010, [], .one, .one, ⟨0x0, 0x0, 0x1fffe, 0x0, 0x0, 0x0⟩, .same 0x0, ⟨0x0, 0x0, 0x0⟩⟩,
  ⟨0x3400014, [], .one, .one, ⟨0xffff, 0x0, 0x0, 0x0, 0x0, 0x0⟩, .same 0x7d0, ⟨0x0, 0xffffffff, 0x0⟩⟩,
  ⟨0x3400018, [], .one, .one, ⟨0x0, 0x0, 0x0, 0x0, 0x0, 0xffffffff⟩, .same 0x0, ⟨0x0, 0x0, 0x0⟩⟩,
  ⟨0x3410000, [], .one, .one, ⟨0x1, 0x0, 0x0, 0x0, 0x0, 0x0⟩, .same 0x1, ⟨0x0, 0xffffffff, 0x0⟩⟩,
  ⟨0x3410004, [], .one, .one, ⟨0x0, 0x0, 0x0, 0x0, 0x0, 0x0⟩, .same 0x0, ⟨0x0, 0x0, 0x0⟩⟩,
  ⟨0x3410008, [], .one, .one, ⟨0x0, 0x7, 0x0, 0x0, 0x0, 0x0⟩, .same 0x0, ⟨0x0, 0x0, 0x0⟩⟩,
  ⟨0x341000c, [(3, 0x4)], .one, .one, ⟨0x0, 0x0, 0x0, 0x0, 0x0, 0x0⟩, .same 0x0, ⟨0x0, 0x0, 0xffffffff⟩⟩,
  ⟨0x3410018, [], .one, .one, ⟨0xffff, 0x0, 0x0, 0x0, 0x0, 0x0⟩, .same 0x348, ⟨0x0, 0xffffffff, 0x0⟩⟩,
  ⟨0x3410020, [], .one, .low, ⟨0x0, 0x0, 0x0, 0x0, 0x0, 0x0⟩, .same 0x0, ⟨0xffffffff, 0x0, 0x0⟩⟩,
  ⟨0x3410024, [], .one, .high, ⟨0x0, 0x0, 0x0, 0x0, 0x0, 0x0⟩, .same 0x0, ⟨0xffffffff, 0x0, 0x0⟩⟩,
  ⟨0x3410028, [], .one, .one, ⟨0x0, 0x0, 0x0, 0x0, 0x0, 0x0⟩, .same 0x0, ⟨0xffffffff, 0x0, 0x0⟩⟩,
  ⟨0x3410100, [(28, 0x4)], .one, .one, ⟨0x0, 0x0, 0x0, 0x0, 0x0, 0x0⟩, .same 0x0, ⟨0x0, 0x0, 0x0⟩⟩]

/-- The registers of the range at 0x3400000 (R27). -/
def regsPwr : List RegDesc := regsPwr0

/-! Seed: SEED_STATUS, SEED_DETAIL, SEED_CTL, SEED_BOOT, SEED_HOST_ADDR, SEED_HOST_LEN, SEED_IMAGE_ID, SEED_TIME, SEED_KEYS, SEED_KEY_HASH, SEED_KEY_CMD, SEED_CAL_CTL, SEED_CAL_STATUS, MSIX_TABLE -/

def regsSeed0 : List RegDesc := [
  ⟨0x3800000, [], .one, .one, ⟨0x0, 0x0, 0x0, 0x0, 0x0, 0x0⟩, .same 0x0, ⟨0xffff0f70, 0x0, 0x80⟩⟩,
  ⟨0x3800004, [], .one, .one, ⟨0x0, 0x0, 0x0, 0x0, 0x0, 0x0⟩, .same 0x0, ⟨0xffffffff, 0x0, 0x0⟩⟩,
  ⟨0x3800008, [], .one, .one, ⟨0x100, 0x0, 0x0, 0x0, 0x0, 0xffff003f⟩, .same 0x0, ⟨0x100, 0x0, 0x0⟩⟩,
  ⟨0x380000c, [], .one, .one, ⟨0xfff, 0x0, 0x0, 0x0, 0x0, 0x0⟩, .same 0x0, ⟨0xffffffff, 0x0, 0x0⟩⟩,
  ⟨0x3800010, [], .one, .low, ⟨0xffffff00, 0x0, 0x0, 0x0, 0x0, 0x0⟩, .same 0x0, ⟨0xffffffff, 0x0, 0x0⟩⟩,
  ⟨0x3800014, [], .one, .high, ⟨0xffffffff, 0x0, 0x0, 0x0, 0x0, 0x0⟩, .same 0x0, ⟨0xffffffff, 0x0, 0x0⟩⟩,
  ⟨0x3800018, [], .one, .one, ⟨0xffffffff, 0x0, 0x0, 0x0, 0x0, 0x0⟩, .same 0x0, ⟨0xffffffff, 0x0, 0x0⟩⟩,
  ⟨0x3800020, [], .one, .low, ⟨0x0, 0x0, 0x0, 0x0, 0x0, 0x0⟩, .same 0x0, ⟨0x0, 0x0, 0xffffffff⟩⟩,
  ⟨0x3800024, [], .one, .high, ⟨0x0, 0x0, 0x0, 0x0, 0x0, 0x0⟩, .same 0x0, ⟨0x0, 0x0, 0xffffffff⟩⟩,
  ⟨0x3800028, [], .one, .one, ⟨0x0, 0x0, 0x0, 0x0, 0x0, 0x0⟩, .same 0x0, ⟨0xffffffff, 0x0, 0x0⟩⟩,
  ⟨0x3800030, [], .one, .one, ⟨0x0, 0x0, 0x0, 0x0, 0x0, 0x0⟩, .same 0x0, ⟨0xffffffff, 0x0, 0x0⟩⟩,
  ⟨0x3800040, [(12, 0x4)], .one, .one, ⟨0x0, 0x0, 0x0, 0x0, 0x0, 0xffffffff⟩, .same 0x0, ⟨0x0, 0x0, 0x0⟩⟩,
  ⟨0x3800070, [], .one, .one, ⟨0x0, 0x40, 0x0, 0x0, 0x0, 0xffff001f⟩, .same 0x0, ⟨0x0, 0x0, 0x0⟩⟩,
  ⟨0x3800080, [], .one, .one, ⟨0x0, 0x0, 0x0, 0x0, 0x0, 0xffff0003⟩, .same 0x0, ⟨0x0, 0x0, 0x0⟩⟩,
  ⟨0x3800084, [], .one, .one, ⟨0x0, 0x18, 0x0, 0x0, 0x0, 0x0⟩, .same 0x0, ⟨0x6, 0x0, 0x0⟩⟩,
  ⟨0x3c00000, [(8192, 0x4)], .one, .one, ⟨0xffffffff, 0, 0, 0, 0, 0⟩, .same 0, ⟨0, 0, 0⟩⟩]

/-- The registers of the range at 0x3800000 (R27). -/
def regsSeed : List RegDesc := regsSeed0

/-! Decoder context pages: DEC_CTL, DEC_WR, DEC_RD, DEC_LAST, DEC_LAST_CONC, DEC_STATUS, DEC_ERR, DEC_CNT -/

def regsDec0 : List RegDesc := [
  ⟨0x1010104, [(16, 0x1000), (8, 0x80)], .bed, .one, ⟨0x4, 0x0, 0x3, 0x0, 0x0, 0x0⟩, .same 0x0, ⟨0x0, 0xffffffff, 0x0⟩⟩,
  ⟨0x1010108, [(16, 0x1000), (8, 0x80)], .bed, .one, ⟨0xffffffff, 0x0, 0x0, 0x0, 0x0, 0x0⟩, .same 0x0, ⟨0x0, 0x0, 0x0⟩⟩,
  ⟨0x101010c, [(16, 0x1000), (8, 0x80)], .bed, .one, ⟨0x0, 0x0, 0x0, 0x0, 0x0, 0x0⟩, .same 0x0, ⟨0x0, 0x0, 0x0⟩⟩,
  ⟨0x1010110, [(16, 0x1000), (8, 0x80)], .bed, .one, ⟨0x0, 0x0, 0x0, 0x0, 0x0, 0x0⟩, .same 0x0, ⟨0x0, 0x0, 0x0⟩⟩,
  ⟨0x1010118, [(16, 0x1000), (8, 0x80)], .bed, .one, ⟨0x0, 0x0, 0x0, 0x0, 0x0, 0x0⟩, .same 0x0, ⟨0x0, 0x0, 0x0⟩⟩,
  ⟨0x101011c, [(16, 0x1000), (8, 0x80)], .bed, .one, ⟨0x0, 0x0, 0x0, 0x0, 0x0, 0x0⟩, .same 0x0, ⟨0x0, 0x0, 0x0⟩⟩,
  ⟨0x1010120, [(16, 0x1000), (8, 0x80)], .bed, .one, ⟨0x0, 0x1fff, 0x0, 0x0, 0x0, 0x0⟩, .same 0x0, ⟨0x0, 0x0, 0x0⟩⟩,
  ⟨0x1010124, [(16, 0x1000), (8, 0x80), (14, 0x4)], .bed, .one, ⟨0x0, 0x0, 0x0, 0x0, 0x0, 0x0⟩, .same 0x0, ⟨0x0, 0x0, 0x0⟩⟩]

/-- The context page of a stream context whose DIR is 1 (spec/10_decoder.md). -/
def regsDec : List RegDesc := regsDec0

/-- The tables in order of their first offset, with that offset. -/
def regBlocks : List (Nat × List RegDesc) :=
  [(0x0, regsGlb),
   (0x100000, regsTime),
   (0x200000, regsRun),
   (0x400000, regsIng),
   (0x800000, regsBed),
   (0xc00000, regsPe),
   (0x1000000, regsSe),
   (0x1400000, regsHead),
   (0x1800000, regsMem),
   (0x1c00000, regsRec),
   (0x2000000, regsHrw),
   (0x2400000, regsAud),
   (0x2800000, regsTwn),
   (0x2c00000, regsMbx),
   (0x3000000, regsTrug),
   (0x3400000, regsPwr),
   (0x3800000, regsSeed)]

end Sys2Proof.Machine
end

