-- ==== Sys2Proof/Machine/SMap.lean ====
section
/-!
DEFINITION. Sparse maps by number, as lists of pairs with rising keys: the form in which the model holds the register
window, plot space and every other numbered collection. An unlisted key reads as a stated value, and no entry equals
what its key reads as when unlisted, so equal maps are equal lists.
-/

namespace Sys2Proof.Machine

/-- A sparse map from numbers. -/
abbrev SMap (α : Type) := List (Nat × α)

/-- What key `k` reads as: its entry, or `d k` where it has none. -/
def SMap.get {α : Type} (d : Nat → α) : SMap α → Nat → α
  | [], k => d k
  | (a, b) :: r, k => if a = k then b else SMap.get d r k

/-- Put an entry in its place, replacing the entry of the same key. -/
def SMap.insert {α : Type} : SMap α → Nat → α → SMap α
  | [], k, v => [(k, v)]
  | (a, b) :: r, k, v =>
    if a = k then (k, v) :: r
    else if k < a then (k, v) :: (a, b) :: r
    else (a, b) :: SMap.insert r k v

/-- Drop the entry of a key. -/
def SMap.erase {α : Type} : SMap α → Nat → SMap α
  | [], _ => []
  | (a, b) :: r, k => if a = k then SMap.erase r k else (a, b) :: SMap.erase r k

/-- Write `v` at key `k`; a value equal to what `k` reads as when unlisted leaves no entry. -/
def SMap.set {α : Type} [DecidableEq α] (d : Nat → α) (m : SMap α) (k : Nat) (v : α) : SMap α :=
  if v = d k then m.erase k else m.insert k v

/-- The canonical form: keys rise strictly and no entry equals what its key reads as when unlisted. -/
def SMap.wf {α : Type} [DecidableEq α] (d : Nat → α) : SMap α → Bool
  | [] => true
  | [(a, b)] => decide (b ≠ d a)
  | (a, b) :: (a', b') :: r => decide (b ≠ d a) && decide (a < a') && SMap.wf d ((a', b') :: r)

/-- A map of numbered things of which most are in the state `x`: the thing at key `k`. -/
def SMap.at {α : Type} (x : α) (m : SMap α) (k : Nat) : α := m.get (fun _ => x) k

/-- Replace the thing at key `k`. -/
def SMap.put {α : Type} [DecidableEq α] (x : α) (m : SMap α) (k : Nat) (v : α) : SMap α := m.set (fun _ => x) k v

/-- Change the thing at key `k`. -/
def SMap.upd {α : Type} [DecidableEq α] (x : α) (m : SMap α) (k : Nat) (f : α → α) : SMap α :=
  m.put x k (f (m.at x k))

end Sys2Proof.Machine
end

