-- ==== Sys2Proof/Machine/State.lean ====
section
/-!
DEFINITION. The state of the block as plain data: the register window, the internal state of every block, plot space,
the flash and fuses, what the block has sent out, and the queue of the commands that wait.
-/

namespace Sys2Proof.Machine

/-- Why the block stops. -/
inductive Fault where
  /-- Raised by REGISTER_WRITE at an offset that is not 4-byte aligned: the spec says only that software must use
  aligned 32-bit accesses (R11) and gives such a write no effect. Safe: the model stops where the part goes on. -/
  | unaligned
  /-- Raised by REGISTER_WRITE at an offset beyond the 64 MiB window (R27): no such address exists. Safe. -/
  | outsideWindow
  deriving DecidableEq, Repr

/-- Why the model does not run a command. -/
inductive Refusal where
  /-- Raised by the dispatch for a command whose meaning has not been written. Safe. -/
  | notModelled (mnemonic : String)
  deriving DecidableEq, Repr

/-- What the block sends out. -/
inductive Output where
  /-- a PTP Delay_Req on an Ethernet port, unicast or multicast (R89) -/
  | ptpDelayReq (port seq : Nat) (unicast : Bool)
  /-- a Management message handed to the control cores (R89) -/
  | ptpManagement (port : Nat) (body : List Byte)
  /-- a boundary of a frame reference, with its mark: 0 regular, 1 SLIP_REPEAT, 2 SLIP_DROP (R91) -/
  | frefBoundary (n mark : Nat)
  /-- a completion of a BAR2 read: its bytes and status 0 good, 1 Unsupported Request, 2 poisoned (R29) -/
  | bar2Completion (status : Nat) (data : List Byte)
  /-- the level of an EVT ball changes (R454) -/
  | evtOut (ball : Nat) (level : Bool)
  /-- a firmware interrupt to a mailbox receiver (R475) -/
  | mailNotify (channel receiver : Nat)
  /-- data delivered by the HBM controller to a port, and whether it is poisoned (R347) -/
  | memData (block inst addr : Nat) (data : List Byte) (poison : Bool)
  /-- bytes written to host memory (R503, R370) -/
  | hostWrite (addr : Nat) (data : List Byte)
  /-- THERM_ALERT_N and THERM_TRIP_N go low or high (R496, R499) -/
  | thermAlert (low : Bool)
  | thermTrip (low : Bool)
  /-- the hedgerow bypass closes or opens (R402) -/
  | bypass (closed : Bool)
  /-- a control block sent on a Runner: type and the 15 bytes after it (R121); SPARE and RESTEP blocks go out three
  times (R138) -/
  | control (runner type : Nat) (payload : List Byte)
  /-- an active line of a head on an SDI link or on its ST 2110-20 sender: link 0 to 3 or 4 for the sender, RTP timestamp
  (0 on SDI), last line of the frame, and the codes in output order (R329, R330) -/
  | headLine (head link line stamp : Nat) (last : Bool) (codes : List Nat)
  /-- a Nawen item sent on a Runner: its header and payload words (R404) -/
  | nawenItem (runner : Nat) (header : List Byte) (words : List NawenWord)
  /-- a hedgerow port begins or ends the wake pattern (R426) -/
  | wakePattern (port : Nat) (on : Bool)
  /-- a frame that an audio output drives: its slots (R436, R441) -/
  | audioFrame (endpoint : Nat) (slots : List Nat)
  /-- an ST 2110-30 packet: sender, Ethernet port, IPv4 destination, UDP ports (destination, source), payload type, DSCP,
  VLAN, SSRC, sequence number, RTP timestamp and L24 payload (R445) -/
  | audioPacket (sender port dest dstPort srcPort pt dscp vlan ssrc seq stamp : Nat) (payload : List Byte)
  /-- RPr_PERST_N of a root port goes low or high (R515) -/
  | drivePerst (port : Nat) (low : Bool)
  /-- PCIE_WAKE_N goes low or high (R515) -/
  | pcieWake (low : Bool)
  deriving DecidableEq, Repr


/-- The phases of a PTP master as the Announce messages give it (R89); the record of spec/03_timebase.md keeps what the
best-master comparison and the status registers need. -/
structure PtpMaster where
  port : Nat
  gmId : Nat
  priority1 : Nat
  clockClass : Nat
  accuracy : Nat
  variance : Nat
  priority2 : Nat
  stepsRemoved : Nat
  senderId : Nat
  deriving DecidableEq, Repr

/-- A Sync awaiting its Follow_Up, or the latest Sync whose mean path was not yet known (R88, R89). -/
structure PtpSync where
  seq : Nat
  /-- corrected time of receipt, 2^-16 ns -/
  t2 : Int
  /-- master's origin time with corrections, 2^-16 ns; none until a Follow_Up of a two-step Sync -/
  t1 : Option Int
  correction : Int
  deriving DecidableEq, Repr

/-- A frame reference (R90, R91): its settings in force, its last and next boundary. -/
structure FrameRef where
  source : Nat := 0
  mult : Nat := 0
  num : Nat := 0
  den : Nat := 0
  phase : Nat := 0
  /-- last boundary, ticks of corrected time -/
  last : Option Int := none
  /-- the boundary placed next, ticks of corrected time -/
  next : Int := 0
  /-- mark of the boundary placed next: 0 regular, 1 SLIP_REPEAT, 2 SLIP_DROP -/
  mark : Nat := 0
  /-- by how much the boundary placed next was moved against B + P, ticks -/
  moved : Int := 0
  deriving DecidableEq, Repr

/-- A GENLOCK input (R93, R94). -/
structure Genlock where
  lastEdge : Option Int := none
  period : Nat := 0
  lost : Bool := false
  deriving DecidableEq, Repr

/-- The time base beside its registers (spec/03_timebase.md). -/
structure TimeBase where
  /-- the Rootstock counter, 8 ns counts (R77) -/
  counter : BitVec 64
  /-- the place within the count, ticks of 31.25 ps (R78) -/
  phase : BitVec 8
  /-- PI integral, 2^-48 (R86) -/
  integral : Int
  /-- consecutive measurements within LOCK_LIMIT (R87) -/
  locks : Nat
  /-- consecutive discarded measurements (R87) -/
  discards : Nat
  /-- measurements since the entry to ACQUIRE (R526) -/
  acq : Nat
  /-- the first measurement of ACQUIRE and the corrected time it was taken at, 2^-16 ns (R86) -/
  firstTheta : Int
  firstAt : Int
  masters : List PtpMaster
  best : Option PtpMaster
  sync : Option PtpSync
  /-- sequence number and send time (2^-16 ns) of the outstanding Delay_Req -/
  delayReq : Option (Nat × Int)
  delaySeq : Nat
  pathKnown : Bool
  frefs : SMap FrameRef
  gens : SMap Genlock
  deriving DecidableEq, Repr

/-- One committed word of a trug with its tag (R102). -/
structure TrugWord where
  data : List Byte
  tag : BitVec 8
  deriving DecidableEq, Repr

/-- A trug beside its registers (spec/04_trugs.md). -/
structure Trug where
  ring : List TrugWord := []
  /-- the packing stage, lowest byte first (R100) -/
  pack : List Byte := []
  /-- an item is in progress at the write port -/
  inItem : Bool := false
  /-- words the item in progress has committed (R103) -/
  committed : Nat := 0
  /-- writes are ignored up to and including END (R103, R108) -/
  skip : Bool := false
  /-- the consumer has started an item and not yet read its END word (R108) -/
  reading : Bool := false
  /-- a flush of a privileged trug waits for the END word (R108) -/
  flushWait : Bool := false
  /-- a read stalls on the empty trug (R105) -/
  stalled : Bool := false
  deriving DecidableEq, Repr

/-- A request at the HBM controller (R348, R350). `cls` is 4, 5 or 6 for a real-time port, 7 for the recording urgent
class and 8 for every other best-effort port. -/
structure MemReq where
  age : Nat
  cls : Nat
  block : Nat
  inst : Nat
  addr : Nat
  /-- bytes to write, or [] for a read -/
  data : List Byte
  /-- bytes to read, or 0 for a write -/
  len : Nat
  deriving DecidableEq, Repr

/-- A suspect row (R357): row key and the stamps of its corrected words within the window. -/
structure SuspectRow where
  row : Nat
  times : List Nat
  deriving DecidableEq, Repr

/-- A pseudo-channel beside its registers (R350 to R361). -/
structure PseudoChannel where
  reads : List MemReq := []
  writes : List MemReq := []
  drain : Bool := false
  /-- the drain was entered because no read waited (R350) -/
  drainIdle : Bool := false
  /-- open row of each (stack-ID group × 16 + bank) -/
  openRow : SMap (Option Nat) := []
  /-- power-down of each stack-ID group (R353) -/
  down : SMap Bool := []
  /-- postponed refreshes of each (stack-ID group × 16 + bank) (R354) -/
  postponed : SMap Nat := []
  trainFails : Nat := 0
  suspects : List SuspectRow := []
  /-- row keys holding an uncorrectable word, with the stamp it was found at -/
  badRows : List (Nat × Nat) := []
  /-- row keys remapped onto spare rows (class A, R358) -/
  remapped : List Nat := []
  /-- rows waiting for their remap (R357) -/
  due : List Nat := []
  /-- retirement is due (R360) -/
  retireDue : Bool := false
  /-- its cause (R42): 1 trigger 4, 2 retraining, 3 uncorrectable rows, 4 training at seeding -/
  cause : Nat := 0
  /-- address of the last damaged word -/
  fault : Option Nat := none
  deriving DecidableEq, Repr

/-- The HBM controller and the plots beside the registers (spec/12_hbm_memory.md). -/
structure Hbm where
  /-- plot space, one byte a cell; every plot is zero-filled in seeding (R342), so an unlisted byte reads 0 -/
  bytes : List Host.Cell
  /-- words (address / 32) that carry the poison pattern (R346) -/
  poison : SMap Bool
  /-- chunks (address / 256) that are unbacked (R361, R362) -/
  unbacked : SMap Bool
  /-- the reserve chunk that serves a retired chunk, as chunk number + 1; 0 for none (R360) -/
  moved : SMap Nat
  pcs : SMap PseudoChannel
  /-- next request's age -/
  age : Nat
  /-- level of a real-time port's buffer in sixteenths, by port key (R349) -/
  level : SMap Nat
  /-- real-time ports in panic, by port key (R349) -/
  panic : SMap Bool
  /-- write ports that discard the rest of an item, by port key (R352) -/
  discard : SMap Bool
  /-- plots dropped by PLOT_DROP, by index (R362) -/
  dropped : SMap Bool
  deriving DecidableEq, Repr

/-- A channel event under way to its fork (R453): the channel and the raw tick it was placed at. -/
structure TwineEvent where
  channel : Nat
  tick : Nat
  deriving DecidableEq, Repr

/-- A Twine task's acceptance (R455, R456). -/
structure TwineTask where
  /-- raw tick of the last accepted event -/
  last : Option Nat := none
  busy : Bool := false
  deriving DecidableEq, Repr

/-- A knot beside its registers (R458 to R461). -/
structure Knot where
  /-- the table output L after the pulse filter -/
  level : Bool := false
  /-- a change of L that the filter holds back: the new value -/
  filtering : Option Bool := none
  /-- raw ticks of the changes of O within the last 1 µs -/
  changes : List Nat := []
  deriving DecidableEq, Repr

/-- Twine beside its registers (spec/16_signalling.md). -/
structure Twine where
  due : List TwineEvent
  tasks : SMap TwineTask
  knots : SMap Knot
  /-- levels driven on EVT balls by EVT_OUT tasks (R454) -/
  evtOut : SMap Bool
  /-- levels at the EVT balls from outside -/
  evtIn : SMap Bool
  /-- raw tick of the last event on each channel, for coincidences (R468) -/
  lastEvent : SMap (Option Nat)
  /-- raw tick of the last disable of each group by a task or a guard, by anything, and of its last enable by a task
  (R468) -/
  lastDis : SMap (Option Nat)
  lastOff : SMap (Option Nat)
  lastEn : SMap (Option Nat)
  /-- channel pulses that are high, with the raw tick each ends at (R450, R458) -/
  pulses : List TwineEvent
  deriving DecidableEq, Repr

/-- The page of a mailbox channel (R472 to R478). -/
structure MailPage where
  /-- message slots, 64 bytes each; an absent slot reads as zero bytes -/
  slots : SMap (List Byte) := []
  head : Nat := 0
  tail : Nat := 0
  full : Nat := 0
  bad : BitVec 16 := 0
  pending : Word := 0
  mask : Word := 0xffffffff#32
  lock : Nat := 0
  posted : Nat := 0
  refused : Nat := 0
  /-- a host notification waits for the PCIe link (R475) -/
  held : Bool := false
  deriving DecidableEq, Repr

/-- A graft slot of the seed flash (R49, R69): its contents, erased bytes after them, and whether its mark is valid. -/
structure FlashSlot where
  image : List Byte := []
  valid : Bool := true
  deriving DecidableEq, Repr

/-- The seed flash (R49): the boot record, the firmware selector and slots, the graft slots and the calibration store. -/
structure Flash where
  order : BitVec 8
  enable : BitVec 4
  fwSelect : Bool
  fwA : List Byte
  fwB : List Byte
  slots : SMap FlashSlot
  cal : List Byte
  deriving DecidableEq, Repr

/-- The fuses (R63, R64): state and key hash of customer slots 1 to 4, and TARBOR_OFF. -/
structure Fuses where
  slotState : BitVec 8
  hashes : SMap (List Byte)
  tarborOff : Bool
  deriving DecidableEq, Repr

/-- What a load in its first phase will do when its check ends (R68, R69); `write` is a store whose check has passed. -/
inductive LoadKind where
  | load | check | store (slot : Nat) | write (slot : Nat) | erase (slot : Nat)
  deriving DecidableEq, Repr

/-- A loader command under way (R68, R69, R75): its kind, the source code of SEED_STATUS.SOURCE and the image bytes,
with the offset of the first byte that could not be read. -/
structure LoadJob where
  kind : LoadKind
  source : Nat
  slot : Nat
  image : List Byte
  readLen : Nat
  unreadable : Option Nat
  deriving DecidableEq, Repr

/-- Seeding and the loader beside their registers (spec/02_graft_image.md). -/
structure Seed where
  /-- bytes of the running image; [] while none runs -/
  image : List Byte
  running : Bool
  /-- seeding is due: 0 no, 1 from step 1 (power-on, pin), 2 a graft reset's steps, 3 wake from Fallow -/
  due : Nat
  job : Option LoadJob
  /-- PLL lock failures of this seeding (R73) -/
  pllFails : Nat
  /-- firmware start failures of this seeding (R73) -/
  fwFails : Nat
  /-- the mailbox binding section locked since power-on reset (R66) -/
  locked : Option (List Byte)
  /-- a fuse burn under way: command and slot (R64) -/
  burn : Option (Nat × Nat)
  /-- words written to SEED_KEY_HASH -/
  keyHash : SMap Word
  /-- the calibration store as the last seeding read it; [] when it failed its check (R503, R504) -/
  cal : List Byte
  deriving DecidableEq, Repr

/-- A thermal step in force (R497, R498): its index in the degrade plan, or none for the built-in step. -/
structure ThermStep where
  index : Option Nat
  /-- what it did: action code and what it acted on, a bed, a head, or an engine and a context -/
  undo : List (Nat × Nat × Nat)
  deriving DecidableEq, Repr

/-- Power, reset and thermal state beside the registers (spec/17_power_thermal_reset.md). -/
structure Power where
  /-- RESET_N is held low -/
  resetLow : Bool
  /-- the rails are in tolerance and power-good has come (R512) -/
  powerGood : Bool
  /-- a rail-fault reset holds: 0 none, 1 pin reset, 2 power-on reset (R513) -/
  railFault : Nat
  /-- the state a power entry under way leads to: 2 Dormant, 3 Fallow -/
  entering : Nat
  /-- a wake source waits for the entry to end (R501) -/
  wakeWaits : Nat
  /-- blocks held in domain soft reset -/
  softReset : BitVec 21
  /-- counter at the watchdog's last restart; while it pauses, the counts it has gone through (R490) -/
  wdtFrom : BitVec 64
  wdtOn : Bool
  pcieUp : Bool
  msixOn : Bool
  /-- vectors 66 and 67 held until the host enables MSI-X (R67, R523) -/
  held66 : Bool
  held67 : Bool
  thermAlert : Bool
  thermTrip : Bool
  /-- the last 64 samples of each sensor, newest first, 1/8 °C (R495) -/
  samples : SMap (List Int)
  /-- consecutive samples at which each sensor's rate reached THROTTLE_RATE -/
  hotRun : SMap Nat
  /-- consecutive samples at which relief held -/
  reliefRun : Nat
  grace : Bool
  stepTimer : Bool
  /-- relief has been declared since the last throttle condition -/
  relieved : Bool
  steps : List ThermStep
  /-- consecutive samples below RESTART_LEVEL after a trip -/
  coolRun : Nat
  /-- RESTART_LEVEL in force at the trip -/
  restartLevel : Int
  /-- a trip record is due at the next seeding: sensor, reading and stamp (R36, R500) -/
  tripDue : Option (Nat × Int × Nat)
  /-- steps of triggers 2 to 6 used since the graft load, by plan index (R60) -/
  usedSteps : SMap Bool
  bypassClosed : Bool
  /-- actions of steps of triggers 2 to 6 in force on an instance (R60) -/
  forced : List (Nat × Nat)
  /-- PCIE_WAKE_N and RPr_PERST are held low (R515) -/
  pcieWakeLow : Bool
  driveReset : Bool
  deriving DecidableEq, Repr

/-- A Runner's sync-code matcher (R153). -/
structure Matcher where
  /-- 0 OFF, 1 SEARCH, 2 LOCKED -/
  state : Nat := 0
  /-- agreeing codes counted in SEARCH, or bad codes in a row in LOCKED -/
  count : Nat := 0
  /-- the word grid: position of the codes counted, modulo the word -/
  grid : Nat := 0
  deriving DecidableEq, Repr

/-- The sync codes (R151, R152). -/
inductive CodeKind where
  | sof | eof | sol | eol
  deriving DecidableEq, Repr

/-- A code that a locked Runner showed while its port was not yet locked (R153). -/
structure HeldCode where
  tick : Nat
  seg : Nat
  kind : CodeKind
  sites : List Nat
  deriving DecidableEq, Repr

/-- A segment of a line in progress (R154): 0 not begun, 1 open, 2 ended, 3 absent; and its photosites so far. -/
structure IngSeg where
  state : Nat := 0
  sites : List Nat := []
  deriving DecidableEq, Repr

/-- A line in progress at a port. -/
structure IngLine where
  /-- it belongs to the frame before the last boundary (R525) -/
  old : Bool
  /-- raw tick of its first SOL -/
  start : Nat
  stamp : Nat
  coarse : Bool
  /-- no further segment may begin (R154) -/
  closed : Bool
  /-- a segment was ended before its own end (R163) -/
  short : Bool
  segs : List IngSeg
  deriving DecidableEq, Repr

/-- A frame at a port, with the settings in force at its SOF (R157, R160, R161). -/
structure IngFrame where
  number : Nat
  stamp : Nat
  coarse : Bool
  lines : Nat
  /-- stamp and COARSE of the last line received: the base of pad lines (R162) -/
  lastStamp : Nat
  lastCoarse : Bool
  late : Bool
  prevLong : Bool
  resync : Bool
  rate : Bool
  long : Bool
  /-- the port lost sync within the frame (R161) -/
  dead : Bool
  left : Nat
  right : Nat
  top : Nat
  bottom : Nat
  pad : Nat
  timeout : Nat
  deriving DecidableEq, Repr

/-- The port-pruned window of a frame, in sensor coordinates (R160). -/
structure FrameGeom where
  number : Nat
  left : Nat
  top : Nat
  width : Nat
  height : Nat
  deriving DecidableEq, Repr

/-- A sensor port beside its registers (R153 to R164, R525). -/
structure IngPort where
  frame : Option IngFrame := none
  /-- the frame before the boundary, while lines of it may still complete (R525) -/
  closing : Option IngFrame := none
  lines : List IngLine := []
  /-- raw tick of the last frame boundary -/
  boundary : Option Nat := none
  /-- segments whose SOF of that boundary has been seen -/
  seen : List Nat := []
  /-- a frame has been opened since the frame number returned to 0 (R174) -/
  started : Bool := false
  prevSof : Option Nat := none
  lastSol : Option Nat := none
  prevLong : Bool := false
  ratePrev : Bool := false
  resync : Bool := false
  held : List HeldCode := []
  /-- windows of the last 16 frames, newest first: the pruning in force that the bed maps each line by (R184) -/
  geoms : List FrameGeom := []
  deriving DecidableEq, Repr

/-- A run of cut lines (R166): the tag of its first line, the place of its last and their number. -/
structure CutRun where
  tag : List Byte
  lastFrame : Nat
  lastLine : Nat
  lines : Nat
  deriving DecidableEq, Repr

/-- A port's band at one input trug (R165). -/
structure IngBand where
  /-- the open band is cut from this trug -/
  cut : Bool := false
  /-- stamp of the open band's first line, while the band is not complete -/
  openStamp : Option Nat := none
  run : Option CutRun := none
  deriving DecidableEq, Repr

/-- A unit an espalier merger has emitted to its bed (R169): a band of line items, or a marker. -/
structure IngUnit where
  port : Nat
  marker : Bool
  lines : List (List TrugWord)
  deriving DecidableEq, Repr

/-- An espalier merger beside its registers (R168 to R173). -/
structure Merger where
  /-- stamp of the last unit emitted -/
  last : Option Nat := none
  /-- the unit its bed has not yet accepted -/
  out : Option IngUnit := none
  /-- BOND_INDEX the next egress unit goes to -/
  turn : Nat := 0
  deriving DecidableEq, Repr

/-- Ingest beside its registers (spec/06_sensor_ingest.md): matchers by Runner, ports, bands by input trug, mergers. -/
structure Ingest where
  matchers : SMap Matcher
  ports : SMap IngPort
  bands : SMap IngBand
  mergers : SMap Merger
  deriving DecidableEq, Repr


/-- What a pixel engine sees of the line it computes (R230, R239, R241). -/
structure PeCtx where
  /-- components at the splice point: 1 at A, 3 at B -/
  comps : Nat := 1
  /-- the member's first column and the column after its last -/
  x0 : Nat := 0
  x1 : Nat := 0
  /-- first column of the tile, and the output line -/
  x : Nat := 0
  y : Nat := 0
  slot : Nat := 0
  frame : Nat := 0
  width : Nat := 0
  height : Nat := 0
  share : Nat := 0
  /-- CFA period at A, 1 at B (R239) -/
  period : Nat := 1
  /-- window rows by row number, one list of values a component; a row that a cut marker stands for has no entry -/
  rows : SMap (List (List Int)) := []
  /-- window rows that carry POISONED -/
  poisoned : List Nat := []
  /-- kernel parameters as applied, slot × 16 + k (R241) -/
  params : List Nat := []
  deriving DecidableEq, Repr

/-- A pixel engine beside its registers (spec/08_pixel_engines.md). -/
structure PeEngine where
  /-- the instruction store: 64-bit words, and the two entries (R230, R231) -/
  code : List Nat := []
  entry : Nat := 0
  frameEntry : Option Nat := none
  /-- scalar registers s1 to s31 -/
  s : SMap Nat := []
  /-- vector registers, 16 lanes of 32 bits -/
  v : SMap (List Nat) := []
  /-- constant and initial data as loaded, and the bytes stored over them; none for a poisoned byte (R237, R238) -/
  init : List Byte := []
  constLen : Nat := 0
  mem : SMap (Option Byte) := []
  pc : Nat := 0
  /-- no tile and no frame entry is in progress -/
  ended : Bool := true
  /-- a frame entry is in progress, not a tile (R231) -/
  inFrame : Bool := false
  ctx : PeCtx := {}
  /-- components of the tile that WST has written, 16 lanes each (R240) -/
  out : SMap (List Int) := []
  /-- the line as computed so far, one list a component -/
  line : List (List Int) := []
  /-- cycles since the line began, the cycle the tile began at, and the cycle each register is ready: scalar n, or
  32 + n for vector n (R244) -/
  now : Nat := 0
  tileFrom : Nat := 0
  ready : SMap Nat := []
  /-- the cycle the special-function unit and the memory unit are free again at -/
  sfuFree : Nat := 0
  memFree : Nat := 0
  /-- cycles of a frame entry, which count against the first line of the frame (R231) -/
  carry : Nat := 0
  /-- the line was abandoned at its cap (R244) -/
  tooLong : Bool := false
  /-- the line loaded a poisoned word (R242) -/
  poison : Bool := false
  /-- most cycles in a tile since the registers were brought up to date -/
  tileMax : Nat := 0
  /-- a store into the constant region was discarded (R238) -/
  constWr : Bool := false
  /-- a constant word it loaded has been restored: its next line carries POISONED (R251) -/
  badConst : Bool := false
  /-- the engine it migrates to (R252) -/
  target : Option Nat := none
  /-- as a target: the kernel is loaded -/
  loaded : Bool := false
  /-- it is to move to a target: it degrades, or a hard fault has stopped it; and the kind of fault, as R252 codes it -/
  moving : Bool := false
  kind : Nat := 0
  deriving DecidableEq, Repr


/-- A line inside a bed: its values, one list a component, and what its tag will say (R211, R212, R242). -/
structure BedRow where
  vals : List (List Int) := []
  /-- a cut marker stands for the line: it has no values -/
  cut : Bool := false
  poison : Bool := false
  bypassA : Bool := false
  bypassB : Bool := false
  deriving DecidableEq, Repr

/-- An input line as the bed took it (R176). -/
structure BedLine where
  tag : List Byte := []
  cut : Bool := false
  sites : List Nat := []
  poison : Bool := false
  deriving DecidableEq, Repr

/-- A small table on chip: its bytes and the 32-byte words that were poisoned (R184, R223). -/
structure BedTable where
  bytes : List Byte := []
  bad : List Nat := []
  deriving DecidableEq, Repr

/-- A frame under development in a bed (R215). -/
structure BedFrame where
  number : Nat := 0
  /-- the bed's input frame: the port-pruned window of the sensor (R160) -/
  left : Nat := 0
  top : Nat := 0
  width : Nat := 0
  height : Nat := 0
  /-- the words of the slot page in force -/
  page : List Nat := []
  /-- small tables in force, by pointer index -/
  tables : SMap BedTable := []
  black : List Int := []
  rawOff : Bool := false
  proxyOff : Bool := false
  /-- the input lines so far, by line -/
  lines : SMap BedLine := []
  /-- no further line will come -/
  ended : Bool := false
  /-- lines after stage 2, after stage 4 and after each kernel of splice point A, and after stage 9 and each kernel of
  splice point B; a line that is missing has no entry -/
  lin : SMap BedRow := []
  a : List (SMap BedRow) := []
  b : List (SMap BedRow) := []
  /-- the next line of each of these, in the same order: lin, a, b -/
  linNext : Nat := 0
  aNext : List Nat := []
  bNext : List Nat := []
  /-- next line of each tap: raw, developed, proxy -/
  taps : List Nat := [0, 0, 0]
  /-- optical-black sums by class: sum and count of stage 1 outputs, and that an OB row is missing (R188) -/
  obSum : List Int := [0, 0, 0, 0]
  obCnt : List Nat := [0, 0, 0, 0]
  obRows : Nat := 0
  /-- pointer indices whose poisoned words have been recorded for this frame, and 8 when the defect map was found out of
  order in it -/
  noted : List Nat := []
  deriving DecidableEq, Repr

/-- Row means of a frame for flicker statistics (R194): short stamp and mean of Gr and Gb in 1/256 L20 units. -/
structure FlkFrame where
  number : Nat
  rows : List (Nat × Int)
  deriving DecidableEq, Repr

/-- A sensor slot of a bed beside its registers (R177). -/
structure BedSlot where
  /-- frames under development or with lines to give, oldest first -/
  frames : List BedFrame := []
  /-- black levels in force by class; none when lost (R188, R224) -/
  black : Option (List Int) := none
  /-- newest first -/
  flk : List FlkFrame := []
  /-- pointer indices whose small table is being copied (R185) -/
  copying : List Nat := []
  /-- small tables copied for a pointer write that waits, and those in force, by pointer index -/
  copied : SMap BedTable := []
  chip : SMap BedTable := []
  deriving DecidableEq, Repr

/-- A bed beside its registers (spec/07_raw_pipeline.md). -/
structure Bed where
  slots : SMap BedSlot := []
  /-- BED[n].CTL as the last unit accepted found it (R215) -/
  ctl : Nat := 15
  /-- clock step that applies at the next unit boundary (R221) -/
  stepDue : Option Nat := none
  /-- frames whose last line a plot tap has written, newest first: tap, slot, frame (R266, R319) -/
  done : List (Nat × Nat × Nat) := []
  deriving DecidableEq, Repr


/-- A substitution in progress at the receiver (R135): the logical lane, the physical lane it leaves, whether the lane
lost its lock, and whether the far end has announced the copy. -/
structure Substitution where
  lane : Nat
  phys : Nat
  lockLoss : Bool
  duplicating : Bool
  deriving DecidableEq, Repr

/-- A Runner beside its registers (spec/05_runner_lanes.md). -/
structure Runner where
  /-- consecutive peer blocks with ACK, by logical lane (R125) -/
  acks : SMap Nat := []
  /-- lanes on which DONE has been received, and sent (R125) -/
  doneRx : SMap Bool := []
  doneTx : SMap Bool := []
  /-- own receiver, and the peer's, passed CHECK at the tier in use (R128) -/
  ownPass : Bool := false
  peerPass : Bool := false
  reqRx : Bool := false
  ackRx : Bool := false
  /-- the next switch goes down to the tier below (R129) -/
  stepDown : Bool := false
  /-- EQUALISE is skipped (R129, R130) -/
  skipEq : Bool := false
  /-- the tier in use is final until the next retraining (R129) -/
  final : Bool := false
  /-- a step-up from ACTIVE is under way from this tier (R130) -/
  floor : Option Nat := none
  /-- coefficients reached, by tier × 16 + lane: the FIR word (R129) -/
  coeffs : SMap Word := []
  /-- last request and its status, by lane (R122, R124) -/
  request : SMap Nat := []
  status : SMap Nat := []
  peerMax : Nat := 7
  subst : Option Substitution := none
  /-- physical lanes that degraded while a training, a step or a substitution was in progress (R139) -/
  waiting : List Nat := []
  /-- the logical lane the transmit spare copies, and drivers turned off (R135) -/
  txCopy : Option Nat := none
  txOff : SMap Bool := []
  /-- masks of good lanes in use after narrowing; 0 while not narrowed (R137) -/
  rxMask : Nat := 0
  txMask : Nat := 0
  /-- the mask of the receiver's own request, until its reply (R137) -/
  narrowing : Option Nat := none
  l1Tx : Bool := false
  l1Rx : Bool := false
  l2 : Bool := false
  /-- relocking out of L2 (R141), and the tier held at its entry -/
  l2Exit : Bool := false
  l2Tier : Nat := 0
  restepTx : Bool := false
  restepRx : Bool := false
  deriving DecidableEq, Repr


/-- A tap line as an encode context takes it (R263). -/
structure EncLine where
  frame : Nat
  line : Nat
  last : Bool
  poison : Bool
  stamp : Nat
  /-- FORMAT and the YCC_2020 and PACK flags of the tag -/
  format : Nat
  flags : Nat
  width : Nat
  height : Nat
  /-- the codes of each component -/
  comps : List (List Nat)
  deriving DecidableEq, Repr

/-- A picture being coded (R264 to R279). -/
structure EncPic where
  number : Nat
  /-- 0 IDR, 1 I, 2 P, 3 B -/
  type : Nat
  frame : Nat
  /-- long stamp of the first input line (R281) -/
  stamp : Nat
  /-- position in the refresh sweep, for a picture of a sweep (R271) -/
  sweep : Option Nat
  poison : Bool
  /-- the CTU row that starvation began in (R279) -/
  starved : Option Nat
  /-- next CTU row to code -/
  row : Nat
  /-- budget, target and the bytes of the access unit so far (R277 to R279) -/
  budget : Nat
  target : Nat
  used : Nat
  /-- bytes of the slice being coded, its index and its free-value index -/
  sliceLen : Nat
  slice : Nat
  sliceId : Nat
  /-- NAL units that precede the first slice, until they are written -/
  lead : List Byte
  /-- items written, and bytes of NAL units in them -/
  items : Nat
  written : Nat
  /-- the picture ends a shed context (R285) -/
  eos : Bool
  /-- FORMAT of the first line, and the size of the tap frame -/
  format : Nat
  flags : Nat
  srcW : Nat
  srcH : Nat
  /-- source rows that have come, and that the last has -/
  rows : SMap (List (List Nat))
  stamps : SMap Nat
  ended : Bool
  /-- coded planes so far, as rows: luma or G, Cb or B, Cr or R (R263) -/
  planes : List (List (List Nat))
  /-- coded bytes of each CTU row -/
  rowBytes : List Nat
  deriving DecidableEq, Repr

/-- An encode context beside its registers (spec/09_encoder.md). -/
structure EncCtx where
  pic : Option EncPic := none
  /-- pictures coded since the context started, and since its last IDR picture -/
  count : Nat := 0
  sinceIdr : Nat := 0
  /-- position of the next picture in the sweep; none before the first IDR picture -/
  sweep : Option Nat := none
  /-- the next picture is an IDR picture (R264, R265) -/
  idrNext : Bool := true
  /-- F: none stands for VBV_INIT (R277) -/
  vbv : Option Nat := none
  /-- tap lines taken and not yet used -/
  inbox : List EncLine := []
  /-- complete frames that wait, oldest first: number and short stamp (R266) -/
  ready : List (Nat × Nat) := []
  /-- lines of this frame are passed over (R264) -/
  skip : Option Nat := none
  /-- frames taken for a group of STRUCT 2, in coding order with their types (R268) -/
  group : List (Nat × Nat × Nat) := []
  shedDue : Bool := false
  /-- coded bytes of each row of the last picture of each type (R278) -/
  rowStats : SMap (List Nat) := []
  /-- picture type, sweep restart and picture number that another cell of the mosaic has decided (R281) -/
  plan : Option (Nat × Bool × Bool) := none
  /-- stamp of the picture before -/
  lastStamp : Option Nat := none
  deriving DecidableEq, Repr

/-- What a CTU of a picture holds (R302, R303): nothing yet; decoded samples, with the vectors of the prediction units at
its top right and bottom left where they are inter-predicted with an L0 reference to the good picture; or a copy from
the good picture by a vector in quarter samples; or the fill. -/
inductive DecCtu where
  | missing
  | decoded (topRight bottomLeft : Option (Int × Int))
  | copied (x y : Int)
  | fill
  deriving DecidableEq, Repr

/-- A parameter set that a decode context holds (R299, R301): the set it refers to and whether the context supports it;
for a sequence parameter set the coded size, the cropped window, chroma format, bit depth and CTU size. -/
structure DecSet where
  parent : Nat := 0
  supported : Bool := true
  width : Nat := 0
  height : Nat := 0
  cropX : Nat := 0
  cropY : Nat := 0
  cropW : Nat := 0
  cropH : Nat := 0
  chroma : Nat := 1
  depth : Nat := 8
  ctb : Nat := 64
  deriving DecidableEq, Repr

/-- A decoded picture (R297 to R305). -/
structure DecPic where
  /-- decoding-order number, and the free-value index of its samples -/
  number : Nat
  id : Nat
  cvs : Nat
  poc : Int
  stamp : Option Nat
  fmt : DecSet
  /-- no inter slice, and an IRAP picture -/
  intra : Bool
  irap : Bool
  ctus : List DecCtu
  concealed : Nat
  errors : Nat
  drift : Bool
  poison : Bool
  hashFail : Bool
  /-- an independent slice segment has come, and the last one was without damage (R300) -/
  indep : Bool
  indepOk : Bool
  /-- address of its last slice segment -/
  lastAddr : Option Nat
  /-- it is output -/
  shown : Bool
  /-- PICTURE of its mosaic descriptor -/
  mosaic : Option Nat
  /-- sample index and format of the good picture that its copies come from (R302) -/
  source : Option (Nat × DecSet)
  deriving DecidableEq, Repr

/-- A whole picture of a decode mosaic that its lead has not yet completed (R306). -/
structure MosPic where
  /-- PICTURE of the descriptor, and the output number -/
  picture : Nat
  out : Nat
  stamp : Option Nat
  poc : Int
  /-- cells that have output it, by context key -/
  cells : List Nat
  flags : Nat
  errors : Nat
  concealed : Nat
  total : Nat
  format : Nat
  deriving DecidableEq, Repr

/-- A decode context beside its registers (spec/10_decoder.md). -/
structure DecCtx where
  /-- input bytes not yet decoded, each with whether it is poisoned (R296) -/
  buf : List (Byte × Bool) := []
  /-- the item the bytes came from was cut, and carried PIC_END -/
  bufCut : Bool := false
  bufEnd : Bool := false
  stamp : Option Nat := none
  sets : SMap (Option DecSet) := []
  cur : Option DecPic := none
  good : Option DecPic := none
  /-- pictures held as references -/
  dpb : List DecPic := []
  /-- pictures that wait for output -/
  waiting : List DecPic := []
  cvs : Nat := 0
  decoded : Nat := 0
  outputs : Nat := 0
  /-- an IRAP picture has been met since the start or since RESYNC -/
  started : Bool := false
  /-- the next IRAP picture starts a sequence; RASL pictures are passed over -/
  fresh : Bool := true
  dropRasl : Bool := false
  drift : Bool := false
  /-- a recovery point SEI for the next picture, and the POC at which recovery completes (R301) -/
  recovery : Option Int := none
  recoveryAt : Option Int := none
  /-- PICTURE and stamp of the mosaic descriptor for the next picture -/
  descriptor : Option (Nat × Nat) := none
  shedDue : Bool := false
  mos : Option MosPic := none
  /-- PICTURE of the whole picture last completed -/
  mosLast : Option Nat := none
  deriving DecidableEq, Repr

/-- A stream context (R257). -/
structure StreamCtx where
  enc : EncCtx := {}
  dec : DecCtx := {}
  deriving DecidableEq, Repr


/-- A scan-out plane beside its registers (R318 to R320). -/
structure HeadPlane where
  /-- the picture shown: frame number of the bed's slot, or output number of a decoder slot; none before the first -/
  shown : Option Nat := none
  /-- the latest poisoned decoder picture passed over -/
  bad : Option Nat := none
  /-- the trug plane has met FIRST in this frame, and an item that waits for its own line -/
  inFrame : Bool := false
  kept : Option (List Byte × Bool) := none
  deriving DecidableEq, Repr

/-- The active line in progress: the codes of each component as sent, and that underrun or damage has filled a part of
it (R325, R331). -/
structure HeadActive where
  comps : List (List Nat) := []
  fill : Bool := false
  /-- underrun has been counted for the line -/
  under : Bool := false
  deriving DecidableEq, Repr

/-- A scan-out head beside its registers (spec/11_scanout.md). -/
structure Head where
  /-- the raster runs -/
  running : Bool := false
  line : Nat := 0
  frame : Nat := 0
  /-- long stamp and RTP time of line 0 of the frame -/
  stamp : Nat := 0
  rtp : Nat := 0
  /-- corrected time line 0 and the line in progress started at, ticks -/
  line0 : Int := 0
  lineAt : Int := 0
  /-- lines of the frame in progress, with those absorbed (R317) -/
  total : Nat := 0
  /-- a slip waits: the end of the frame in progress, and the instant line 0 is to start at, in ticks -/
  slip : Option (Int × Int) := none
  /-- the next active line is the first after a slip -/
  slipMark : Bool := false
  /-- COMMIT_LEAD of the frame -/
  lead : Nat := 0
  planes : SMap HeadPlane := []
  active : Option HeadActive := none
  /-- long stamp of the first active pixel of the line in progress -/
  activeStamp : Nat := 0
  /-- running CRC of each rectangle -/
  crc : SMap Nat := []
  off : Bool := false
  offDue : Bool := false
  deriving DecidableEq, Repr


/-- A drive beside its registers (R386 to R397): what it reports of itself, and its media by byte. -/
structure RecDrive where
  model : List Byte := []
  serial : List Byte := []
  /-- capacity in 4 KiB blocks -/
  blocks : Nat := 0
  /-- media bytes; an unlisted byte reads 0 -/
  media : List Host.Cell := []
  /-- bytes written in all -/
  written : Nat := 0
  deriving DecidableEq, Repr

/-- What an NVMe command does (R386): write bytes, write zeros over a range, flush, deallocate a range, or read. -/
inductive NvmeKind where
  | write (addr : Nat) (data : List Byte)
  | zero (addr len : Nat)
  | flush
  | dealloc (addr len : Nat)
  | read
  deriving DecidableEq, Repr

/-- An NVMe command to a drive; `job` is the job it belongs to, or 0 for a record of a stream. -/
structure NvmeCmd where
  id : Nat
  drive : Nat
  kind : NvmeKind
  job : Nat
  stream : Nat
  /-- number of the record of the stream that it writes -/
  record : Nat
  deriving DecidableEq, Repr

/-- A fetched submission entry (R371): its queue, the head after the fetch, and its 64 bytes. -/
structure RecEntry where
  sq : Nat
  head : Nat
  bytes : List Byte
  deriving DecidableEq, Repr

/-- A completion that waits for its queue (R367, R372). -/
structure RecDone where
  cq : Nat
  sq : Nat
  head : Nat
  cid : Nat
  code : Nat
  zero : Bool
  result : Nat
  deriving DecidableEq, Repr

/-- What follows when a job has done all its NVMe commands. -/
inductive RecAfter where
  | none
  /-- the command completes with a result -/
  | complete (result : Nat)
  /-- MEDIA_FORMAT completes, and the members' layout is valid -/
  | formatted (drives : List Nat) (result : Nat)
  /-- CLIP_READ delivers its bytes -/
  | deliver (data : List Byte) (bad : Bool)
  /-- RECORD_START completes: the descriptor is durable -/
  | started (stream : Nat)
  /-- a checkpoint ends; `final` closes the clip with a STATE -/
  | checkpoint (stream : Nat) (final : Option Nat)
  deriving DecidableEq, Repr

/-- A job: NVMe commands in phases, each phase issued when the one before has completed (R396). -/
structure RecJob where
  id : Nat
  entry : Option RecEntry
  /-- phases to issue, each a list of drive and command -/
  phases : List (List (Nat × NvmeKind))
  /-- commands of the phase in progress that have not completed -/
  waiting : Nat
  /-- status code of a failed command -/
  error : Option Nat
  after : RecAfter
  deriving DecidableEq, Repr

/-- An item in a pre-roll plot (R381 to R384): an item with its long stamp, or a gap of items lost, with its cause. -/
structure RecItem where
  stamp : Nat
  bytes : List Byte
  poison : Bool
  starved : Bool
  /-- 0 an item; else the gap's cause and the items lost -/
  cause : Nat
  lost : Nat
  /-- its record number once its write has been issued -/
  issued : Option Nat
  deriving DecidableEq, Repr

/-- A unit of a clip (R394). -/
structure RecUnit where
  seq : Nat
  drive : Nat
  unit : Nat
  used : Nat
  first : Nat
  last : Nat
  /-- changed since the last checkpoint -/
  dirty : Bool
  deriving DecidableEq, Repr

/-- A mark held for the next checkpoint (R375, R393). -/
structure RecMark where
  stamp : Nat
  type : Nat
  label : List Byte
  deriving DecidableEq, Repr

/-- A recording stream beside its registers (R379). -/
structure RecStream where
  srcKind : Nat := 0
  source : Nat := 0
  slot : Nat := 0
  preroll : Nat := 0
  /-- START_STAMP, none until the first item after the command; PREROLL_TICKS; the stamp the take ends at -/
  start : Option Nat := none
  reach : Nat := 0
  stop : Option Nat := none
  /-- the take has ended: no further item is taken -/
  ended : Bool := false
  disarm : Bool := false
  name : List Byte := []
  /-- members of the set, in SET_MEMBER order -/
  members : List Nat := []
  ring : List RecItem := []
  /-- 0, or the action in force while the plot has no room: 9 hold, 10 wrap (R382) -/
  mode : Nat := 0
  /-- frame and line of a tap plot taken next, and frames complete when the stream was armed -/
  frame : Option (Nat × Nat) := none
  passed : List Nat := []
  units : List RecUnit := []
  /-- records written in the clip, bytes, gaps, and what the descriptor flags -/
  records : Nat := 0
  bytes : Nat := 0
  gaps : Nat := 0
  flags : Nat := 0
  firstStamp : Nat := 0
  lastStamp : Nat := 0
  marks : List RecMark := []
  checkpoints : Nat := 0
  /-- a member of the set has been lost -/
  lost : Bool := false
  /-- the RECORD_STOP that waits, and that it has completed with MEDIA_TEMP -/
  stopEntry : Option RecEntry := none
  stopLate : Bool := false
  /-- a checkpoint job runs; a final one ends the clip as TRUNCATED after a queue reset -/
  checking : Bool := false
  resetting : Bool := false
  deriving DecidableEq, Repr

/-- The recording engine beside its registers (spec/13_recording_queue.md). -/
structure Recorder where
  drives : SMap RecDrive
  sqTail : SMap Nat
  cqHead : SMap Nat
  /-- last queue served of each class, the class of the round in progress, and its turns left (R377) -/
  served : List Nat
  roundClass : Nat
  turns : Nat
  /-- fetched entries, oldest first -/
  fetched : List RecEntry
  /-- completions that wait -/
  done : List RecDone
  jobs : List RecJob
  nvme : List NvmeCmd
  nextId : Nat
  streams : SMap RecStream
  /-- queues whose reset is in progress, and that all are -/
  resets : List Nat
  resetAll : Bool
  /-- SPLIT and EN in force, by root port (R385) -/
  split : SMap Bool
  off : SMap Bool
  deriving DecidableEq, Repr



/-- A Nawen item as it waits to be forwarded (R411): its header word and its payload words. -/
structure NawenItem where
  header : List Byte
  words : List NawenWord
  deriving DecidableEq, Repr

/-- A hedgerow port beside its registers (spec/14_hedgerow.md). -/
structure HedgePort where
  /-- a Runner of it is in ACTIVE, as its two ends last saw it (R428) -/
  up : Bool := false
  /-- the peer's first HELLO since then has come (R419) -/
  helloSeen : Bool := false
  /-- items that wait to be forwarded by this port, oldest first (R411) -/
  fwd : List NawenItem := []
  /-- it sends the wake pattern (R426) -/
  waving : Bool := false
  /-- its Runners are off because it is broken (R420) -/
  brokenOff : Bool := false
  deriving DecidableEq, Repr

/-- A graft transfer as its chunks come (R424): what has come so far, or how it has failed: none, or the first byte of the
first chunk missing or damaged. -/
structure HedgeGather where
  id : Nat
  len : Nat
  bytes : List Byte
  deriving DecidableEq, Repr

/-- The hedgerow block beside its registers (spec/14_hedgerow.md). -/
structure Hedgerow where
  ports : SMap HedgePort := []
  /-- Runners that are within a run of words without a valid header (R405) -/
  badRun : SMap Bool := []
  /-- the device's own EPOCH (R416) -/
  epoch : Nat := 0
  /-- pending address and its epoch -/
  pend : Option (Nat × Nat) := none
  /-- a token has been sent and not yet acknowledged; one waits for the downstream port (R430) -/
  tokenOut : Bool := false
  tokenDue : Bool := false
  /-- a JOIN has come during an enumeration (R430) -/
  again : Bool := false
  /-- the head has sent its first token, and its downstream port has been ACTIVE since (R416) -/
  started : Bool := false
  headUp : Bool := false
  /-- the last ENUM_DONE closed a ring -/
  ring : Bool := false
  /-- SEQ of the outstanding TIME_REQ and t1 in ticks (R421) -/
  timeReq : Option (Nat × Int) := none
  timeSeq : Nat := 0
  /-- the last 16 link delays, newest first, 1/256 ns -/
  delays : List Int := []
  gather : Option HedgeGather := none
  /-- TRANSFER_ID of the image whose check runs, and the transfer staged and checked (R424, R425) -/
  checking : Option Nat := none
  staged : Option (Nat × List Byte) := none
  /-- AT of the commit that waits -/
  commitAt : Option Nat := none
  /-- item numbers by stream (R404) -/
  seqs : SMap Nat := []
  deriving DecidableEq, Repr



/-- An audio endpoint beside its registers (spec/15_audio.md). -/
structure AudEp where
  /-- input: stamp and FLAGS of the block in progress, and its frames so far, each a list of slots -/
  stamp : Nat := 0
  flags : Nat := 0
  frames : List (List Nat) := []
  /-- blocks written since the endpoint started, and their stamps, newest first -/
  written : Nat := 0
  stamps : List Nat := []
  /-- muted slot pairs: frames since the last preamble (R443) -/
  muted : SMap (Option Nat) := []
  /-- channel status marks pair 0 as non-audio -/
  csMute : Bool := false
  /-- output: the source block it is to begin with (R441) -/
  target : Option Nat := none
  /-- source block and frame due next; none before it begins -/
  pos : Option (Nat × Nat) := none
  /-- own frames since it began, and the boundary of this count has been dealt with -/
  count : Nat := 0
  bounded : Bool := false
  /-- zero frames until this instant, in ticks -/
  wait : Option Int := none
  /-- own block boundaries, newest first: their long stamps -/
  edges : List Nat := []
  deriving DecidableEq, Repr

/-- An ST 2110-30 sender beside its registers (R445): the source block and frame of its next packet, and the RTP sequence
number. -/
structure AudTx where
  pos : Option (Nat × Nat) := none
  seq : Nat := 0
  deriving DecidableEq, Repr

/-- The audio block beside its registers. -/
structure Audio where
  eps : SMap AudEp := []
  txs : SMap AudTx := []
  deriving DecidableEq, Repr



/-- Boundary-scan instructions (R520). -/
inductive TapInstr where
  | extest | samplePreload | idcode | clamp | highz | bypass
  deriving DecidableEq, Repr

/-- The TAP (R520): the instruction loaded, whether it acts as itself or as BYPASS, and the ball levels captured. -/
structure Tap where
  instr : TapInstr := .idcode
  acts : Bool := true
  captured : List Bool := []
  deriving DecidableEq, Repr



/-- The whole state of the block. -/
structure State where
  variant : Variant
  /-- register window: the words that differ from their reset value, by offset (R11, R27) -/
  regs : SMap Word
  /-- low words of 64-bit registers held until their high word is written, by offset (R12) -/
  held : SMap Word
  /-- shadowed and staged writes that wait for their boundary or commit, oldest first (R13) -/
  staged : List (Nat × Word)
  /-- a record has been written into the log ring since it was last empty by a reset (R39, R41) -/
  ringUsed : Bool
  time : TimeBase
  trugs : SMap Trug
  hbm : Hbm
  twine : Twine
  mail : SMap MailPage
  flash : Flash
  fuses : Fuses
  seed : Seed
  power : Power
  ingest : Ingest
  runners : SMap Runner
  /-- Gardener messages that wait for a free slot of the report channel (R47, R474) -/
  mailWait : List (List Byte)
  engines : SMap PeEngine
  beds : SMap Bed
  streams : SMap StreamCtx
  heads : SMap Head
  recorder : Recorder
  hedge : Hedgerow
  audio : Audio
  tap : Tap
  /-- result of the last read command: its words, lowest first (R84, R102, R334, R477, BAR2 reads) -/
  lastRead : List Nat
  /-- MSI-X vectors raised, oldest first (R31) -/
  msix : List Nat
  /-- what the block has sent out, oldest first -/
  out : List Output
  /-- the model's own: index of the next free value -/
  freeCtr : Nat
  /-- commands that wait, first in first out -/
  pending : List Instr
  deriving DecidableEq, Repr


/-- The block right after a power-on reset, on the largest bonding: every register at its reset value, seeding due,
nothing waiting. -/
def State.reset : State where
  variant := .qc8816
  regs := []
  held := []
  staged := []
  ringUsed := false
  time :=
    { counter := 0#64, phase := 0#8, integral := 0, locks := 0, discards := 0, acq := 0, firstTheta := 0, firstAt := 0
      masters := [], best := none, sync := none, delayReq := none, delaySeq := 0, pathKnown := false
      frefs := [], gens := [] }
  trugs := []
  hbm :=
    { bytes := [], poison := [], unbacked := [], moved := [], pcs := [], age := 0, level := [], panic := []
      discard := [], dropped := [] }
  twine :=
    { due := [], tasks := [], knots := [], evtOut := [], evtIn := [], lastEvent := [], lastDis := [], lastOff := []
      lastEn := [], pulses := [] }
  mail := []
  flash := { order := 0#8, enable := 0#4, fwSelect := false, fwA := [], fwB := [], slots := [], cal := [] }
  fuses := { slotState := 0#8, hashes := [], tarborOff := false }
  seed :=
    { image := [], running := false, due := 1, job := none, pllFails := 0, fwFails := 0, locked := none, burn := none
      keyHash := [], cal := [] }
  power :=
    { resetLow := false, powerGood := true, railFault := 0, entering := 0, wakeWaits := 0, softReset := 0#21
      wdtFrom := 0#64, wdtOn := false, pcieUp := false, msixOn := false, held66 := false, held67 := false
      thermAlert := false, thermTrip := false, samples := [], hotRun := [], reliefRun := 0, grace := false
      stepTimer := false, relieved := false, steps := [], coolRun := 0, restartLevel := 0, tripDue := none
      usedSteps := [], bypassClosed := true, forced := [], pcieWakeLow := false, driveReset := true }
  ingest := { matchers := [], ports := [], bands := [], mergers := [] }
  runners := []
  mailWait := []
  engines := []
  beds := []
  streams := []
  heads := []
  recorder :=
    { drives := [], sqTail := [], cqHead := [], served := [63, 63, 63, 63], roundClass := 3, turns := 0, fetched := [], done := []
      jobs := [], nvme := [], nextId := 1, streams := [], resets := [], resetAll := false, split := [], off := [] }
  hedge := {}
  audio := {}
  tap := {}
  lastRead := []
  msix := []
  out := []
  freeCtr := 0
  pending := []

end Sys2Proof.Machine
end

