-- ==== Sys2Proof/Machine/Ops.lean ====
section
/-!
DEFINITION. The named operations every block shares: register access by field, the access codes of a register write,
saturating counters, vectors, stamps, the Gardener log, plot space, trugs and the sending of Twine events.
-/

namespace Sys2Proof.Machine

/-! ## Numbers and bytes (R8 to R10) -/

/-- Bits [lo + w - 1 : lo] of a number. -/
def bitsOf (v lo w : Nat) : Nat := v / 2 ^ lo % 2 ^ w

/-- A number with bits [lo + w - 1 : lo] replaced. -/
def setBitsOf (v lo w x : Nat) : Nat := v - bitsOf v lo w * 2 ^ lo + x % 2 ^ w * 2 ^ lo

/-- The two's-complement reading of a number of width `w`. -/
def signedOf (w : Nat) (v : Nat) : Int :=
  if v % 2 ^ w < 2 ^ (w - 1) then (v % 2 ^ w : Nat) else (v % 2 ^ w : Nat) - (2 ^ w : Nat)

/-- The two's-complement pattern of an integer at width `w`. -/
def patternOf (w : Nat) (v : Int) : Nat := (v % (2 ^ w : Nat)).toNat

/-- Merge two sorted lists; `fuel` bounds their lengths together, and of equal elements the first list's come first. -/
def mergeBy {α : Type} (le : α → α → Bool) : Nat → List α → List α → List α
  | 0, _, _ => []
  | _ + 1, [], l => l
  | _ + 1, l, [] => l
  | fuel + 1, a :: l, b :: r => if le a b then a :: mergeBy le fuel l (b :: r) else b :: mergeBy le fuel (a :: l) r

/-- Merge neighbouring lists. -/
def mergePairs {α : Type} (le : α → α → Bool) : List (List α) → List (List α)
  | a :: b :: r => mergeBy le (a.length + b.length) a b :: mergePairs le r
  | l => l

/-- Merge lists until one is left; `fuel` bounds their number. -/
def mergeLists {α : Type} (le : α → α → Bool) : Nat → List (List α) → List α
  | 0, l => l.headD []
  | _ + 1, [] => []
  | _ + 1, [a] => a
  | fuel + 1, l => mergeLists le fuel (mergePairs le l)

/-- A list in the order of `le`; equal elements keep their order. -/
def sortBy {α : Type} (le : α → α → Bool) (l : List α) : List α := mergeLists le l.length (l.map ([·]))

/-- A truth value as a bit. -/
def b2n (b : Bool) : Nat := if b then 1 else 0

/-- An integer held within bounds. -/
def clampInt (lo hi v : Int) : Int := max lo (min hi v)

/-- The `n` low bytes of a number, little-endian (R10). -/
def leBytes : Nat → Nat → List Byte
  | 0, _ => []
  | n + 1, v => BitVec.ofNat 8 v :: leBytes n (v / 256)

/-- The number a little-endian byte list spells (R10). -/
def leNat : List Byte → Nat
  | [] => 0
  | b :: r => b.toNat + 256 * leNat r

/-- Byte `o` of a byte list; 0 beyond its end. -/
def byteAt (l : List Byte) (o : Nat) : Nat := (l.getD o 0#8).toNat

/-- The `n`-byte little-endian field at byte `o`. -/
def fieldAt (l : List Byte) (o n : Nat) : Nat := leNat ((l.drop o).take n)

/-- A byte list of exactly `n` bytes: cut, or filled with zero. -/
def padTo (n : Nat) (l : List Byte) : List Byte := l.take n ++ List.replicate (n - l.length) 0#8

/-! ## The register tables (R4, R13, R17) -/

/-- Instances of a kind on a bonding (R1, R4). Mergers 0 to 15 belong to the beds, 16 to 31 to the egress groups, and
splice points to the beds, two each. -/
def InstKind.count (v : Variant) : InstKind → Nat
  | .one => 1
  | .runner => v.runners
  | .bed => v.beds
  | .merger => 32
  | .pe => v.pes
  | .splice => 2 * v.beds
  | .head => v.heads
  | .stack => v.hbmStacks

/-- Whether an instance is present (R2, R4). -/
def InstKind.present (v : Variant) (k : InstKind) (i : Nat) : Bool :=
  match k with
  | .one => true
  | .merger => decide (i < v.beds ∨ 16 ≤ i)
  | k => decide (i < k.count v)

/-- Whether a distance from an array's base is one of its elements. -/
def inDims : List (Nat × Nat) → Nat → Bool
  | [], r => r == 0
  | (c, st) :: t, r => decide (r / st < c) && inDims t (r % st)

/-- The outermost index of a distance from an array's base. -/
def outerIndex (ds : List (Nat × Nat)) (r : Nat) : Nat :=
  match ds with
  | [] => 0
  | (_, st) :: _ => r / st

/-- The row of a table that holds an offset. -/
def findDesc (l : List RegDesc) (off : Nat) : Option RegDesc :=
  l.find? fun d => decide (d.base ≤ off) && inDims d.dims (off - d.base)

/-- The table of the range an offset lies in (R27). -/
def blockTable (off : Nat) : List RegDesc :=
  (regBlocks.foldl (fun acc p => if p.1 ≤ off then some p.2 else acc) none).getD []

/-- The register word at an offset, if the manual places one there. -/
def descAt (off : Nat) : Option RegDesc := findDesc (blockTable off) off

/-- The reset value of a row on a bonding. -/
def ResetValue.value (v : Variant) : ResetValue → Nat
  | .same x => x
  | .per a b c => match v with | .qc8816 => a | .qc8808 => b | .qc8804 => c

/-- The reset value of the word at an offset; an offset that holds no register reads 0 (R14). -/
def resetWord (v : Variant) (off : Nat) : Word :=
  match descAt off with
  | some d => BitVec.ofNat 32 (d.reset.value v)
  | none => 0#32

/-- Whether the instance that owns an offset is present on the bonding (R4). -/
def presentAt (v : Variant) (off : Nat) : Bool :=
  match descAt off with
  | some d => d.inst.present v (outerIndex d.dims (off - d.base))
  | none => true

/-! ## Registers and fields -/

/-- The word a register holds. -/
def State.rd (s : State) (off : Nat) : Word := s.regs.get (resetWord s.variant) off

/-- Write a register's word, whatever its access codes. -/
def State.wr (s : State) (off : Nat) (v : Word) : State :=
  { s with regs := s.regs.set (resetWord s.variant) off v }

/-- The value of a field; a field of a 64-bit register may lie across its two words. -/
def State.getF (s : State) (f : Field) : Nat :=
  bitsOf ((s.rd f.off).toNat + (if 32 < f.lo + f.width then (s.rd (f.off + 4)).toNat * 2 ^ 32 else 0)) f.lo f.width

/-- Set a field. -/
def State.setF (s : State) (f : Field) (v : Nat) : State :=
  if f.lo + f.width ≤ 32 then
    s.wr f.off (BitVec.ofNat 32 (setBitsOf (s.rd f.off).toNat f.lo f.width v))
  else
    let x := setBitsOf ((s.rd f.off).toNat + (s.rd (f.off + 4)).toNat * 2 ^ 32) f.lo f.width v
    (s.wr f.off (BitVec.ofNat 32 x)).wr (f.off + 4) (BitVec.ofNat 32 (x / 2 ^ 32))

/-- A signed field. -/
def State.getS (s : State) (f : Field) : Int := signedOf f.width (s.getF f)

/-- A one-bit field as a truth value. -/
def State.bit (s : State) (f : Field) : Bool := s.getF f == 1

/-- Set a sticky or status bit. -/
def State.flag (s : State) (f : Field) : State := s.setF f 1

/-- Clear a status bit. -/
def State.unflag (s : State) (f : Field) : State := s.setF f 0

/-- Set or clear a status bit. -/
def State.setB (s : State) (f : Field) (b : Bool) : State := s.setF f (if b then 1 else 0)

/-- Add to a counter that saturates at its all-ones value (R16). -/
def State.addF (s : State) (f : Field) (n : Nat) : State := s.setF f (min (s.getF f + n) (2 ^ f.width - 1))

/-- Count one event (R16). -/
def State.bump (s : State) (f : Field) : State := s.addF f 1

/-- When a condition holds, change the state. -/
def State.when (s : State) (c : Bool) (f : State → State) : State := if c then f s else s

/-- Send something out of the block. -/
def State.emit (s : State) (o : Output) : State := { s with out := s.out ++ [o] }

/-- A free value: the spec states none, and nothing constrains it. -/
def State.free (s : State) : Nat := Config.freeNat s.freeCtr

/-- Use a free value up. -/
def State.freed (s : State) : State := { s with freeCtr := s.freeCtr + 1 }

/-! ## Vectors (R31) -/

/-- Whether a vector's source is present on the bonding; reserved vectors never fire (R31). -/
def vectorPresent (v : Variant) (n : Nat) : Bool :=
  if n < 388 then true
  else if n < 404 then decide (n - 388 < v.beds)
  else if n < 420 then decide (n - 404 < v.beds)
  else if n < 484 then decide (n - 420 < v.runners)
  else if n < 512 then true
  else decide (n - 512 < v.hbmStacks)

/-- Raise an MSI-X vector: it fires when the host has enabled MSI-X and the link is up. -/
def State.raise (s : State) (n : Nat) : State :=
  if s.power.msixOn && s.power.pcieUp && vectorPresent s.variant n then { s with msix := s.msix ++ [n] } else s

/-- Raise vector 67, or hold it until the host enables MSI-X (R67). -/
def State.raise67 (s : State) : State :=
  if s.power.msixOn then s.raise 67 else { s with power := { s.power with held67 := true } }

/-! ## Time (R77 to R82) -/

/-- The raw tick count N (R78). -/
def State.ticks (s : State) : Nat :=
  (s.time.counter.toNat * 256 + (if s.bit F.TIME_STATUS_INTERP_LOCK then s.time.phase.toNat else 0)) % 2 ^ 64

/-- TIME_OFFSET in units of 2^-16 ns, which are 2^-11 tick (R79). -/
def State.offsetUnits (s : State) : Int :=
  ((s.getF F.TIME_OFFSET_SEC_SEC * 1000000000 + s.getF F.TIME_OFFSET_NS_NS) * 65536
    + s.getF F.TIME_OFFSET_SEC_FRAC : Nat)

/-- Corrected time at raw tick count `n`, in units of 2^-16 ns (R79). -/
def State.corrAt (s : State) (n : Nat) : Int :=
  let e : Nat := (n + 2 ^ 64 - s.getF F.TIME_EPOCH_EPOCH) % 2 ^ 64
  s.offsetUnits + e * 2048 + (e : Int) * s.getS F.TIME_RATE_RATE / (2 ^ 37 : Nat)

/-- Corrected time now, in units of 2^-16 ns. -/
def State.corr (s : State) : Int := s.corrAt s.ticks

/-- Corrected time now in whole ticks, without wrap. -/
def State.corrTicks (s : State) : Int := s.corr / 2048

/-- The long stamp taken now (R81). -/
def State.longStamp (s : State) : Nat := patternOf 64 s.corrTicks

/-- The short stamp taken now (R81). -/
def State.shortStamp (s : State) : Nat := s.longStamp % 2 ^ 48

/-- The signed difference of two stamps of width `w` (R82). -/
def stampDiff (w a b : Nat) : Int := signedOf w (a + 2 ^ w - b % 2 ^ w)

/-- Stamp `a` is later than `b` (R82). -/
def stampLater (w a b : Nat) : Bool := decide (0 < stampDiff w a b)

/-! ## The running image (R50 to R54) -/

/-- Record size in bytes of each section type of fixed size; 0 for the others (R54). -/
def recordSize : Nat → Nat
  | 0x01 => 8 | 0x02 => 128 | 0x03 => 32 | 0x05 => 16 | 0x07 => 32 | 0x08 => 64 | 0x09 => 256
  | 0x0A => 8 | 0x0B => 16 | 0x0C => 16 | 0x0D => 8 | 0x0E => 8 | _ => 0

/-- Directory entries in use (R53). -/
def sectionCount (img : List Byte) : Nat := min (fieldAt img 12 2) 32

/-- The directory entry of a section type (R52, R53). -/
def findSection (img : List Byte) (t : Nat) : Option Nat :=
  (List.range (sectionCount img)).find? fun n => byteAt img (32 + 16 * n) == t

/-- The byte offset and the record count of a section; an absent section has no records (R53). -/
def sectionAt (img : List Byte) (t : Nat) : Nat × Nat :=
  match findSection img t with
  | some n => (fieldAt img (36 + 16 * n) 4, fieldAt img (34 + 16 * n) 2)
  | none => (0, 0)

/-- The byte offsets of the records of a section of fixed record size. -/
def recordOffsets (img : List Byte) (t : Nat) : List Nat :=
  let (o, c) := sectionAt img t
  (List.range c).map fun i => o + recordSize t * i

/-- The record of a section whose `n`-byte field at `o` equals `v`: its byte offset. -/
def findRecord (img : List Byte) (t o n v : Nat) : Option Nat :=
  (recordOffsets img t).find? fun r => fieldAt img (r + o) n == v

/-- A field of the running image's record that names instance `v` in its field at `o`; `d` where no record does. -/
def State.recField (s : State) (t o n v fo fn d : Nat) : Nat :=
  match findRecord s.seed.image t o n v with
  | some r => fieldAt s.seed.image (r + fo) fn
  | none => d

/-! ## The calibration store in use (R502 to R504) -/

/-- The byte offset of a part of a calibration store; none when the store has no such part (R502). -/
def calPart (cal : List Byte) (t : Nat) : Option Nat :=
  ((List.range 6).find? fun k => byteAt cal (16 + 16 * k) == t && fieldAt cal (24 + 16 * k) 4 != 0).map
    fun k => fieldAt cal (20 + 16 * k) 4

/-- A field of a part of the store in use; `d` while the store or the part is absent (R504). -/
def State.calField (s : State) (t o n d : Nat) : Nat :=
  match calPart s.seed.cal t with
  | some p => fieldAt s.seed.cal (p + o) n
  | none => d

/-- Transmit and receive latency, in ticks, of port-latency entry `i`: Ethernet 0 and 1, then Runners 0 to 3 and 12 to
15 (R502). -/
def State.txLatency (s : State) (i : Nat) : Nat := s.calField 6 (8 * i) 4 0
def State.rxLatency (s : State) (i : Nat) : Nat := s.calField 6 (8 * i + 4) 4 0

/-- The fast domains run: neither Dormant, Fallow, waking from Fallow nor tripped (R482, R487, R499). -/
def State.fastOn (s : State) : Bool :=
  decide (s.getF F.PWR_STATUS_STATE < 2)

/-- Block `b` works: the fast domains run and no soft reset holds it (R489). -/
def State.up (s : State) (b : Nat) : Bool := s.fastOn && !s.power.softReset.getLsbD b

/-- A write does not reach a block: GLB_ERR.REG_IN_RESET tells it (R28), unless the window itself is out of reach in
Fallow or after a trip (R484, R499). -/
def State.inReset (s : State) : State :=
  s.when (s.getF F.PWR_STATUS_STATE != 3 && s.getF F.PWR_STATUS_STATE != 5) (·.flag F.GLB_ERR_REG_IN_RESET)

/-- Whether accesses reach a block (R28, R74, R484, R489): the ranges the Rootstock controller serves always; the others
while an image runs, the fast domains run and no soft reset holds the block. -/
def State.reaches (s : State) (b : Nat) : Bool :=
  b == 0 || b == 15 || b == 16 || (s.seed.running && s.up b)

/-- A register access acts where it reaches its block, and completes as R28 states elsewhere. -/
def State.bus (s : State) (b : Nat) (f : State → State) : State := if s.reaches b then f s else s.inReset

/-! ## Plots (R339, R340) -/

/-- A plot of the running image. -/
structure Plot where
  index : Nat
  kind : Nat
  access : Nat
  base : Nat
  size : Nat
  deriving DecidableEq, Repr

/-- The plot map record at a byte offset (R340). -/
def plotOf (img : List Byte) (r : Nat) : Plot :=
  { index := fieldAt img r 2, kind := byteAt img (r + 2), access := byteAt img (r + 3),
    base := fieldAt img (r + 8) 8, size := fieldAt img (r + 16) 8 }

/-- The plots of the running image. -/
def State.plots (s : State) : List Plot := (recordOffsets s.seed.image 0x07).map (plotOf s.seed.image)

/-- The plot of an index. -/
def State.plot? (s : State) (i : Nat) : Option Plot := s.plots.find? fun p => p.index == i

/-- The plot that holds an address. -/
def State.plotAt (s : State) (a : Nat) : Option Plot :=
  s.plots.find? fun p => decide (p.base ≤ a) && decide (a < p.base + p.size)

/-- A byte of plot space as stored. -/
def Hbm.byte (h : Hbm) (a : Nat) : Byte := SMap.at 0#8 h.bytes a

/-- `n` bytes of plot space as stored. -/
def Hbm.read (h : Hbm) (a : Nat) : Nat → List Byte
  | 0 => []
  | n + 1 => h.byte a :: Hbm.read h (a + 1) n

/-- Store bytes in plot space. -/
def Hbm.write (h : Hbm) (a : Nat) : List Byte → Hbm
  | [] => h
  | b :: r => Hbm.write { h with bytes := SMap.put 0#8 h.bytes a b } (a + 1) r

/-- Whether the word that holds an address reads as poisoned or is unbacked (R346, R361). -/
def Hbm.bad (h : Hbm) (a : Nat) : Bool := h.poison.at false (a / 32) || h.unbacked.at false (a / 256)

/-- Whether any word of a range reads as poisoned. -/
def Hbm.badRange (h : Hbm) (a n : Nat) : Bool :=
  (List.range (n / 32 + 2)).any fun i => decide (a / 32 + i ≤ (a + n - 1) / 32) && decide (0 < n) && h.bad ((a / 32 + i) * 32)

/-- Store a block's bytes at an address: bytes of unbacked chunks are dropped (R361); a whole-word write replaces the
poison pattern and a partial one leaves it (R346). -/
def Hbm.store (h : Hbm) (a : Nat) (l : List Byte) : Hbm :=
  let h1 := l.zipIdx.foldl (fun (h' : Hbm) (b, i) =>
    if h.unbacked.at false ((a + i) / 256) then h' else { h' with bytes := SMap.put 0#8 h'.bytes (a + i) b }) h
  let words := (List.range (l.length / 32 + 2)).map (a / 32 + ·)
  let whole := words.filter fun w => decide (a ≤ w * 32) && decide (w * 32 + 32 ≤ a + l.length)
  { h1 with poison := whole.foldl (fun m w => m.put false w false) h1.poison }

/-- Store the word that holds an address with the poison pattern (R346). -/
def Hbm.mark (h : Hbm) (a : Nat) : Hbm := { h with poison := h.poison.put false (a / 32) true }

/-- A block writes plot space; a write to an unbacked chunk sets MEM_ERR.UNBACKED (R361). -/
def State.plotWrite (s : State) (a : Nat) (l : List Byte) : State :=
  let un := l.zipIdx.any fun (_, i) => s.hbm.unbacked.at false ((a + i) / 256)
  let s1 := { s with hbm := s.hbm.store a l }
  if un then
    let s2 := s1.flag F.MEM_ERR_UNBACKED
    if s2.bit F.MEM_CTL_MSIX_EN then s2.raise 512 else s2
  else s1

/-- A block reads plot space: the bytes, and whether any word of them was poisoned. -/
def State.plotRead (s : State) (a n : Nat) : List Byte × Bool := (s.hbm.read a n, s.hbm.badRange a n)

/-! ## The Gardener log (R37 to R42, R523) -/

/-- A concession or event record (R37). -/
structure LogRec where
  stamp : Nat
  block : Nat
  flags : Nat
  inst : Nat
  broken : Nat
  kept : Nat
  reason : Nat
  rep : Nat
  detail : Nat
  last : Nat
  deriving DecidableEq, Repr

/-- The eight words of a record (R37). -/
def LogRec.words (r : LogRec) : List Nat :=
  [r.stamp % 2 ^ 32, r.stamp / 2 ^ 32 % 2 ^ 32, r.block + 256 * r.flags + 65536 * r.inst,
   r.broken + 256 * r.kept + 65536 * r.reason, r.rep, r.detail, r.last % 2 ^ 32, r.last / 2 ^ 32 % 2 ^ 32]

/-- The record a mirror slot holds (R41). -/
def State.mirror (s : State) (i : Nat) : LogRec :=
  let w (j : Nat) : Nat := (s.rd (R.GLB_LOG_RET i j)).toNat
  { stamp := w 0 + w 1 * 2 ^ 32, block := bitsOf (w 2) 0 8, flags := bitsOf (w 2) 8 8, inst := bitsOf (w 2) 16 16,
    broken := bitsOf (w 3) 0 8, kept := bitsOf (w 3) 8 8, reason := bitsOf (w 3) 16 16, rep := w 4, detail := w 5,
    last := w 6 + w 7 * 2 ^ 32 }

/-- Write a record into a mirror slot. -/
def State.putMirror (s : State) (i : Nat) (r : LogRec) : State :=
  r.words.zipIdx.foldl (fun s' (w, j) => s'.wr (R.GLB_LOG_RET i j) (BitVec.ofNat 32 w)) s

/-- Entries of the log ring (R40). -/
def State.logSize (s : State) : Nat := 2 ^ (s.getF F.GLB_LOG_CTL_SIZE_LOG2 + 10)

/-- Plot-space address of ring entry `i`. -/
def State.logAddr (s : State) (i : Nat) : Nat := s.getF F.GLB_LOG_BASE_ADDR * 32 + 32 * i

/-- Write a record at a ring entry. -/
def State.putRing (s : State) (i : Nat) (r : LogRec) : State :=
  s.plotWrite (s.logAddr i) (r.words.flatMap (leBytes 4))

/-- The Gardener advances RD_INDEX and counts the lost record when the ring is full (R40). -/
def State.logMakeRoom (s : State) : State :=
  let n := s.logSize
  if (s.getF F.GLB_LOG_WR_WR_INDEX + 1) % n = s.getF F.GLB_LOG_RD_RD_INDEX then
    (s.setF F.GLB_LOG_RD_RD_INDEX ((s.getF F.GLB_LOG_RD_RD_INDEX + 1) % n)).bump F.GLB_LOG_LOST_LOST
  else s

/-- Write a new record: into the ring where one exists (R40), and always into the mirror slot GLB_LOG_RET_WR names
(R41, R523). A concession record raises vector 66 (R39); one that reaches the mirror alone waits for MSI-X (R523). -/
def State.logNew (s : State) (r : LogRec) : State :=
  let slot := s.getF F.GLB_LOG_RET_WR_SLOT
  let s1 := (s.putMirror slot r).setF F.GLB_LOG_RET_WR_SLOT ((slot + 1) % 64)
  let vec := s1.bit F.GLB_LOG_CTL_MSIX_EN && bitsOf r.flags 2 1 == 0
  if s1.seed.running then
    let s2 := s1.logMakeRoom
    let w := s2.getF F.GLB_LOG_WR_WR_INDEX
    let s3 := (s2.putRing w r).setF F.GLB_LOG_WR_WR_INDEX ((w + 1) % s2.logSize)
    let s4 := { s3 with ringUsed := true }
    if vec then s4.raise 66 else s4
  else if vec then
    if s1.power.msixOn then s1.raise 66 else { s1 with power := { s1.power with held66 := true } }
  else s1

/-- Whether an occurrence merges into the newest record (R39). -/
def LogRec.merges (old new : LogRec) : Bool :=
  bitsOf old.flags 0 1 == 1 && old.block == new.block && old.inst == new.inst && old.broken == new.broken
    && old.kept == new.kept && old.reason == new.reason
    && decide (0 ≤ stampDiff 64 new.stamp old.last) && decide (stampDiff 64 new.stamp old.last ≤ 32000000)

/-- An occurrence reaches the Gardener log: it merges into the newest record in the mirror and in the ring, or writes
a new one (R39, R41, R523). -/
def State.log (s : State) (r : LogRec) : State :=
  let slot := (s.getF F.GLB_LOG_RET_WR_SLOT + 63) % 64
  let old := s.mirror slot
  if old.merges r then
    let new := { old with rep := min (old.rep + 1) (2 ^ 32 - 1), last := r.stamp }
    let s1 := s.putMirror slot new
    if s.seed.running && s.ringUsed then
      s1.putRing ((s.getF F.GLB_LOG_WR_WR_INDEX + s.logSize - 1) % s.logSize) new
    else s1
  else s.logNew r

/-- The Gardener writes a concession record stamped now (R35, R37). -/
def State.concede (s : State) (block inst broken kept reason detail : Nat) : State :=
  s.log { stamp := s.longStamp, block, flags := 1, inst, broken, kept, reason, rep := 1, detail, last := s.longStamp }

/-- The Gardener writes an event record stamped now (R42). -/
def State.event (s : State) (reason block inst detail : Nat) : State :=
  s.log { stamp := s.longStamp, block, flags := 5, inst, broken := 0, kept := 0, reason, rep := 1, detail,
          last := s.longStamp }

/-! ## Twine sources (R451, R452) -/

/-- Whether the device is Growing (R482). -/
def State.growing (s : State) : Bool := s.getF F.PWR_STATUS_STATE == 0

/-- The Rootstock domain alone runs: Dormant or Fallow (R482). -/
def State.asleep (s : State) : Bool := s.getF F.PWR_STATUS_STATE == 2 || s.getF F.PWR_STATUS_STATE == 3

/-- Whether Twine fires: from the end of seeding step 7 of an image until the next reset (R74, R480), and
not during its soft reset. -/
def State.twineRuns (s : State) : Bool :=
  s.seed.running && s.getF F.PWR_STATUS_STATE != 5 && !s.power.softReset.getLsbD 12

/-- An event source fires: each channel whose record names it carries an event (R450, R451), in Dormant and Fallow
for sources 0 to 31 and 160 to 169 only (R452). -/
def State.fireSource (s : State) (src : Nat) : State :=
  if !s.twineRuns || (s.asleep && !(decide (src < 32) || (decide (160 ≤ src) && decide (src < 170)))) then s
  else
    let chs := s.regs.filterMap fun (o, w) =>
      if decide (R.TWN_CH_CFG 0 ≤ o) && decide (o < R.TWN_CH_CFG 256) && (o - R.TWN_CH_CFG 0) % 0x20 == 0
          && bitsOf w.toNat 26 1 == 1 && bitsOf w.toNat 0 16 == src then some ((o - R.TWN_CH_CFG 0) / 0x20) else none
    { s with twine := { s.twine with due := s.twine.due ++ chs.map fun c => { channel := c, tick := s.ticks } } }

end Sys2Proof.Machine
end

