-- ==== Sys2Proof/Machine/Qoreth.lean ====
section
/-!
DEFINITION. The Qoreth code (R344 to R346): arithmetic of GF(2^8), the check symbols of a word, and the decoder.
-/

namespace Sys2Proof.Machine

/-- Multiply by x in GF(2^8) with x^8 + x^4 + x^3 + x^2 + 1 (R344). -/
def gfDouble (a : Nat) : Nat := if a < 128 then 2 * a else (2 * a) ^^^ 0x11D

/-- Product in GF(2^8), over `n` bits of the second factor. -/
def gfMulN : Nat → Nat → Nat → Nat
  | 0, _, _ => 0
  | n + 1, a, b => (if b % 2 = 1 then a else 0) ^^^ gfMulN n (gfDouble a) (b / 2)

/-- Product in GF(2^8). -/
def gfMul (a b : Nat) : Nat := gfMulN 8 a b

/-- Power in GF(2^8). -/
def gfPow (a : Nat) : Nat → Nat
  | 0 => 1
  | n + 1 => gfMul a (gfPow a n)

/-- α to a power, α = 0x02. -/
def gfAlpha (n : Nat) : Nat := gfPow 2 (n % 255)

/-- Quotient in GF(2^8): b to the 254th is its inverse. -/
def gfDiv (a b : Nat) : Nat :=
  let b2 := gfMul b b
  let b4 := gfMul b2 b2
  let b8 := gfMul b4 b4
  let b16 := gfMul b8 b8
  let b32 := gfMul b16 b16
  let b64 := gfMul b32 b32
  let b128 := gfMul b64 b64
  gfMul a (gfMul b2 (gfMul b4 (gfMul b8 (gfMul b16 (gfMul b32 (gfMul b64 b128))))))

/-- One step of the division by g(x): shift a data symbol into the remainder (R344). -/
def qorethStep (r : List Nat) (d : Nat) : List Nat :=
  match r with
  | [a, b, c, e] =>
    let f := a ^^^ d
    [b ^^^ gfMul f 0x0F, c ^^^ gfMul f 0x36, e ^^^ gfMul f 0x78, gfMul f 0x40]
  | r => r

/-- The four check symbols 32 to 35 of a word of data bytes (R344). -/
def qorethCheck (data : List Byte) : List Nat := data.foldl (fun r b => qorethStep r b.toNat) [0, 0, 0, 0]

/-- What the decoder says of a received word (R345). -/
inductive Verdict where
  | clean
  | corrected (fixes : List SymErr)
  | poisoned
  | uncorrectable
  deriving DecidableEq, Repr

/-- The contribution of symbol errors to syndrome `j` (R345): symbol s is the coefficient of x^(35 - s). -/
def syndrome (errs : List SymErr) (j : Nat) : Nat :=
  errs.foldl (fun a e => a ^^^ (if e.sym < 36 then gfMul e.add.toNat (gfAlpha (j * (35 - e.sym))) else 0)) 0

/-- The poison pattern as symbol errors: each check symbol with 0xFF added (R346). -/
def poisonErrs : List SymErr := [⟨32, 0xFF⟩, ⟨33, 0xFF⟩, ⟨34, 0xFF⟩, ⟨35, 0xFF⟩]

/-- The powers p from 0 to 35 with α^p equal to `x`. -/
def locate (x : Nat) : Option Nat := (List.range 36).find? fun p => gfAlpha p == x

/-- The decoder of R345 on the four syndromes. -/
def decodeSyndromes (s0 s1 s2 s3 : Nat) : Verdict :=
  let p := (List.range 4).map (syndrome poisonErrs)
  if [s0, s1, s2, s3] = p then .poisoned
  else if s0 = 0 ∧ s1 = 0 ∧ s2 = 0 ∧ s3 = 0 then .clean
  else if s0 ≠ 0 ∧ gfMul s1 s1 = gfMul s0 s2 ∧ gfMul s2 s2 = gfMul s1 s3 then
    if s1 = 0 then .uncorrectable
    else match locate (gfDiv s1 s0) with
      | some q => .corrected [⟨35 - q, BitVec.ofNat 8 s0⟩]
      | none => .uncorrectable
  else
    let d := gfMul s1 s1 ^^^ gfMul s0 s2
    if d = 0 then .uncorrectable
    else
      let sig1 := gfDiv (gfMul s1 s2 ^^^ gfMul s0 s3) d
      let sig2 := gfDiv (gfMul s1 s3 ^^^ gfMul s2 s2) d
      let roots := (List.range 36).filter fun q =>
        let x := gfAlpha q
        gfMul x x ^^^ gfMul sig1 x ^^^ sig2 == 0
      match roots with
      | [q1, q2] =>
        let x1 := gfAlpha q1
        let x2 := gfAlpha q2
        let e1 := gfDiv (s1 ^^^ gfMul s0 x2) (x1 ^^^ x2)
        .corrected [⟨35 - q1, BitVec.ofNat 8 e1⟩, ⟨35 - q2, BitVec.ofNat 8 (s0 ^^^ e1)⟩]
      | _ => .uncorrectable

/-- The decoder on a word whose symbols in error are listed (R345); the code is linear, so only they make syndromes. -/
def decodeErrs (errs : List SymErr) : Verdict :=
  decodeSyndromes (syndrome errs 0) (syndrome errs 1) (syndrome errs 2) (syndrome errs 3)

/-- Add symbol errors to the data bytes of a word; those of check symbols change no data. -/
def applyErrs (data : List Byte) (errs : List SymErr) : List Byte :=
  errs.foldl (fun d e => d.set e.sym (d.getD e.sym 0#8 ^^^ e.add)) data

/-- A read of a word through the code: the data delivered and the decoder's verdict (R345, R347). -/
def qorethRead (data : List Byte) (poison : Bool) (errs : List SymErr) : List Byte × Verdict :=
  let e := if poison then poisonErrs ++ errs else errs
  let got := applyErrs data e
  match decodeErrs e with
  | .corrected f => (applyErrs got f, .corrected f)
  | v => (got, v)

/-- Whether a verdict delivers data flagged as poisoned. -/
def Verdict.isBad : Verdict → Bool
  | .poisoned | .uncorrectable => true
  | _ => false

end Sys2Proof.Machine
end

