-- ==== Sys2Proof/Machine/MemOps.lean ====
section
/-!
DEFINITION. The HBM controller as shared operations: the address mapping, ports and panic, the queues and their order,
reads and writes through the code, suspect rows and the reserve (spec/12_hbm_memory.md).
-/

namespace Sys2Proof.Machine

/-- Pseudo-channels fitted, P = 32 × S (R343). -/
def Variant.pcs (v : Variant) : Nat := 32 * v.hbmStacks

/-- Where a plot-space address lies (R343). -/
structure HbmPlace where
  stack : Nat
  pc : Nat
  sid : Nat
  bank : Nat
  row : Nat
  word : Nat
  byte : Nat
  deriving DecidableEq, Repr

/-- The address mapping of R343. -/
def hbmPlace (v : Variant) (a : Nat) : HbmPlace :=
  let n := a / 256
  let p := Variant.pcs v
  let g := n % p
  let bpc := n / p * 256 + a % 256
  let b := bpc % 2 ^ 28
  { stack := g % v.hbmStacks, pc := g / v.hbmStacks, sid := bpc / 2 ^ 28, bank := bitsOf b 10 4 ^^^ bitsOf b 14 4,
    row := bitsOf b 14 14, word := bitsOf b 5 5, byte := bitsOf b 0 5 }

/-- The global pseudo-channel number, stack × 32 + pc (R343). -/
def HbmPlace.gpc (p : HbmPlace) : Nat := p.stack * 32 + p.pc

/-- The row of a pseudo-channel as one number: stack-ID group, bank and row. -/
def HbmPlace.rowKey (p : HbmPlace) : Nat := (p.sid * 16 + p.bank) * 16384 + p.row

/-- Stack-ID group × 16 + bank. -/
def HbmPlace.bankKey (p : HbmPlace) : Nat := p.sid * 16 + p.bank

/-- The global pseudo-channel of an address. -/
def State.pcOf (s : State) (a : Nat) : Nat := (hbmPlace s.variant a).gpc

/-- A pseudo-channel beside its registers. -/
def State.pc (s : State) (q : Nat) : PseudoChannel := s.hbm.pcs.at {} q

/-- Replace a pseudo-channel. -/
def State.setPc (s : State) (q : Nat) (p : PseudoChannel) : State :=
  { s with hbm := { s.hbm with pcs := s.hbm.pcs.put {} q p } }

/-- Raise the vector of a stack when MEM_CTL.MSIX_EN is 1 (R365). -/
def State.memVector (s : State) (stack : Nat) : State := s.when (s.bit F.MEM_CTL_MSIX_EN) (·.raise (512 + stack))

/-- A state field of pseudo-channel `q`: 0 in service, 1 retiring, 2 retired, 3 unbacked. -/
def State.pcState (s : State) (q : Nat) : Nat := s.getF (F.MEM_PC_STATE_STATE (q / 32) (q % 32))

/-! ## Suspect rows (R357) -/

/-- Ticks in a millisecond. -/
def ticksPerMs : Nat := 32000000

/-- Whether stamp `t` lies within `w` milliseconds before now. -/
def State.within (s : State) (w t : Nat) : Bool :=
  decide ((s.longStamp + 2 ^ 64 - t) % 2 ^ 64 ≤ w * ticksPerMs)

/-- Add a row to those that wait for their remap, lowest row first (R357, R363). -/
def PseudoChannel.needRemap (p : PseudoChannel) (row : Nat) : PseudoChannel :=
  if p.due.contains row || p.remapped.count row ≥ 2 then p
  else { p with due := (p.due.takeWhile (· < row)) ++ row :: p.due.dropWhile (· < row) }

/-- A word of a row was corrected (R357): the row becomes suspect, and needs remapping at THRESH corrections within
the window. The table holds 64 rows, and the one suspected longest gives way. -/
def State.suspect (s : State) (q row : Nat) : State :=
  let p := s.pc q
  let win := s.getF F.MEM_ROW_WINDOW_MS
  let old := ((p.suspects.find? (·.row == row)).map (·.times)).getD []
  let times := s.longStamp :: old.filter (s.within win)
  let known := p.suspects.any (·.row == row)
  let list := if known then p.suspects.map fun x => if x.row == row then { x with times := times } else x
              else (p.suspects ++ [(⟨row, times⟩ : SuspectRow)]).drop (p.suspects.length + 1 - 64)
  let p1 := { p with suspects := list }
  let th := s.getF F.MEM_ROW_THRESH
  s.setPc q (if th ≠ 0 ∧ win ≠ 0 ∧ th ≤ times.length then p1.needRemap row else p1)

/-- A row holds an uncorrectable word (R357, R360): it needs remapping, and four such rows within the window make the
pseudo-channel due for retirement. -/
def State.badRow (s : State) (q row : Nat) : State :=
  let p := s.pc q
  let win := s.getF F.MEM_ROW_WINDOW_MS
  let rows := (row, s.longStamp) :: p.badRows.filter fun r => r.1 != row && s.within win r.2
  s.setPc q { p.needRemap row with
    badRows := rows, retireDue := p.retireDue || decide (4 ≤ rows.length), cause := if p.retireDue then p.cause else 3 }

/-! ## Words through the code (R345 to R347, R351) -/

/-- The errors an operand lists for the word that holds an address. -/
def errsAt (l : List MemErr) (a : Nat) : List SymErr := (l.filter fun e => e.addr / 32 == a / 32).flatMap (·.errs)

/-- Count what a read of the word at `a` found, and watch its row (R347, R357). -/
def State.noteWord (s : State) (a : Nat) (v : Verdict) : State :=
  let p := hbmPlace s.variant a
  let s := if v.isBad then s.setPc p.gpc { s.pc p.gpc with fault := some a } else s
  match v with
  | .clean => s
  | .corrected _ => (s.bump (F.MEM_PC_CORR_COUNT p.stack p.pc)).suspect p.gpc p.rowKey
  | .uncorrectable =>
    (((s.bump (F.MEM_PC_UNCORR_COUNT p.stack p.pc)).flag (F.MEM_STK_ERR_UNCORR p.stack)).memVector p.stack).badRow p.gpc
      p.rowKey
  | .poisoned => ((s.bump (F.MEM_PC_UNCORR_COUNT p.stack p.pc)).flag (F.MEM_STK_ERR_UNCORR p.stack)).memVector p.stack

/-- Read the word that holds `a` through the code: its bytes, whether it is bad, and the state after counting. A word
of an unbacked chunk reads as poisoned and sets MEM_ERR.UNBACKED (R361). -/
def State.readWord (s : State) (a : Nat) (errs : List SymErr) : List Byte × Bool × State :=
  let w := a / 32 * 32
  let data := s.hbm.read w 32
  if s.hbm.unbacked.at false (a / 256) then
    (data, true, (s.flag F.MEM_ERR_UNBACKED).memVector 0)
  else
    let (d, v) := qorethRead data (s.hbm.poison.at false (w / 32)) errs
    (d, v.isBad, s.noteWord a v)

/-- Words that a range of bytes touches. -/
def wordsTouched (a n : Nat) : Nat := if n = 0 then 0 else (a + n - 1) / 32 - a / 32 + 1

/-- Read the words of a range through the code: the bytes, whether one was bad, and the state after counting; each bad
word of a read by BAR2 or by the recording engine writes its concession record (R347). -/
def State.readWords (s : State) (broken : Nat) (errs : List MemErr) (a : Nat) : Nat → List Byte × Bool × State
  | 0 => ([], false, s)
  | n + 1 =>
    let (d, bad, s1) := s.readWord (a / 32 * 32) (errsAt errs a)
    let s2 := s1.when bad (·.concede 8 (s.pcOf a) broken 2 0x0004 (a / 32 % 2 ^ 32))
    let (d', bad', s3) := State.readWords s2 broken errs (a / 32 * 32 + 32) n
    (d ++ d', bad || bad', s3)

/-- A block reads `n` bytes of plot space (R347): every damaged word read counts. -/
def State.noteRange (s : State) (a n : Nat) : State :=
  (List.range (wordsTouched a n)).foldl (fun x i =>
    let w := (a / 32 + i) * 32
    if x.hbm.bad w then (x.readWord w []).2.2 else x) s

/-- Errors that a command's own reads of plot space meet (R345, R347): a correctable word is counted and delivered
corrected, and an uncorrectable one reads as damaged from then on. -/
def State.meet (s : State) (errs : List MemErr) : State :=
  errs.foldl (fun x e =>
    let p := hbmPlace x.variant e.addr
    let w := e.addr / 32 * 32
    match qorethRead (x.hbm.read w 32) (x.hbm.poison.at false (w / 32)) e.errs with
    | (_, .corrected f) => x.noteWord w (.corrected f)
    | (d, .uncorrectable) =>
      let y := x.badRow p.gpc p.rowKey
      { y with hbm := (y.hbm.write w d).mark w }
    | _ => x) s

/-- Write within the word that holds `a` (R346, R351): a whole word is stored fresh; fewer bytes are merged into the
word as read, and a word that could not be corrected is stored with the poison pattern. -/
def State.writeWord (s : State) (a : Nat) (l : List Byte) (errs : List SymErr) : State :=
  if a % 32 = 0 ∧ l.length = 32 then s.plotWrite a l
  else
    let (d, bad, s1) := s.readWord a errs
    if s.hbm.unbacked.at false (a / 256) then s1
    else
      let merged := d.take (a % 32) ++ l ++ d.drop (a % 32 + l.length)
      let h := s1.hbm.write (a / 32 * 32) merged
      { s1 with hbm := if bad then h.mark a else h }

/-! ## Ports and panic (R348, R349, R352) -/

/-- The number by which the model knows a port. -/
def portKey (write : Bool) (block inst : Nat) : Nat := (block * 65536 + inst) * 2 + (if write then 1 else 0)

/-- Bring the panic of a real-time port up to date with its buffer's fill in sixteenths (R349); an entry counts in
MEM_CLASS.PANICS. -/
def State.portLevel (s : State) (cls block inst level : Nat) (write : Bool) : State :=
  let k := portKey write block inst
  let rd := s.getF F.MEM_PANIC_RD_LEVEL
  let wr := s.getF F.MEM_PANIC_WR_LEVEL
  let was := s.hbm.panic.at false k
  let now := if write then
      if wr = 0 then false else if wr ≤ level then true else if level + 2 < wr then false else was
    else if rd = 0 then false else if level ≤ rd then true else if rd + 2 < level then false else was
  let s1 := { s with hbm := { s.hbm with panic := s.hbm.panic.put false k now, level := s.hbm.level.put 0 k level } }
  s1.when (now && !was) (·.bump (F.MEM_CLASS_PANICS_COUNT (cls - 4)))

/-- Whether the port of a request is in panic. -/
def State.inPanic (s : State) (r : MemReq) : Bool :=
  decide (r.cls < 7) && s.hbm.panic.at false (portKey (r.len == 0) r.block r.inst)

/-- Requests queued at a pseudo-channel. -/
def PseudoChannel.all (p : PseudoChannel) : List MemReq := p.reads ++ p.writes

/-- Whether some bank's refresh has reached its postponement limit (R354). -/
def PseudoChannel.refreshLimit (p : PseudoChannel) : Option Nat := (p.postponed.find? (8 ≤ ·.2)).map (·.1)

/-- A full write port discards the item (R352): word 0 of the item is stored poisoned, LINE_DROP and DROPS note it, and
a concession record is written when a port of lower rank number was in panic there, or refresh took the time. -/
def State.portDrop (s : State) (op : MemOp) : State :=
  let q := s.pcOf op.addr
  let s1 := { s with hbm := { s.hbm.mark op.itemAddr with
    discard := s.hbm.discard.put false (portKey true op.block op.inst) (!op.last) } }
  let s2 := ((s1.flag F.MEM_ERR_LINE_DROP).bump (F.MEM_CLASS_DROPS_COUNT (op.cls - 4))).memVector 0
  let above := ((s.pc q).all.filter fun r => s.inPanic r && decide (r.cls < op.cls)).map (·.cls)
  let detail := op.block + 256 * op.inst
  match above.min? with
  | some k => s2.concede 8 q op.cls k 0x0001 detail
  | none => if (s.pc q).refreshLimit.isSome then s2.concede 8 q op.cls 2 0x0001 detail else s2

/-! ## Queues (R350, R351) -/

/-- Overlay the bytes of a later write on an earlier one of the same word. -/
def overlay (r : MemReq) (addr : Nat) (data : List Byte) : MemReq :=
  let lo := min r.addr addr
  let hi := max (r.addr + r.data.length) (addr + data.length)
  { r with
      addr := lo
      data := (List.range (hi - lo)).map fun i =>
        if addr ≤ lo + i ∧ lo + i < addr + data.length then data.getD (lo + i - addr) 0#8
        else r.data.getD (lo + i - r.addr) 0#8 }

/-- Whether two writes of one word touch or overlap, so that the queued data can be replaced byte by byte. -/
def sameWrite (r : MemReq) (addr len : Nat) : Bool :=
  r.addr / 32 == addr / 32 && decide (addr ≤ r.addr + r.data.length) && decide (r.addr ≤ addr + len)

/-- A read arrives at the queue: a drain entered because no read was waiting ends (R350), and the stack-ID group
leaves power-down (R353). -/
def PseudoChannel.wake (p : PseudoChannel) (sid : Nat) : PseudoChannel := { p with down := p.down.put false sid false }

/-- Queue a read, or answer it from the youngest queued write that holds its bytes (R351). -/
def State.queueRead (s : State) (op : MemOp) : State :=
  let pl := hbmPlace s.variant op.addr
  let p := s.pc pl.gpc
  match (p.writes.reverse.find? fun r => decide (r.addr ≤ op.addr) && decide (op.addr + op.len ≤ r.addr + r.data.length)) with
  | some r => s.emit (.memData op.block op.inst op.addr ((r.data.drop (op.addr - r.addr)).take op.len) false)
  | none =>
    if 64 ≤ p.reads.length then s
    else
      let r : MemReq :=
        { age := s.hbm.age, cls := op.cls, block := op.block, inst := op.inst, addr := op.addr, data := [], len := op.len }
      let p1 := { p.wake pl.sid with
        reads := p.reads ++ [r], drain := p.drain && !p.drainIdle, drainIdle := false }
      let s1 := s.setPc pl.gpc p1
      { s1 with hbm := { s1.hbm with age := s.hbm.age + 1 } }

/-- Queue a write, replacing queued data of the same address byte by byte (R351); MEM_WM.HIGH entries start a drain. -/
def State.queueWrite (s : State) (op : MemOp) : State :=
  let pl := hbmPlace s.variant op.addr
  let p := s.pc pl.gpc
  let high := s.getF F.MEM_WM_HIGH
  if p.writes.any (sameWrite · op.addr op.data.length) then
    let ws := p.writes.map fun r => if sameWrite r op.addr op.data.length then overlay r op.addr op.data else r
    s.setPc pl.gpc { p with writes := ws }
  else if 64 ≤ p.writes.length then s
  else
    let r : MemReq :=
      { age := s.hbm.age, cls := op.cls, block := op.block, inst := op.inst, addr := op.addr, data := op.data, len := 0 }
    let ws := p.writes ++ [r]
    let start := decide (high ≠ 0) && decide (high ≤ ws.length)
    let p1 := { p.wake pl.sid with
      writes := ws, drain := p.drain || start, drainIdle := p.drainIdle && !start }
    let s1 := s.setPc pl.gpc p1
    { s1 with hbm := { s1.hbm with age := s.hbm.age + 1 } }

/-- Whether a request hits the open row of its bank. -/
def State.rowHit (s : State) (p : PseudoChannel) (r : MemReq) : Bool :=
  let pl := hbmPlace s.variant r.addr
  p.openRow.at none pl.bankKey == some pl.row

/-- The first request of a list by a key, smallest first and oldest within a key. -/
def firstBy (key : MemReq → Nat) : List MemReq → Option MemReq
  | [] => none
  | r :: l => match firstBy key l with
    | none => some r
    | some x => if key x < key r ∨ (key x = key r ∧ x.age < r.age) then some x else some r

/-- The request a pseudo-channel issues next (R350, steps 2 to 5). -/
def State.nextReq (s : State) (p : PseudoChannel) : Option MemReq :=
  let miss (r : MemReq) : Nat := if s.rowHit p r then 0 else 1
  let panic := p.all.filter s.inPanic
  match firstBy (·.cls) panic with
  | some r => some r
  | none =>
    if p.drain && !p.writes.isEmpty then firstBy miss p.writes
    else match firstBy (fun r => miss r * 16 + r.cls) p.reads with
      | some r => some r
      | none => if s.getF F.MEM_WM_HIGH = 0 then firstBy (fun _ => 0) p.writes else none

/-! ## The reserve (R359, R360) -/

/-- Chunks of pseudo-channel `q` below chunk number `x`: those with x mod P on it. -/
def State.chunksBelow (s : State) (q x : Nat) : Nat :=
  let g := q % 32 * s.variant.hbmStacks + q / 32
  let p := Variant.pcs s.variant
  (x + p - 1 - g) / p

/-- Chunks of `q` in a plot. -/
def State.chunksIn (s : State) (q : Nat) (p : Plot) : Nat :=
  s.chunksBelow q ((p.base + p.size) / 256) - s.chunksBelow q (p.base / 256)

/-- The need of `q`: its chunks in data and log plots (R359). -/
def State.need (s : State) (q : Nat) : Nat :=
  ((s.plots.filter fun p => p.kind != 2 && !s.hbm.dropped.at false p.index).map (s.chunksIn q)).sum

/-- Whether a pseudo-channel is in service. -/
def State.inService (s : State) (q : Nat) : Bool := s.pcState q == 0

/-- The chunk numbers of `q` in a plot, ascending. -/
def State.chunkList (s : State) (q : Nat) (p : Plot) : List Nat :=
  (List.range (s.chunksIn q p)).map fun i =>
    (s.chunksBelow q (p.base / 256) + i) * Variant.pcs s.variant + (q % 32 * s.variant.hbmStacks + q / 32)

/-- The free usable reserve chunks, in number (R359): those of the reserve plot on pseudo-channels in service that serve
no retired chunk, and those of dropped plots. -/
def State.freeReserve (s : State) : Nat :=
  let qs := (List.range (Variant.pcs s.variant)).filter s.inService
  let used := (s.hbm.moved.filter fun m => s.inService (s.pcOf ((m.2 - 1) * 256)) && m.2 != 0).length
  let res := ((s.plots.filter (fun p => p.kind == 2 || s.hbm.dropped.at false p.index)).map
    fun p => (qs.map fun q => s.chunksIn q p).sum).sum
  res - used

/-- The free usable reserve chunks in ascending address (R360). -/
def State.freeChunks (s : State) : List Nat :=
  let qs := (List.range (Variant.pcs s.variant)).filter s.inService
  let all := (s.plots.filter (fun p => p.kind == 2 || s.hbm.dropped.at false p.index)).flatMap
    fun p => qs.flatMap fun q => s.chunkList q p
  sortBy (fun a b => decide (a ≤ b)) (all.filter fun c => !s.hbm.moved.any fun m => m.2 == c + 1)

/-- The greatest need of a pseudo-channel in service (R359). -/
def State.maxNeed (s : State) : Nat :=
  (((List.range (Variant.pcs s.variant)).filter s.inService).map s.need).foldl max 0

/-- Bring MEM_RESERVE and GLB_SPARE.PC_LAST up to date (R359): chunks of 256 bytes are 4,096 to the MiB. -/
def State.reportReserve (s : State) : State :=
  let s1 := (s.setF F.MEM_RESERVE_FREE (min (s.freeReserve / 4096) 65535)).setF F.MEM_RESERVE_NEED
    ((s.maxNeed + 4095) / 4096)
  s1.when (decide (s.freeReserve < s.maxNeed)) (·.flag F.GLB_SPARE_PC_LAST)

end Sys2Proof.Machine
end

