-- ==== Sys2Proof/Machine/TrugOps.lean ====
section
/-!
DEFINITION. Trugs as shared operations: the write port, the read port, flushes and whole items (spec/04_trugs.md).
-/

namespace Sys2Proof.Machine

/-- The state of trug `n` beside its registers. -/
def State.trug (s : State) (n : Nat) : Trug := s.trugs.at {} n

/-- DEPTH of trug `n`; 0 for an unused trug (R113). -/
def State.trugDepth (s : State) (n : Nat) : Nat := s.getF (F.TRUG_CFG_DEPTH n)

/-- Replace the state of trug `n` and bring OCCUPANCY, FULL and EMPTY up to date. -/
def State.setTrug (s : State) (n : Nat) (t : Trug) : State :=
  let s1 := { s with trugs := s.trugs.put {} n t }
  ((s1.setF (F.TRUG_STAT_OCCUPANCY n) t.ring.length).setB (F.TRUG_STAT_FULL n)
    (decide (s.trugDepth n ≤ t.ring.length + 1))).setB (F.TRUG_STAT_EMPTY n) t.ring.isEmpty

/-- Bring the trug's bit of TRUG_FLAG_MAP up to date with its OVERRUN and UNCORR bits. -/
def State.trugFlagMap (s : State) (n : Nat) : State :=
  let f : Field := ⟨R.TRUG_FLAG_MAP (n / 32), n % 32, 1⟩
  s.setB f (s.bit (F.TRUG_STAT_OVERRUN n) || s.bit (F.TRUG_STAT_UNCORR n))

/-- FULL: the occupancy is DEPTH - 1 or more (R103). -/
def State.trugFull (s : State) (n : Nat) : Bool := decide (s.trugDepth n ≤ (s.trug n).ring.length + 1)

/-- A word of packed bytes with its tag (R101, R102): the last word of an item carries END and its valid count, 0 for
32. -/
def packedWord (bytes : List Byte) (last : Bool) : TrugWord :=
  { data := padTo 32 bytes
    tag := if last then BitVec.ofNat 8 (bytes.length % 32 + 0x20) else 0#8 }

/-- The CUT word: END and IDLE together (R102). -/
def cutWord : TrugWord := { data := List.replicate 32 0#8, tag := 0x60#8 }

/-- Note an item cut or dropped by a full trug (R103). -/
def State.trugOverrun (s : State) (n : Nat) : State :=
  ((s.flag (F.TRUG_STAT_OVERRUN n)).bump (F.TRUG_OVR_COUNT n)).trugFlagMap n

/-- One write at a trug's write port: bytes, and whether the write carries END (R100, R103). A write that finds the
trug FULL cuts or drops its item. -/
def State.trugPut (s : State) (n : Nat) (bytes : List Byte) (last : Bool) : State :=
  let t := s.trug n
  if s.trugDepth n = 0 then s
  else if t.skip then s.setTrug n { t with skip := !last, inItem := false, committed := 0, pack := [] }
  else if s.trugFull n then
    let ring := if t.committed = 0 then t.ring else t.ring ++ [cutWord]
    (s.setTrug n { t with ring := ring, pack := [], inItem := false, committed := 0, skip := !last }).trugOverrun n
  else
    let p := t.pack ++ bytes
    if last then
      s.setTrug n { t with ring := t.ring ++ [packedWord p true], pack := [], inItem := false, committed := 0 }
    else if 32 ≤ p.length then
      s.setTrug n { t with ring := t.ring ++ [packedWord p false], pack := [], inItem := true,
                           committed := t.committed + 1 }
    else s.setTrug n { t with pack := p, inItem := true }

/-- A whole item through the write port, a word at a time; `fuel` bounds the words. -/
def State.trugPutAll (s : State) (n : Nat) : Nat → List Byte → State
  | 0, _ => s
  | fuel + 1, l =>
    if l.length ≤ 32 then s.trugPut n l true
    else State.trugPutAll (s.trugPut n (l.take 32) false) n fuel (l.drop 32)

/-- A producer writes an item of at least one byte to trug `n` (R100, R101); 0xFFFF names no trug. -/
def State.trugItem (s : State) (n : Nat) (item : List Byte) : State :=
  if item.isEmpty || decide (512 ≤ n) then s else s.trugPutAll n item.length item

/-- Words still free for an item at the write port (R103, R165): those below DEPTH - 1. -/
def State.trugRoom (s : State) (n : Nat) : Nat := (s.trugDepth n - 1) - (s.trug n).ring.length

/-- Words an item of `b` bytes takes. -/
def wordsFor (b : Nat) : Nat := (b + 31) / 32

/-- A write would be ignored until the item's END. -/
def State.trugTakes (s : State) (n b : Nat) : Bool := decide (0 < s.trugDepth n) && decide (wordsFor b ≤ s.trugRoom n)

/-! ## Flush (R108) -/

/-- Empty the ring and the packing stage; the rest of an item in progress is ignored up to its END. -/
def State.trugEmpty (s : State) (n : Nat) : State :=
  let t := s.trug n
  (s.setTrug n { t with
      ring := [], pack := [], skip := t.skip || t.inItem, inItem := false, committed := 0
      flushWait := false, reading := false }).unflag (F.TRUG_CTL_FLUSH n)

/-- A flush request (R108): an ordinary trug, or a privileged one whose consumer has started no item, empties at once;
otherwise FLUSH reads 1 until the consumer reaches END. -/
def State.trugFlush (s : State) (n : Nat) : State :=
  let t := s.trug n
  if s.bit (F.TRUG_CFG_PRIV n) && t.reading then
    (s.setTrug n { t with flushWait := true }).flag (F.TRUG_CTL_FLUSH n)
  else s.trugEmpty n

/-! ## The read port (R105, R106, R111, R112) -/

/-- The consumer's block and instance from the trug table (R113). -/
def State.trugConsumer (s : State) (n : Nat) : Nat × Nat :=
  match findRecord s.seed.image 0x05 0 2 n with
  | some r => (byteAt s.seed.image (r + 10), byteAt s.seed.image (r + 11))
  | none => (0, 0)

/-- The producer's block and instance from the trug table (R113). -/
def State.trugProducer (s : State) (n : Nat) : Nat × Nat :=
  match findRecord s.seed.image 0x05 0 2 n with
  | some r => (byteAt s.seed.image (r + 8), byteAt s.seed.image (r + 9))
  | none => (0, 0)

/-- BROKEN of the record of a poisoned word, by consumer (R112): a Runner counts by its role, the recording engine by
the class of the stream that consumes the trug. -/
def State.trugBroken (s : State) (block inst : Nat) : Nat :=
  match block with
  | 2 => if s.getF (F.RUN_CTL_ROLE inst) = 4 then 5 else 4
  | 3 | 4 | 5 | 10 => 4
  | 7 => 5
  | 6 => 6
  | 9 => if s.getF (F.REC_STREAM_STATUS_CLASS inst) = 0 ∧ s.getF (F.REC_STREAM_STATUS_STATE inst) ≠ 0 then 7 else 8
  | _ => 8

/-- The bytes of the idle item: the pattern of TRUG_IDLE (R106). -/
def State.trugIdle (s : State) : TrugWord :=
  { data := (List.range 8).flatMap fun k => leBytes 4 (s.rd (R.TRUG_IDLE k)).toNat, tag := 0x40#8 }

/-- Note an uncorrectable word of trug `n`: UNCORR, its counter and the concession record (R112). -/
def State.trugUncorr (s : State) (n : Nat) : State :=
  let (cb, ci) := s.trugConsumer n
  (((s.flag (F.TRUG_STAT_UNCORR n)).bump (F.TRUG_UNCORR_COUNT n)).trugFlagMap n).concede 14 n (s.trugBroken cb ci) 2
    0x0004 (cb + 256 * ci)

/-- What the read port makes of a stored word whose symbols and tag bits are in error (R111, R112): the word delivered,
and whether it counts as corrected or as uncorrectable. -/
def trugDeliver (w : TrugWord) (errs : List SymErr) (tagErrs : Nat) : TrugWord × Bool × Bool :=
  let (d, v) := qorethRead w.data false errs
  if 2 ≤ tagErrs then ({ data := d, tag := 0xA0#8 }, false, true)
  else if v.isBad then ({ data := d, tag := w.tag ||| 0x80#8 }, tagErrs == 1, true)
  else ({ data := d, tag := w.tag }, tagErrs == 1 || v != .clean, false)

/-- Take the next word of trug `n` through the read port: the word, if the trug holds one, and the state after it. A
pending flush acts once the END word has been read (R108, R110). -/
def State.trugTake (s : State) (n : Nat) (errs : List SymErr) (tagErrs : Nat) : Option TrugWord × State :=
  let t := s.trug n
  match t.ring with
  | [] => (none, s)
  | w :: rest =>
    let (out, cor, unc) := trugDeliver w errs tagErrs
    let atEnd := out.tag.getLsbD 5
    let s1 := s.setTrug n { t with ring := rest, reading := !atEnd, stalled := false }
    let s2 := s1.when cor (·.bump (F.TRUG_CORR_COUNT n))
    let s3 := s2.when unc (·.trugUncorr n)
    (some out, s3)

/-- An item as a consumer takes it from a trug: its bytes, whether a word of it was poisoned, whether it was cut. -/
structure TakenItem where
  bytes : List Byte
  poison : Bool
  cut : Bool
  deriving DecidableEq, Repr

/-- The words of the item at the head of a ring: those before its END word and that word, if the END has arrived. -/
def headItem : List TrugWord → Option (List TrugWord × List TrugWord)
  | [] => none
  | w :: r => if w.tag.getLsbD 5 then some ([w], r) else (headItem r).map fun (a, b) => (w :: a, b)

/-- The valid bytes of a word (R102): an END word with IDLE set is the CUT word and holds none. -/
def TrugWord.valid (w : TrugWord) : List Byte :=
  if w.tag.getLsbD 6 then [] else if w.tag.toNat % 32 = 0 then w.data else w.data.take (w.tag.toNat % 32)

/-- The item that waits whole at the head of trug `n`, without taking it. -/
def State.trugPeek (s : State) (n : Nat) : Option TakenItem :=
  (headItem (s.trug n).ring).map fun (ws, _) =>
    { bytes := ws.flatMap TrugWord.valid, poison := ws.any (·.tag.getLsbD 7)
      cut := ws.any fun w => w.tag.getLsbD 5 && w.tag.getLsbD 6 }

/-- A consumer takes the whole item at the head of trug `n`. -/
def State.trugTakeItem (s : State) (n : Nat) : State :=
  match headItem (s.trug n).ring with
  | some (_, rest) =>
    let s1 := s.setTrug n { s.trug n with ring := rest, reading := false }
    if (s.trug n).flushWait then s1.trugEmpty n else s1
  | none => s

end Sys2Proof.Machine
end

