-- ==== Sys2Proof/Machine/AudioOps.lean ====
section
/-!
DEFINITION. Audio as shared operations: frames, blocks, rings, alignment and the ST 2110-30 senders (spec/15_audio.md).
-/

namespace Sys2Proof.Machine

/-! ## Endpoints -/

/-- The state of endpoint `k` beside its registers. -/
def State.aud (s : State) (k : Nat) : AudEp := s.audio.eps.at {} k

/-- Replace the state of endpoint `k`. -/
def State.setAud (s : State) (k : Nat) (x : AudEp) : State :=
  { s with audio := { s.audio with eps := s.audio.eps.put {} k x } }

/-- Endpoint `k` works, in a mode: 1 input, 2 output. -/
def State.audIs (s : State) (k mode : Nat) : Bool :=
  s.up 11 && s.growing && decide (k < 12) && s.getF (F.AUD_EP_CFG_MODE k) == mode

/-- A receiver (R434). -/
def isAes (k : Nat) : Bool := decide (8 ≤ k)

/-- The channel count C. -/
def State.audC (s : State) (k : Nat) : Nat := s.getF (F.AUD_EP_CFG_CHANNELS k)

/-- A rate code in Hz (R434). -/
def rateHz (code : Nat) : Nat := [44100, 48000, 88200, 96000, 176400, 192000].getD code 48000

/-- The declared rate of endpoint `k`, Hz. -/
def State.audHz (s : State) (k : Nat) : Nat := rateHz (s.getF (F.AUD_EP_CFG_RATE k))

/-- Vector 500 + k, when MSIX_EN is 1 (R449). -/
def State.audVector (s : State) (k : Nat) : State := s.when (s.bit (F.AUD_EP_CTL_MSIX_EN k)) (·.raise (500 + k))

/-- An endpoint event: bit `b` of ERR with its vector, and counter `j` where it has one. -/
def State.audErr (s : State) (k b : Nat) (cnt : Option Nat) (n : Nat) : State :=
  let s1 := s.flag ⟨R.AUD_EP_ERR k, b, 1⟩
  (match cnt with
    | some j => s1.addF (F.AUD_EP_CNT_COUNT k j) n
    | none => s1).audVector k

/-- A field of the audio routing record of endpoint `k`. -/
def State.audRec (s : State) (k fo fn d : Nat) : Nat := s.recField 0x0B 0 1 k fo fn d

/-- A sample in the top WORD_BITS bits of a slot (R436). -/
def State.audSample (s : State) (k v : Nat) : Nat :=
  let w := 32 - min 32 (s.getF (F.AUD_EP_CFG_WORD_BITS k))
  v % 2 ^ 32 / 2 ^ w * 2 ^ w

/-! ## Rings (R440) -/

/-- Bytes of a block, and of a block slot. -/
def blockBytes (c : Nat) : Nat := 32 + 256 * c
def slotBytes (c : Nat) : Nat := (blockBytes c + 63) / 64 * 64

/-- Base and block slots of the ring of input endpoint `k`. -/
def State.audRing (s : State) (k : Nat) : Option (Nat × Nat) :=
  (s.plot? (s.audRec k 8 2 0xFFFF)).map fun p => (p.base, p.size / slotBytes (s.audC k))

/-- Block `b` of input endpoint `k` is in its ring. -/
def State.audHas (s : State) (k b : Nat) : Bool :=
  match s.audRing k with
  | some (_, r) => decide (b < (s.aud k).written) && decide ((s.aud k).written ≤ b + r)
  | none => false

/-- Read words of plot space through the code: their bytes, each with whether its word was bad. -/
def State.audWords (s : State) (errs : List MemErr) (a : Nat) : Nat → List (Byte × Bool) × State
  | 0 => ([], s)
  | n + 1 =>
    let (d, bad, s1) := s.readWord a (errsAt errs a)
    let (l, s2) := State.audWords s1 errs (a + 32) n
    (d.map (fun b => (b, bad)) ++ l, s2)

/-- Frame `i` of block `b` of input endpoint `k` as its ring gives it: its slots, and whether a word of it was bad. -/
def State.audFrame (s : State) (k b i : Nat) (errs : List MemErr) : List Nat × Bool × State :=
  let c := s.audC k
  match s.audRing k with
  | some (base, r) =>
    let a := base + b % r * slotBytes c + 32 + 4 * c * i
    let n := (a + 4 * c - 1) / 32 - a / 32 + 1
    let (l, s1) := s.audWords errs (a / 32 * 32) n
    let f := (l.drop (a % 32)).take (4 * c)
    let bytes := f.map (·.1)
    ((List.range c).map fun j => fieldAt bytes (4 * j) 4, f.any (·.2), s1)
  | none => ([], false, s)

/-- Ticks in a number of frames of input endpoint `k` at the rate measured over the last 16 blocks, or the declared rate
before two blocks (R439). -/
def State.audTicks (s : State) (k n : Nat) : Int :=
  let l := (s.aud k).stamps.take 17
  match l.head?, l.getLast? with
  | some a, some b =>
    if 2 ≤ l.length then (n : Int) * stampDiff 64 a b / (64 * (l.length - 1) : Nat)
    else (n : Int) * 32000000000 / s.audHz k
  | _, _ => (n : Int) * 32000000000 / s.audHz k

/-- The stamp of frame `i` of block `b` of endpoint `k` relative to now, in ticks; from the newest stamp for a block not
yet written. -/
def State.audAt (s : State) (k b i : Nat) : Int :=
  let x := s.aud k
  let b0 := min b (x.written - 1)
  let st := x.stamps.getD (x.written - 1 - b0) (x.stamps.headD 0)
  stampDiff 64 st s.longStamp + s.audTicks k (64 * (b - b0) + i)

/-! ## Inputs (R436, R438, R439, R442, R443) -/

/-- The burst preamble stands in a slot pair: Pa in the top 16 bits of slot 2j, Pb in slot 2j + 1 (R443). -/
def burstAt (slots : List Nat) (j : Nat) : Bool :=
  slots.getD (2 * j) 0 / 65536 % 65536 == 0xF872 && slots.getD (2 * j + 1) 0 / 65536 % 65536 == 0x4E1F

/-- A slot pair is muted. -/
def AudEp.mutes (x : AudEp) (j : Nat) : Bool := (x.muted.at none j).isSome || (j == 0 && x.csMute)

/-- Bring STATUS.NONAUDIO up to date. -/
def State.audMuteStatus (s : State) (k : Nat) : State :=
  s.setB (F.AUD_EP_STATUS_NONAUDIO k) ((List.range 8).any (s.aud k).mutes)

/-- Write the block that 64 frames have completed (R439, R440, R442, R443): into its ring slot, and into the trug as one
item; Twine source 144 + k fires. -/
def State.audBlock (s : State) (k : Nat) : State :=
  let x := s.aud k
  let c := s.audC k
  let head := leBytes 8 x.stamp ++ leBytes 4 (x.written % 2 ^ 32) ++ leBytes 1 k ++ leBytes 1 c
    ++ leBytes 1 (s.getF (F.AUD_EP_CFG_RATE k)) ++ leBytes 1 x.flags
    ++ leBytes 2 (if s.bit F.HRW_ADDR_VALID then s.getF F.HRW_ADDR_ADDR else 0) ++ List.replicate 14 0#8
  let item := head ++ x.frames.flatMap fun f => f.flatMap (leBytes 4)
  let s1 := match s.audRing k with
    | some (base, r) => if r = 0 then s else s.plotWrite (base + x.written % r * slotBytes c) item
    | none => s
  let t := s.audRec k 10 2 0xFFFF
  let s2 := if t = 0xFFFF then s1
    else (s1.when (!s1.trugTakes t item.length) (·.audErr k 7 (some 5) 1)).trugItem t item
  let keep := match s.audRing k with | some (_, r) => max 17 r | none => 17
  let s3 : State := s2.setAud k { x with
    frames := [], flags := 0, written := x.written + 1, stamps := (x.stamp :: x.stamps).take keep }
  let t16 := s3.audTicks k (64 * 16)
  let hz : Nat := if t16 ≤ 0 then 0 else ((64 * 16 * 32000000000 : Int) / t16).toNat
  let s4 := ((s3.setF (F.AUD_EP_BLOCK_BLOCK k) (x.written % 2 ^ 32)).setF (F.AUD_EP_BLOCK_STAMP_STAMP k) x.stamp).setF
    (F.AUD_EP_RATE_MEAS_HZ k) hz
  let off : Bool := decide (2 ≤ (s3.aud k).stamps.length) && !s4.bit (F.AUD_EP_CFG_LEADER k)
    && decide (s4.audHz k < 200 * Int.natAbs ((hz : Int) - (s4.audHz k : Int)))
  (s4.when off (·.audErr k 8 none 0)).fireSource (144 + k)

/-- An input takes one frame at its frame-sync edge (R436 to R444): `slots` as received, `bad` the subframes with a
parity error or a biphase violation, `room` that the RT-4 port takes it. -/
def State.audIn (s : State) (k : Nat) (slots bad : List Nat) (room : Bool) : State :=
  let x := s.aud k
  let c := s.audC k
  let raw := (List.range c).map fun j => if bad.contains j then 0 else s.audSample k (slots.getD j 0)
  let bursts := if room then (List.range (c / 2)).filter (burstAt raw) else []
  let muted := (List.range (c / 2)).foldl (fun m j =>
    if bursts.contains j then SMap.put none m j (some 0)
    else match SMap.at none m j with
      | some n => SMap.put none m j (some (n + 1))
      | none => m) x.muted
  let y := { x with muted := muted }
  let mask := s.getF (F.AUD_EP_STATUS_APPLIED k)
  let out := (List.range c).map fun j =>
    if !room || !mask.testBit j || y.mutes (j / 2) then 0 else raw.getD j 0
  let errs := if isAes k then (bad.filter (· < c)).length else 0
  let anyMute := (List.range (c / 2)).any y.mutes
  let flags := x.flags ||| b2n (!room) ||| (2 * b2n anyMute) ||| (16 * b2n (decide (0 < errs)))
  let s1 := s.setAud k { y with
    frames := x.frames ++ [out], flags := flags, stamp := if x.frames.isEmpty then s.longStamp else x.stamp }
  let s2 := s1.when (decide (0 < errs)) (·.audErr k 5 (some 4) errs)
  let s3 := s2.when (!room) (·.audErr k 1 (some 1) 1)
  let s4 := s3.when (!bursts.isEmpty) (·.audErr k 3 (some 3) bursts.length)
  (s4.flag (F.AUD_EP_STATUS_RUNNING k)).audMuteStatus k

/-! ## Outputs (R441, R446) -/

/-- DETAIL of an audio record: the source endpoint. -/
def State.audConcede (s : State) (k reason src : Nat) : State := s.concede 11 k 4 2 reason src

/-- Drive a frame: slots at or above the source's C, and slots the mask disables, are 0. -/
def State.audDrive (s : State) (k : Nat) (f : List Nat) : State :=
  let mask := s.getF (F.AUD_EP_STATUS_APPLIED k)
  s.emit (.audioFrame k ((List.range (s.audC k)).map fun j => if mask.testBit j then s.audSample k (f.getD j 0) else 0))

/-- A zero frame, counted as underrun or not. -/
def State.audZero (s : State) (k : Nat) (under : Bool) : State :=
  (s.when under (·.audErr k 0 (some 0) 1)).audDrive k []

/-- The position after a frame. -/
def nextFrame (p : Nat × Nat) : Nat × Nat := if p.2 = 63 then (p.1 + 1, 0) else (p.1, p.2 + 1)

/-- A position `n` frames on. -/
def frameOn (p : Nat × Nat) (n : Nat) : Nat × Nat := ((64 * p.1 + p.2 + n) / 64, (64 * p.1 + p.2 + n) % 64)

/-- DELAY of an output. -/
def State.audDelay (s : State) (k : Nat) : Int := s.audRec k 12 4 0

/-- The boundary of an output's own block (R441 step 3): zero frames until the source frame is due, or a move forward to
the frame due nearest the edge; Twine source 144 + k fires. -/
def State.audBoundary (s : State) (k : Nat) : State :=
  let x := s.aud k
  let src := s.getF (F.AUD_EP_CFG_SOURCE k)
  match x.pos with
  | none => s
  | some p =>
    let due := s.audAt src p.1 p.2 + s.audDelay k
    let t : Int := 32000000000 / s.audHz k
    let edges := (s.longStamp :: x.edges).take 17
    let n64 := edges.length - 1
    let dt := stampDiff 64 (edges.headD 0) (edges.getLastD 0)
    let hz := if n64 = 0 ∨ dt ≤ 0 then s.getF (F.AUD_EP_RATE_MEAS_HZ k) else (64 * n64 * 32000000000 / dt).toNat
    let last : Nat × Nat := ((64 * p.1 + p.2 - 1) / 64, 0)
    let y := { x with bounded := true, edges := edges }
    let s1 := ((s.setF (F.AUD_EP_RATE_MEAS_HZ k) hz).setF (F.AUD_EP_BLOCK_BLOCK k) (last.1 % 2 ^ 32)).setF
      (F.AUD_EP_BLOCK_STAMP_STAMP k) (patternOf 64 ((s.longStamp : Int) + s.audAt src last.1 0))
    let off := decide (0 < n64) && !s.bit (F.AUD_EP_CFG_LEADER k)
      && decide (s.audHz k < 200 * Int.natAbs ((hz : Int) - (s.audHz k : Int)))
    let s2 := s1.when off (·.audErr k 8 none 0)
    let s3 :=
      if t < due then s2.setAud k { y with wait := some (s.corrTicks + due) }
      else if due < -t then
        let one := s.audTicks src 1024
        let m := if one ≤ 0 then 0 else ((-due * 1024 * 2 + one) / (2 * one)).toNat
        (s2.setAud k { y with pos := some (frameOn p m) }).audErr k 2 (some 2) m
      else s2.setAud k y
    s3.fireSource (144 + k)

/-- An output plays the frame at its position (R441 steps 2 and 4, R446): a frame that is not in the ring, or that the HBM
held up, goes out as zeros and counts as underrun; a poisoned one goes out as zeros. -/
def State.audPlay (s : State) (k : Nat) (p : Nat × Nat) (held : Bool) (errs : List MemErr) : State :=
  let src := s.getF (F.AUD_EP_CFG_SOURCE k)
  let s0 := s.setAud k { s.aud k with pos := some (nextFrame p), count := (s.aud k).count + 1, bounded := false }
  if held then (s0.audZero k true).audConcede k 0x0001 src
  else if !s0.audHas src p.1 then s0.audZero k true
  else
    let (f, bad, s1) := s0.audFrame src p.1 p.2 errs
    if bad then ((s1.audErr k 6 none 0).audConcede k 0x0004 src).audZero k false
    else s1.audDrive k f

/-- One own frame-sync edge of an output (R441). Before it begins it drives zeros. -/
def State.audOut (s : State) (k : Nat) (held : Bool) (errs : List MemErr) : State :=
  let src := s.getF (F.AUD_EP_CFG_SOURCE k)
  let x0 := s.aud k
  let s0 := if x0.pos.isSome && x0.count % 64 == 0 && decide (0 < x0.count) && !x0.bounded then s.audBoundary k else s
  let s1 := s0.flag (F.AUD_EP_STATUS_RUNNING k)
  let x := s1.aud k
  match x.pos with
  | some p =>
    match x.wait with
    | some w =>
      if s1.corrTicks < w then
        (s1.setAud k { x with count := x.count + 1, bounded := false }).audZero k true
      else (s1.setAud k { x with wait := none }).audPlay k p held errs
    | none => s1.audPlay k p held errs
  | none =>
    let t := if x.target.isSome then x.target
      else if (s1.aud src).written = 0 then none else some ((s1.aud src).written - 1)
    let s2 := s1.setAud k { x with target := t }
    match t with
    | some b => if s1.audAt src b 0 + s1.audDelay k ≤ 0 then s2.audPlay k (b, 0) held errs else s2.audZero k false
    | none => s2.audZero k false

/-! ## ST 2110-30 senders (R445) -/

/-- The state of sender `t` beside its registers. -/
def State.audTx (s : State) (t : Nat) : AudTx := s.audio.txs.at {} t
def State.setAudTx (s : State) (t : Nat) (x : AudTx) : State :=
  { s with audio := { s.audio with txs := s.audio.txs.put {} t x } }

/-- The frames of a packet: the channels sent, zeros for a poisoned frame, and whether one was. -/
def State.audFrames (s : State) (src first count : Nat) (errs : List MemErr) (p : Nat × Nat) :
    Nat → List Nat × Bool × State
  | 0 => ([], false, s)
  | n + 1 =>
    let (f, bad, s1) := s.audFrame src p.1 p.2 errs
    let (l, bad', s2) := State.audFrames s1 src first count errs (nextFrame p) n
    ((List.range count).map (fun j => if bad then 0 else f.getD (first + j) 0) ++ l, bad || bad', s2)

/-- Sender `t` sends its next packet once the frames are in the ring. It begins with the newest block, and again when the
ring has passed it by. -/
def State.audSend (s : State) (t : Nat) (errs : List MemErr) : State :=
  let src := s.getF (F.AUD_TX30_CTL_SOURCE t)
  let first := s.getF (F.AUD_TX30_CTL_FIRST t)
  let count := s.getF (F.AUD_TX30_CTL_COUNT t)
  let short := s.bit (F.AUD_TX30_CTL_PTIME t)
  let n := if short then 6 else 48
  let ok := s.bit (F.AUD_TX30_CTL_EN t) && decide (0 < count) && decide (count ≤ if short then 16 else 8)
    && s.audIs src 1 && s.getF (F.AUD_EP_CFG_RATE src) == 1 && decide (first + count ≤ s.audC src)
  if !ok || (s.aud src).written == 0 then s
  else
    let x := s.audTx t
    let (p, s0) : (Nat × Nat) × State := match x.pos with
      | some p => if s.audHas src p.1 || decide ((s.aud src).written ≤ p.1) then (p, s)
        else (((s.aud src).written - 1, 0), s)
      | none => (((s.aud src).written - 1, 0), (s.setAudTx t { x with seq := s.free % 65536 }).freed)
    let e := frameOn p (n - 1)
    if (s0.aud src).written ≤ e.1 then s0
    else
      let (l, bad, s1) := s0.audFrames src first count errs p n
      let stamp := patternOf 64 ((s0.longStamp : Int) + s0.audAt src p.1 p.2)
      let rtp := (stamp * 3 + 1000000) / 2000000 % 2 ^ 32
      let y := s1.audTx t
      let payload := l.flatMap fun v => (leBytes 3 (v / 256)).reverse
      let s2 := (s1.setAudTx t { pos := some (frameOn p n), seq := (y.seq + 1) % 65536 }).emit
        (.audioPacket t (s.getF (F.AUD_TX30_CTL_PORT t)) (s.getF (F.AUD_TX30_DEST_IP_DEST_IP t))
          (s.getF (F.AUD_TX30_PORTS_DEST_PORT t)) (s.getF (F.AUD_TX30_PORTS_SRC_PORT t)) (s.getF (F.AUD_TX30_RTP_PT t))
          (s.getF (F.AUD_TX30_RTP_DSCP t)) (s.getF (F.AUD_TX30_RTP_VLAN t)) (s.getF (F.AUD_TX30_SSRC_SSRC t)) y.seq rtp
          payload)
      s2.when bad fun z => (z.audErr src 6 none 0).audConcede src 0x0004 src

end Sys2Proof.Machine
end

