-- ==== Sys2Proof/Machine/Audio.lean ====
section
/-!
DEFINITION. The commands of the audio block (spec/15_audio.md, R436 to R445).
-/

namespace Sys2Proof.Machine

/-- AUD_FRAME_IN (R436, R438, R442, R443): a receiver stores nothing while it is unlocked. -/
def execAudFrameIn (k : Nat) (slots bad : List Nat) (room : Bool) (s : State) : Host.Outcome State Fault Refusal :=
  .next <|
    if s.audIs k 1 && (!isAes k || s.bit (F.AUD_EP_STATUS_LOCKED k)) then
      (if 64 ≤ (s.aud k).frames.length then s.audBlock k else s).audIn k slots bad room
    else s

/-- AUD_BLOCK_COMPLETE (R439, R440). -/
def execAudBlockComplete (k : Nat) (s : State) : Host.Outcome State Fault Refusal :=
  .next <| if s.audIs k 1 && decide (64 ≤ (s.aud k).frames.length) then s.audBlock k else s

/-- AUD_FRAME_OUT (R441, R446): `held` says that the HBM was held at its limit by refresh or retraining and the frame did
not come. -/
def execAudFrameOut (k : Nat) (held : Bool) (errs : List MemErr) (s : State) : Host.Outcome State Fault Refusal :=
  .next <| if s.audIs k 2 then s.audOut k held errs else s

/-- AUD_OUT_BLOCK_BOUNDARY (R441 step 3). -/
def execAudOutBlockBoundary (k : Nat) (s : State) : Host.Outcome State Fault Refusal :=
  .next <|
    let x := s.aud k
    if s.audIs k 2 && decide (0 < x.count) && x.count % 64 == 0 && !x.bounded then s.audBoundary k else s

/-- AES_CS_BLOCK (R438, R443): the 24 channel status bytes of channel A, and the mute that byte 0 bit 1 asks. -/
def execAesCsBlock (k : Nat) (bytes : List Byte) (s : State) : Host.Outcome State Fault Refusal :=
  .next <|
    if s.audIs k 1 && isAes k && s.bit (F.AUD_EP_STATUS_LOCKED k) then
      let s1 := (List.range 6).foldl (fun s' j => s'.setF (F.AUD_EP_CS_BYTES k j) (fieldAt bytes (4 * j) 4)) s
      (s1.setAud k { s1.aud k with csMute := (byteAt bytes 0).testBit 1 }).audMuteStatus k
    else s

/-- AES_LOCK_LOST (R438, R447): the block in progress is not written. -/
def execAesLockLost (k : Nat) (s : State) : Host.Outcome State Fault Refusal :=
  .next <|
    if s.audIs k 1 && isAes k && s.bit (F.AUD_EP_STATUS_LOCKED k) then
      let s1 := (s.setAud k { s.aud k with frames := [], flags := 0 }).unflag (F.AUD_EP_STATUS_LOCKED k)
      (s1.unflag (F.AUD_EP_STATUS_RUNNING k)).audErr k 4 none 0
    else s

/-- AES_LOCK_GAINED (R438). -/
def execAesLockGained (k : Nat) (s : State) : Host.Outcome State Fault Refusal :=
  .next <| if s.audIs k 1 && isAes k then s.flag (F.AUD_EP_STATUS_LOCKED k) else s

/-- AUD_NONAUDIO_END (R443): the mute of a pair ends once 16,384 frames have passed since its last preamble. -/
def execAudNonaudioEnd (k pair : Nat) (s : State) : Host.Outcome State Fault Refusal :=
  .next <|
    match (s.aud k).muted.at none pair with
    | some n =>
      if s.audIs k 1 && decide (16384 ≤ n) then
        (s.setAud k { s.aud k with muted := (s.aud k).muted.put none pair none }).audMuteStatus k
      else s
    | none => s

/-- AUD_SLOT_MASK_WRITE (R444): the value is held in shadow; a write within one bit clock before an edge is counted as
late. -/
def execAudSlotMaskWrite (k : Nat) (val : Word) (late : Bool) (s : State) : Host.Outcome State Fault Refusal :=
  .next <| s.bus 11 fun s =>
    if s.up 11 && decide (k < 12) then
      let s1 := (s.setF (F.AUD_EP_SLOT_MASK_MASK k) (val.toNat % 65536)).flag (F.AUD_EP_STATUS_MASK_PENDING k)
      s1.when late (·.bump (F.AUD_EP_CNT_COUNT k 6))
    else s

/-- AUD_SLOT_MASK_APPLY (R444): a block whose frames carry two masks carries MASK_CHANGE. -/
def execAudSlotMaskApply (k : Nat) (s : State) : Host.Outcome State Fault Refusal :=
  .next <|
    if s.up 11 && decide (k < 12) && s.bit (F.AUD_EP_STATUS_MASK_PENDING k) then
      let m := s.getF (F.AUD_EP_SLOT_MASK_MASK k)
      let x := s.aud k
      let two := m != s.getF (F.AUD_EP_STATUS_APPLIED k) && !x.frames.isEmpty && decide (x.frames.length < 64)
      let s1 := (s.setF (F.AUD_EP_STATUS_APPLIED k) m).unflag (F.AUD_EP_STATUS_MASK_PENDING k)
      s1.when two (·.setAud k { x with flags := x.flags ||| 8 })
    else s

/-- AUD_TX30_PACKET (R445). -/
def execAudTx30Packet (t : Nat) (errs : List MemErr) (s : State) : Host.Outcome State Fault Refusal :=
  .next <| if s.up 11 && s.growing && decide (t < 2) then s.audSend t errs else s

end Sys2Proof.Machine
end

