-- ==== Sys2Proof/Machine/FxMath.lean ====
section
/-!
DEFINITION. Exact and fixed-point arithmetic for the formulas of the beds, the encoders' inputs and the pixel engines:
integer division with rounding (R182), square root, logarithm, exponential, sine and arctangent in fixed point.
-/

namespace Sys2Proof.Machine

/-- rdiv (R182): floor((2a + b) / (2b)), halves towards plus infinity. -/
def rdiv (a b : Int) : Int := (2 * a + b) / (2 * b)

/-- One bit of the integer square root, from the top. -/
def isqrtGo (n : Nat) : Nat → Nat → Nat
  | 0, r => r
  | k + 1, r => isqrtGo n k (if (r + 2 ^ k) * (r + 2 ^ k) ≤ n then r + 2 ^ k else r)

/-- The integer square root of a number below 4^bits. -/
def isqrt (bits n : Nat) : Nat := isqrtGo n bits 0

/-- The binary order of a positive number: the place of its top bit. -/
def topBit : Nat → Nat → Nat
  | 0, _ => 0
  | fuel + 1, n => if n < 2 then 0 else topBit fuel (n / 2) + 1

/-- Fraction bits of the logarithm of a mantissa in [1, 2), `x / 2^p`: repeated squaring. -/
def log2Frac (p : Nat) : Nat → Nat → Nat → Nat
  | 0, _, acc => acc
  | n + 1, x, acc =>
    let y := x * x / 2 ^ p
    if 2 ^ (p + 1) ≤ y then log2Frac p n (y / 2) (2 * acc + 1) else log2Frac p n y (2 * acc)

/-- log₂ of the positive number `x / 2^p`, with `n` fraction bits. -/
def fxLog2 (p n : Nat) (x : Nat) : Int :=
  let t := topBit (x.log2 + 1) x
  let w := p + n + 16
  let m := if t ≤ w then x * 2 ^ (w - t) else x / 2 ^ (t - w)
  ((t : Int) - (p : Int)) * (2 ^ n : Nat) + (log2Frac w n m 0 : Nat)

/-- The product of 2^(2^-i) over the set bits of a fraction of `n` bits, each root formed from the one before; working
precision `w` bits. -/
def exp2Frac (w f n : Nat) : Nat → Nat → Nat → Nat
  | 0, _, acc => acc
  | k + 1, root, acc =>
    let r := isqrt (w + 1) (root * 2 ^ w)
    exp2Frac w f n k r (if f.testBit k then acc * r / 2 ^ w else acc)

/-- 2^(y / 2^n) in units of 2^-w; 0 where it falls below the unit. -/
def fxExp2 (n w : Nat) (y : Int) : Nat :=
  let i := y / (2 ^ n : Nat)
  let f := (y % (2 ^ n : Nat)).toNat
  let ww := w + 16
  let m := exp2Frac ww f n n (2 * 2 ^ ww) (2 ^ ww)
  if 0 ≤ i then m * 2 ^ i.toNat / 2 ^ 16 else m / 2 ^ (16 + (-i).toNat)

/-- 2π in units of 2^-64. -/
def twoPi64 : Nat := 115904311329233965478

/-- ln 2 in units of 2^-64. -/
def ln2of64 : Nat := 12786308645202655660

/-- Terms of the series of sine and cosine: sum and next term at step k, argument squared `x2`, in units of 2^-48. -/
def trigSeries (x2 : Int) : Nat → Nat → Int → Int → Int
  | 0, _, _, acc => acc
  | n + 1, k, term, acc =>
    let t := -(term * x2 / (2 ^ 48 : Nat)) / ((k + 1) * (k + 2) : Nat)
    trigSeries x2 n (k + 2) t (acc + t)

/-- Cosine of `t / 2^48` turns, in units of 2^-48, for |t| at most an eighth of a turn. -/
def cosSmall (t : Int) : Int :=
  let x := t * twoPi64 / (2 ^ 64 : Nat)
  trigSeries (x * x / (2 ^ 48 : Nat)) 9 0 (2 ^ 48 : Nat) (2 ^ 48 : Nat)

/-- Sine of `t / 2^48` turns, in units of 2^-48, for |t| at most an eighth of a turn. -/
def sinSmall (t : Int) : Int :=
  let x := t * twoPi64 / (2 ^ 64 : Nat)
  trigSeries (x * x / (2 ^ 48 : Nat)) 9 1 x x

/-- Cosine and sine of `t / 2^48` turns. -/
def cosSin (t : Int) : Int × Int :=
  let u := t % (2 ^ 48 : Nat)
  let q := (u * 4 + (2 ^ 47 : Nat)) / (2 ^ 48 : Nat)
  let r := u - q * (2 ^ 46 : Nat)
  let c := cosSmall r
  let s := sinSmall r
  match (q % 4).toNat with
  | 0 => (c, s)
  | 1 => (-s, c)
  | 2 => (-c, -s)
  | _ => (s, -c)

/-- The angle of (x, y) within the first quadrant, by halving: units of 2^-48 turn. -/
def atanGo (x y : Int) : Nat → Int → Int → Int
  | 0, lo, _ => lo
  | n + 1, lo, step =>
    let m := lo + step
    let (c, s) := cosSin m
    if x * s ≤ y * c then atanGo x y n m (step / 2) else atanGo x y n lo (step / 2)

/-- atan2(y, x) in units of 2^-48 turn, from 0 to a turn. -/
def fxAtan2 (y x : Int) : Int :=
  let go (a b : Int) : Int := atanGo a b 24 0 ((2 ^ 45 : Nat) : Int)
  if x = 0 ∧ y = 0 then 0
  else if 0 ≤ y ∧ 0 < x then go x y
  else if 0 < y ∧ x ≤ 0 then (2 ^ 46 : Nat) + go y (-x)
  else if y ≤ 0 ∧ x < 0 then (2 ^ 47 : Nat) + go (-x) (-y)
  else 3 * (2 ^ 46 : Nat) + go (-y) x

end Sys2Proof.Machine
end

