-- ==== Sys2Proof/Machine/Float32.lean ====
section
/-!
DEFINITION. IEEE 754 binary32 as the pixel engines compute it (R236): round to nearest even, subnormals flushed to zero
of the same sign, every NaN result 0x7FC0_0000; and binary16, for the 3D LUT and the LINEAR encoding (R181).
-/

namespace Sys2Proof

/-- Which of the admitted results an approximating operation gives: a free value of the operation and its operand, the
same on every engine (R235, R236). -/
opaque Config.approx : Nat → Nat → Nat

namespace Machine

/-- A binary32 operand: NaN, an infinity, or a finite number m × 2^e with its sign (subnormals read as zero). -/
inductive F32 where
  | nan
  | inf (neg : Bool)
  | fin (neg : Bool) (m : Nat) (e : Int)
  deriving DecidableEq, Repr

/-- The canonical NaN (R236). -/
def nan32 : Nat := 0x7FC00000

/-- The sign bit of a word. -/
def signBit (neg : Bool) : Nat := if neg then 0x80000000 else 0

/-- Read a word as binary32, subnormal inputs flushed (R236). -/
def f32 (w : Nat) : F32 :=
  let neg := w / 2 ^ 31 % 2 == 1
  let ex : Nat := w / 2 ^ 23 % 256
  let fr : Nat := w % 2 ^ 23
  if ex = 255 then (if fr = 0 then .inf neg else .nan)
  else if ex = 0 then .fin neg 0 0
  else .fin neg (fr + 2 ^ 23) ((ex : Int) - 150)

/-- Round m × 2^e to binary32, to nearest with ties to even; `sticky` says that the exact value lies a little above
m × 2^e. A result below the normal range is flushed to zero. -/
def roundF32 (neg : Bool) (m : Nat) (e : Int) (sticky : Bool) : Nat :=
  if m = 0 then signBit neg
  else
    let t := m.log2
    let q : Nat × Nat × Bool :=
      if t ≤ 23 then (m * 2 ^ (23 - t), 0, false)
      else (m / 2 ^ (t - 23), m / 2 ^ (t - 24) % 2, m % 2 ^ (t - 24) != 0)
    let up := q.2.1 == 1 && (q.2.2 || sticky || q.1 % 2 == 1)
    let r := if up then q.1 + 1 else q.1
    let (r', t') := if r = 2 ^ 24 then (2 ^ 23, t + 1) else (r, t)
    let ex := (t' : Int) + e + 127
    if ex ≤ 0 then signBit neg
    else if 255 ≤ ex then signBit neg + 0x7F800000
    else signBit neg + ex.toNat * 2 ^ 23 + (r' - 2 ^ 23)

/-- Round an integer multiple of 2^e; a zero takes the sign given. -/
def roundInt (v e : Int) (zeroNeg : Bool) : Nat :=
  if v = 0 then signBit zeroNeg else roundF32 (decide (v < 0)) v.natAbs e false

/-- A finite operand as a signed mantissa at exponent `e`, which is no greater than its own. -/
def alignTo (neg : Bool) (m : Nat) (e0 e : Int) : Int :=
  let v : Int := m * 2 ^ (e0 - e).toNat
  if neg then -v else v

/-- Sum of two binary32 values. -/
def fAdd (a b : Nat) : Nat :=
  match f32 a, f32 b with
  | .nan, _ | _, .nan => nan32
  | .inf s, .inf t => if s = t then signBit s + 0x7F800000 else nan32
  | .inf s, _ => signBit s + 0x7F800000
  | _, .inf t => signBit t + 0x7F800000
  | .fin s m e, .fin t n f =>
    if m = 0 ∧ n = 0 then signBit (s && t)
    else
      let k := if m = 0 then f else if n = 0 then e else min e f
      roundInt (alignTo s m (max e k) k + alignTo t n (max f k) k) k false

/-- The negation of a word's sign. -/
def fNeg (a : Nat) : Nat := if a / 2 ^ 31 % 2 = 1 then a - 2 ^ 31 else a + 2 ^ 31

/-- Difference. -/
def fSub (a b : Nat) : Nat :=
  match f32 b with
  | .nan => nan32
  | _ => fAdd a (fNeg b)

/-- Product. -/
def fMul (a b : Nat) : Nat :=
  match f32 a, f32 b with
  | .nan, _ | _, .nan => nan32
  | .inf s, .inf t => signBit (s != t) + 0x7F800000
  | .inf s, .fin t n _ => if n = 0 then nan32 else signBit (s != t) + 0x7F800000
  | .fin s m _, .inf t => if m = 0 then nan32 else signBit (s != t) + 0x7F800000
  | .fin s m e, .fin t n f => roundF32 (s != t) (m * n) (e + f) false

/-- a × b + c with one rounding. -/
def fFma (a b c : Nat) : Nat :=
  match f32 a, f32 b, f32 c with
  | .nan, _, _ | _, .nan, _ | _, _, .nan => nan32
  | .fin s m e, .fin t n f, .fin u k g =>
    if m * n = 0 ∧ k = 0 then signBit ((s != t) && u)
    else
      let x := e + f
      let z := if m * n = 0 then g else if k = 0 then x else min x g
      roundInt (alignTo (s != t) (m * n) (max x z) z + alignTo u k (max g z) z) z false
  | .fin _ _ _, .fin _ _ _, .inf u => signBit u + 0x7F800000
  | x, y, z =>
    let zero (v : F32) : Bool := match v with | .fin _ m _ => m == 0 | _ => false
    let neg (v : F32) : Bool := match v with | .fin s _ _ | .inf s => s | .nan => false
    let p := neg x != neg y
    if zero x || zero y then nan32
    else match z with
      | .inf u => if u = p then signBit p + 0x7F800000 else nan32
      | _ => signBit p + 0x7F800000

/-- The order key of a number: larger for larger values, with -0 below +0. -/
def fKey (w : Nat) : Int :=
  match f32 w with
  | .fin s 0 _ => if s then -1 else 0
  | _ => if w / 2 ^ 31 % 2 = 1 then -((w % 2 ^ 31 : Nat) : Int) - 1 else (w % 2 ^ 31 : Nat)

/-- A word with a subnormal flushed and a NaN made canonical. -/
def fCanon (w : Nat) : Nat :=
  match f32 w with
  | .nan => nan32
  | .fin s 0 _ => signBit s
  | _ => w % 2 ^ 32

/-- Minimum and maximum; a NaN operand gives the other. -/
def fMin (a b : Nat) : Nat :=
  match f32 a, f32 b with
  | .nan, _ => fCanon b
  | _, .nan => fCanon a
  | _, _ => if fKey a ≤ fKey b then fCanon a else fCanon b
def fMax (a b : Nat) : Nat :=
  match f32 a, f32 b with
  | .nan, _ => fCanon b
  | _, .nan => fCanon a
  | _, _ => if fKey b ≤ fKey a then fCanon a else fCanon b

/-- FCVTIF: a signed integer times 2^-n. -/
def fFromInt (v : Int) (n : Nat) : Nat := roundInt v (-(n : Int)) false

/-- m × 2^e rounded to an integer, to nearest with ties to even. -/
def roundToInt (m : Nat) (e : Int) : Nat :=
  if 0 ≤ e then m * 2 ^ e.toNat
  else
    let k := (-e).toNat
    let q := m / 2 ^ k
    let r := m % 2 ^ k
    if r * 2 < 2 ^ k then q else if 2 ^ k < r * 2 then q + 1 else q + q % 2

/-- FCVTFI: a × 2^n rounded to nearest even and saturated; NaN gives 0. -/
def fToInt (w n : Nat) : Int :=
  match f32 w with
  | .nan => 0
  | .inf s => if s then -(2 ^ 31 : Nat) else (2 ^ 31 : Nat) - 1
  | .fin s m e =>
    let k := if 64 < e + n ∧ 0 < m then (2 ^ 40 : Nat) else roundToInt m (e + n)
    let v : Int := if s then -(k : Int) else k
    max (-(2 ^ 31 : Nat) : Int) (min ((2 ^ 31 : Nat) - 1) v)

/-- The float `k` places above or below a positive finite one; it stays within the normal range. -/
def fNudge (w : Nat) (k : Int) : Nat := ((w : Int) + k).toNat

/-- One of the floats within 1 ulp of a positive exact value whose truncation is `m × 2^e`: the truncation or the float
above, as the free value of the operation says; the truncation itself where it is exact. -/
def approx1 (op x : Nat) (neg : Bool) (m : Nat) (e : Int) : Nat :=
  let t := m.log2
  let r := roundF32 false (m / 2 ^ (t - 23)) (e + ((t - 23 : Nat) : Int)) false
  let w := if Config.approx op x % 2 = 0 then r else fNudge r 1
  (w % 2 ^ 31) + signBit neg

/-- FRCP: 1/a within 1 ulp. -/
def fRcp (w : Nat) : Nat :=
  match f32 w with
  | .nan => nan32
  | .inf s => signBit s
  | .fin s m e =>
    if m = 0 then signBit s + 0x7F800000
    else if 126 < e + 23 then signBit s
    else approx1 0x48 w s (2 ^ 80 / m) (-80 - e)

/-- FRSQ: 1/√a within 1 ulp. -/
def fRsq (w : Nat) : Nat :=
  match f32 w with
  | .nan => nan32
  | .inf s => if s then nan32 else 0
  | .fin s m e =>
    if m = 0 then signBit s + 0x7F800000
    else if s then nan32
    else
      let k := if e % 2 = 0 then (0 : Nat) else 1
      approx1 0x49 w false (isqrt 80 (2 ^ 140 / (m * 2 ^ k))) (-70 - (e - k) / 2)

/-- One of the floats within 2 ulp of an exact value truncated to `m × 2^e`. -/
def approx2 (op x : Nat) (neg : Bool) (m : Nat) (e : Int) : Nat :=
  if m = 0 then 0
  else
    let t := m.log2
    let r := if 23 ≤ t then roundF32 false (m / 2 ^ (t - 23)) (e + ((t - 23 : Nat) : Int)) false
      else roundF32 false m e false
    (fNudge r ((Config.approx op x % 4 : Nat) - 1) % 2 ^ 31) + signBit neg

/-- FLOG2: log₂ a within 2 ulp. -/
def fLog2 (w : Nat) : Nat :=
  match f32 w with
  | .nan => nan32
  | .inf s => if s then nan32 else 0x7F800000
  | .fin s m e =>
    if m = 0 then 0xFF800000
    else if s then nan32
    else
      let v := fxLog2 23 80 m + (e + 23) * (2 ^ 80 : Nat)
      approx2 0x4A w (decide (v < 0)) v.natAbs (-80)

/-- FEXP2: 2^a within 2 ulp; results beyond the range overflow to infinity or are flushed. -/
def fExp2 (w : Nat) : Nat :=
  match f32 w with
  | .nan => nan32
  | .inf s => if s then 0 else 0x7F800000
  | .fin s m e =>
    if m = 0 then 0x3F800000
    else if 130 < e + (m.log2 : Int) + 1 ∨ 8 < e + (m.log2 : Int) then (if s then 0 else 0x7F800000)
    else
      let v : Int := (if 0 ≤ e + 64 then (m * 2 ^ (e + 64).toNat : Nat) else (m / 2 ^ (-(e + 64)).toNat : Nat))
      let y := if s then -v else v
      let i := y / (2 ^ 64 : Nat)
      let f := fxExp2 64 40 (y % (2 ^ 64 : Nat))
      if 128 ≤ i then 0x7F800000 else if i < -126 then 0 else approx2 0x4B w false f (i - 40)

/-! ## binary16 (R181) -/

/-- A binary16 code as an integer in units of 2^-24; NaN counts as 0 and an infinity as the SL limit (R203). -/
def f16Value (w : Nat) : Int :=
  let neg := w / 2 ^ 15 % 2 == 1
  let ex := w / 2 ^ 10 % 32
  let fr := w % 2 ^ 10
  let v : Nat :=
    if ex = 31 then (if fr = 0 then 2 ^ 31 else 0)
    else if ex = 0 then fr else (fr + 2 ^ 10) * 2 ^ (ex - 1)
  if neg then -(v : Int) else v

/-- An exact value `v × 2^-p` as binary16, to nearest with ties to even; overflow gives an infinity. -/
def toF16 (v : Int) (p : Nat) : Nat :=
  let neg := decide (v < 0)
  let m := v.natAbs
  let sign := if neg then 0x8000 else 0
  if m = 0 then sign
  else
    let e : Int := (m.log2 : Int) - p
    let q : Int := max e (-14) - 10
    let r := roundToInt m (-(p : Int) - q)
    let ex : Int := max e (-14)
    let (r', ex') := if r = 2048 then (1024, ex + 1) else (r, ex)
    if 15 < ex' then sign + 0x7C00
    else if r' < 1024 then sign + r' else sign + (ex' + 15).toNat * 1024 + (r' - 1024)

end Machine

end Sys2Proof
end

