-- ==== Sys2Proof/Machine/PeOps.lean ====
section
/-!
DEFINITION. Pixel engines as shared operations: registers, local memory, the operations of R235 on one engine, the
instruction word, issue timing and the running of a kernel over a line (spec/08_pixel_engines.md).
-/

namespace Sys2Proof

/-- A byte of a poisoned word of local memory as a load finds it: a free value of its address (R251). -/
opaque Config.poisonByte : Nat → Byte

/-- The immediate, sign-extended to 32 bits (R232). -/
def PeOp.immS (o : PeOp) : Int := o.imm.toInt

/-- The immediate as a 32-bit pattern. -/
def PeOp.imm32 (o : PeOp) : Nat := (o.imm.signExtend 32).toNat

/-- The shift count: IMM[4:0], in 16-bit mode IMM[3:0] (R233). -/
def PeOp.shift (o : PeOp) : Nat := if o.mode % 2 = 1 then o.imm.toNat % 16 else o.imm.toNat % 32

namespace Machine

/-! ## Number formats of the splice points (R181, R198) -/

/-- S21 and SL, to which every stage result is clamped (R181). -/
def clampS21 (v : Int) : Int := clampInt (-1048576) 1048575 v
def clampSL (v : Int) : Int := clampInt (-134217728) 134217727 v

/-- Period replication (R198): a coordinate outside 0 to w - 1 is replaced by one of the same period within it. -/
def replicate (p w : Nat) (x : Int) : Nat :=
  if x < 0 then (x % (p : Int)).toNat
  else if x < w then x.toNat
  else w - p + (x.toNat - w) % p

/-! ## Registers -/

/-- A scalar register; s0 reads 0 (R230). -/
def PeEngine.sr (g : PeEngine) (n : Nat) : Nat := if n % 32 = 0 then 0 else g.s.at 0 (n % 32)

/-- Write a scalar register; a write to s0 is discarded (R230). -/
def PeEngine.setS (g : PeEngine) (n v : Nat) : PeEngine :=
  if n % 32 = 0 then g else { g with s := g.s.put 0 (n % 32) (v % 2 ^ 32) }

/-- Sixteen zero lanes. -/
def zeroLanes : List Nat := List.replicate 16 0

/-- A vector register: 16 lanes. -/
def PeEngine.vr (g : PeEngine) (n : Nat) : List Nat := g.v.at zeroLanes (n % 64)

/-- Write a vector register. -/
def PeEngine.setV (g : PeEngine) (n : Nat) (l : List Nat) : PeEngine :=
  { g with v := g.v.put zeroLanes (n % 64) ((List.range 16).map fun i => l.getD i 0 % 2 ^ 32) }

/-- The second operand of a vector operation by MODE (R232): vector b, or scalar b broadcast to every lane, or its low
half to every half. -/
def PeEngine.vb (g : PeEngine) (o : PeOp) : List Nat :=
  if o.mode = 2 then List.replicate 16 (g.sr o.b)
  else if o.mode = 3 then List.replicate 16 (g.sr o.b % 2 ^ 16 * 65537)
  else g.vr o.b

/-- One lane, or its two halves each on its own (R233); `f` takes the width and the operands' patterns. -/
def onLane (mode : Nat) (f : Nat → Nat → Nat → Nat → Nat) (x y z : Nat) : Nat :=
  if mode % 2 = 1 then
    f 16 (x % 65536) (y % 65536) (z % 65536) % 65536
      + 65536 * (f 16 (x / 65536 % 65536) (y / 65536 % 65536) (z / 65536 % 65536) % 65536)
  else f 32 x y z % 2 ^ 32

/-- Lane by lane over three vectors. -/
def onLanes (mode : Nat) (f : Nat → Nat → Nat → Nat → Nat) (x y z : List Nat) : List Nat :=
  (List.range 16).map fun i => onLane mode f (x.getD i 0) (y.getD i 0) (z.getD i 0)

/-- A vector operation over a, b and c. -/
def PeEngine.vec (g : PeEngine) (o : PeOp) (f : Nat → Nat → Nat → Nat → Nat) : PeEngine :=
  g.setV o.d (onLanes o.mode f (g.vr o.a) (g.vb o) (g.vr o.c))

/-- A vector operation on signed integers, wrapping to the width (R236). -/
def PeEngine.vecInt (g : PeEngine) (o : PeOp) (f : Int → Int → Int → Int) : PeEngine :=
  g.vec o fun w x y z => patternOf w (f (signedOf w x) (signedOf w y) (signedOf w z))

/-- A scalar operation on signed integers, wrapping to 32 bits. -/
def PeEngine.scalar (g : PeEngine) (o : PeOp) (f : Int → Int → Int) : PeEngine :=
  g.setS o.d (patternOf 32 (f (signedOf 32 (g.sr o.a)) (signedOf 32 (g.sr o.b))))

/-- A scalar operation on patterns. -/
def PeEngine.scalarNat (g : PeEngine) (o : PeOp) (f : Nat → Nat → Nat) : PeEngine :=
  g.setS o.d (f (g.sr o.a) (g.sr o.b))

/-- rsh(p, n) (R235). -/
def rsh (p : Int) (n : Nat) : Int := if n = 0 then p else (p + (2 ^ (n - 1) : Nat)) / (2 ^ n : Nat)

/-- sat16 (R236). -/
def sat16 (v : Int) : Int := clampInt (-32768) 32767 v

/-! ## Local memory (R237, R238) -/

/-- The byte at an address modulo 2^18; none when it is poisoned. -/
def PeEngine.byte (g : PeEngine) (a : Nat) : Option Byte := g.mem.get (fun k => some (g.init.getD k 0#8)) (a % 2 ^ 18)

/-- Load `n` bytes at a scalar address with its low bits cleared; the engine notes a poisoned word. -/
def PeEngine.load (g : PeEngine) (a : Int) (n : Nat) : List Byte × PeEngine :=
  let base := patternOf 18 a / n * n
  let l := (List.range n).map fun i => (g.byte (base + i), base + i)
  (l.map fun (b, k) => match b with | some x => x | none => Config.poisonByte k,
   if l.any (·.1.isNone) then { g with poison := true } else g)

/-- Store bytes; those of the constant region are discarded and set CONST_WR (R238). -/
def PeEngine.store (g : PeEngine) (a : Int) (l : List Byte) : PeEngine :=
  let base := patternOf 18 a / l.length * l.length
  l.zipIdx.foldl (fun h (b, i) =>
    if base + i < h.constLen then { h with constWr := true }
    else { h with mem := h.mem.set (fun k => some (h.init.getD k 0#8)) (base + i) (some b) }) g

/-- The 32-bit lanes that bytes spell (R10). -/
def lanesOf (l : List Byte) : List Nat := (List.range (l.length / 4)).map fun i => fieldAt l (4 * i) 4

/-! ## The operations of R235, on one engine -/

def peNop (_ : PeOp) (g : PeEngine) : PeEngine := g
def peSadd (o : PeOp) (g : PeEngine) : PeEngine := g.scalar o fun x y => x + y
def peSsub (o : PeOp) (g : PeEngine) : PeEngine := g.scalar o fun x y => x - y
def peSaddi (o : PeOp) (g : PeEngine) : PeEngine := g.setS o.d (patternOf 32 ((g.sr o.a : Int) + o.immS))
def peSmul (o : PeOp) (g : PeEngine) : PeEngine := g.scalar o fun x y => x * y
def peSand (o : PeOp) (g : PeEngine) : PeEngine := g.scalarNat o fun x y => x &&& y
def peSor (o : PeOp) (g : PeEngine) : PeEngine := g.scalarNat o fun x y => x ||| y
def peSxor (o : PeOp) (g : PeEngine) : PeEngine := g.scalarNat o fun x y => x ^^^ y
def peSshli (o : PeOp) (g : PeEngine) : PeEngine := g.setS o.d (g.sr o.a * 2 ^ (o.imm.toNat % 32))
def peSsrli (o : PeOp) (g : PeEngine) : PeEngine := g.setS o.d (g.sr o.a / 2 ^ (o.imm.toNat % 32))
def peSsrai (o : PeOp) (g : PeEngine) : PeEngine :=
  g.setS o.d (patternOf 32 (signedOf 32 (g.sr o.a) / (2 ^ (o.imm.toNat % 32) : Nat)))
def peSli (o : PeOp) (g : PeEngine) : PeEngine := g.setS o.d o.imm32
def peSlih (o : PeOp) (g : PeEngine) : PeEngine :=
  g.setS o.d (o.imm.toNat % 2 ^ 16 * 2 ^ 16 + g.sr o.d % 2 ^ 16)
def peSlt (o : PeOp) (g : PeEngine) : PeEngine := g.scalar o fun x y => if x < y then 1 else 0

/-- SPRM (R241): kernel parameter IMM[3:0] of slot s3. -/
def peSprm (o : PeOp) (g : PeEngine) : PeEngine :=
  g.setS o.d (g.ctx.params.getD (g.sr 3 % 8 * 16 + o.imm.toNat % 16) 0)

/-- The condition of BR (R235); codes above 4 meet no kernel (R234). -/
def PeEngine.taken (g : PeEngine) (o : PeOp) : Bool :=
  let x := signedOf 32 (g.sr o.a)
  let y := signedOf 32 (g.sr o.b)
  match o.c with
  | 0 => true
  | 1 => decide (x = y)
  | 2 => decide (x ≠ y)
  | 3 => decide (x < y)
  | 4 => decide (y ≤ x)
  | _ => false

/-- BR moves the pc by IMM instructions when its condition holds; the sequencer adds 1 to every other pc. -/
def peBr (o : PeOp) (g : PeEngine) : PeEngine :=
  if g.taken o then { g with pc := patternOf 32 ((g.pc : Int) + o.immS - 1) } else g

def peVadd (o : PeOp) (g : PeEngine) : PeEngine := g.vecInt o fun x y _ => x + y
def peVsub (o : PeOp) (g : PeEngine) : PeEngine := g.vecInt o fun x y _ => x - y
def peVmulsh (o : PeOp) (g : PeEngine) : PeEngine := g.vecInt o fun x y _ => rsh (x * y) o.shift
def peVmadsh (o : PeOp) (g : PeEngine) : PeEngine := g.vecInt o fun x y z => z + rsh (x * y) o.shift
def peVmin (o : PeOp) (g : PeEngine) : PeEngine := g.vecInt o fun x y _ => min x y
def peVmax (o : PeOp) (g : PeEngine) : PeEngine := g.vecInt o fun x y _ => max x y
def peVabs (o : PeOp) (g : PeEngine) : PeEngine := g.vecInt o fun x _ _ => (x.natAbs : Int)
def peVand (o : PeOp) (g : PeEngine) : PeEngine := g.vec o fun _ x y _ => x &&& y
def peVor (o : PeOp) (g : PeEngine) : PeEngine := g.vec o fun _ x y _ => x ||| y
def peVxor (o : PeOp) (g : PeEngine) : PeEngine := g.vec o fun _ x y _ => x ^^^ y
def peVshli (o : PeOp) (g : PeEngine) : PeEngine := g.vec o fun _ x _ _ => x * 2 ^ o.shift
def peVsrli (o : PeOp) (g : PeEngine) : PeEngine := g.vec o fun _ x _ _ => x / 2 ^ o.shift
def peVsrai (o : PeOp) (g : PeEngine) : PeEngine := g.vecInt o fun x _ _ => x / (2 ^ o.shift : Nat)
def peVrsh (o : PeOp) (g : PeEngine) : PeEngine := g.vecInt o fun x _ _ => rsh x o.shift
def peVclamp (o : PeOp) (g : PeEngine) : PeEngine := g.vecInt o fun x y z => min (max x y) z
def peVsel (o : PeOp) (g : PeEngine) : PeEngine := g.vec o fun _ x y z => if z ≠ 0 then x else y
def peVcmplt (o : PeOp) (g : PeEngine) : PeEngine := g.vecInt o fun x y _ => if x < y then -1 else 0
def peVcmpeq (o : PeOp) (g : PeEngine) : PeEngine := g.vecInt o fun x y _ => if x = y then -1 else 0
def peVcmple (o : PeOp) (g : PeEngine) : PeEngine := g.vecInt o fun x y _ => if x ≤ y then -1 else 0
def peVspl (o : PeOp) (g : PeEngine) : PeEngine :=
  g.setV o.d (List.replicate 16 (if o.mode % 2 = 1 then o.imm.toNat % 2 ^ 16 * 65537 else o.imm32))
def peVbrd (o : PeOp) (g : PeEngine) : PeEngine := g.setV o.d (List.replicate 16 (g.sr o.a))
def peVpack (o : PeOp) (g : PeEngine) : PeEngine :=
  g.setV o.d (onLanes 0 (fun _ x y _ =>
    patternOf 16 (sat16 (signedOf 32 y)) * 2 ^ 16 + patternOf 16 (sat16 (signedOf 32 x))) (g.vr o.a) (g.vr o.b) zeroLanes)
def peVunpl (o : PeOp) (g : PeEngine) : PeEngine :=
  g.setV o.d ((g.vr o.a).map fun x => patternOf 32 (signedOf 16 x))
def peVunph (o : PeOp) (g : PeEngine) : PeEngine :=
  g.setV o.d ((g.vr o.a).map fun x => patternOf 32 (signedOf 16 (x / 2 ^ 16)))
def peVshuf (o : PeOp) (g : PeEngine) : PeEngine :=
  g.setV o.d ((g.vr o.b).map fun i => (g.vr o.a).getD (i % 16) 0)
def peVext (o : PeOp) (g : PeEngine) : PeEngine := g.setS o.d ((g.vr o.a).getD (o.imm.toNat % 16) 0)
def peVins (o : PeOp) (g : PeEngine) : PeEngine :=
  g.setV o.d ((g.vr o.d).set (o.imm.toNat % 16) (g.sr o.b))
def peVred (o : PeOp) (g : PeEngine) : PeEngine := g.setS o.d (g.vr o.a).sum
def peFadd (o : PeOp) (g : PeEngine) : PeEngine := g.vec o fun _ x y _ => fAdd x y
def peFsub (o : PeOp) (g : PeEngine) : PeEngine := g.vec o fun _ x y _ => fSub x y
def peFmul (o : PeOp) (g : PeEngine) : PeEngine := g.vec o fun _ x y _ => fMul x y
def peFma (o : PeOp) (g : PeEngine) : PeEngine := g.vec o fun _ x y z => fFma x y z
def peFmin (o : PeOp) (g : PeEngine) : PeEngine := g.vec o fun _ x y _ => fMin x y
def peFmax (o : PeOp) (g : PeEngine) : PeEngine := g.vec o fun _ x y _ => fMax x y
def peFcvtif (o : PeOp) (g : PeEngine) : PeEngine :=
  g.vec o fun _ x _ _ => fFromInt (signedOf 32 x) (o.imm.toNat % 32)
def peFcvtfi (o : PeOp) (g : PeEngine) : PeEngine :=
  g.vec o fun _ x _ _ => patternOf 32 (fToInt x (o.imm.toNat % 32))
def peFrcp (o : PeOp) (g : PeEngine) : PeEngine := g.vec o fun _ x _ _ => fRcp x
def peFrsq (o : PeOp) (g : PeEngine) : PeEngine := g.vec o fun _ x _ _ => fRsq x
def peFlog2 (o : PeOp) (g : PeEngine) : PeEngine := g.vec o fun _ x _ _ => fLog2 x
def peFexp2 (o : PeOp) (g : PeEngine) : PeEngine := g.vec o fun _ x _ _ => fExp2 x

/-- VLD: 64 bytes at scalar a + imm (R238). -/
def peVld (o : PeOp) (g : PeEngine) : PeEngine :=
  let (l, h) := g.load ((g.sr o.a : Int) + o.immS) 64
  h.setV o.d (lanesOf l)

/-- VST: 64 bytes at scalar a + imm = vector b. -/
def peVst (o : PeOp) (g : PeEngine) : PeEngine :=
  g.store ((g.sr o.a : Int) + o.immS) ((g.vr o.b).flatMap (leBytes 4))

/-- VGATH: each lane loads 4 bytes at scalar a + 4 × b[i]. -/
def peVgath (o : PeOp) (g : PeEngine) : PeEngine :=
  let r := (g.vr o.b).foldl (fun (acc : List Nat × PeEngine) i =>
    let (l, h) := acc.2.load ((g.sr o.a : Int) + 4 * signedOf 32 i) 4
    (acc.1 ++ [leNat l], h)) ([], g)
  r.2.setV o.d r.1

/-- SLD: 4 bytes at scalar a + imm. -/
def peSld (o : PeOp) (g : PeEngine) : PeEngine :=
  let (l, h) := g.load ((g.sr o.a : Int) + o.immS) 4
  h.setS o.d (leNat l)

/-- SST: 4 bytes at scalar a + imm = scalar b. -/
def peSst (o : PeOp) (g : PeEngine) : PeEngine := g.store ((g.sr o.a : Int) + o.immS) (leBytes 4 (g.sr o.b))

/-- The value of component `c` at a column and a row of the window (R239): replication outside the frame, and 0 in a row
that a cut marker stands for. -/
def PeCtx.window (k : PeCtx) (c : Nat) (x y : Int) : Int :=
  let row := replicate k.period k.height y
  ((k.rows.at [] row).getD c []).getD (replicate k.period k.width x) 0

/-- WLD (R239): dx in IMM[5:0], dy in [9:6], the component in [11:10]; the row and the columns count from s2 and s1. -/
def peWld (o : PeOp) (g : PeEngine) : PeEngine :=
  let dx := signedOf 6 (o.imm.toNat % 64)
  let dy := signedOf 4 (bitsOf o.imm.toNat 6 4)
  let c := bitsOf o.imm.toNat 10 2
  let y := signedOf 32 (g.sr 2) + dy
  let h := if g.ctx.poisoned.contains (replicate g.ctx.period g.ctx.height y) then { g with poison := true } else g
  h.setV o.d ((List.range 16).map fun (i : Nat) => patternOf 32 (g.ctx.window c (signedOf 32 (g.sr 1) + (i : Nat) + dx) y))

/-- WST (R240): vector b as component IMM[1:0] of the tile, clamped to the format of the splice point. -/
def peWst (o : PeOp) (g : PeEngine) : PeEngine :=
  let clamp := if g.ctx.comps = 1 then clampS21 else clampSL
  { g with out := g.out.put [] (o.imm.toNat % 4) ((g.vr o.b).map fun x => clamp (signedOf 32 x)) }

/-- Enter the tile at column `x` of the line (R230). -/
def PeEngine.enterTile (g : PeEngine) (x : Nat) : PeEngine :=
  { g.setS 1 x with pc := g.entry, ended := false, inFrame := false, out := [], tileFrom := g.now, ctx := { g.ctx with x } }

/-- Columns of the tile that lie within the member's columns. -/
def PeCtx.tileCols (k : PeCtx) : List Nat := (List.range 16).filter fun i => decide (k.x + i < k.x1)

/-- Merge the tile into the line: what WST has written, or else the input at dx = 0, dy = 0 (R240). -/
def PeEngine.mergeTile (g : PeEngine) : List (List Int) :=
  (List.range g.ctx.comps).map fun c =>
    g.line.getD c [] ++ g.ctx.tileCols.map fun i =>
      match g.out.at [] c with
      | [] => g.ctx.window c (g.ctx.x + i : Nat) g.ctx.y
      | l => l.getD i 0

/-- END (R230, R231): a frame entry ends; a tile is merged and the next tile of the line is entered, or the line ends.
END issues at cycle `now`; the next tile starts in the cycle after it. -/
def peEnd (_ : PeOp) (g : PeEngine) : PeEngine :=
  if g.inFrame then { g with ended := true, carry := g.now + 1 }
  else
    let h := { g with line := g.mergeTile, tileMax := max g.tileMax (g.now + 1 - g.tileFrom) }
    if g.ctx.x + 16 < g.ctx.x1 then { h with now := g.now + 1 }.enterTile (g.ctx.x + 16)
    else { h with ended := true }

/-! ## The instruction word and the forms (R232 to R235) -/

/-- What a register field of an operation names. -/
inductive PeField where
  /-- the field must be zero -/
  | unused
  | scalar
  | vector
  /-- the condition of BR -/
  | cond
  /-- vector b, or scalar b in modes 2 and 3 -/
  | byMode
  deriving DecidableEq, Repr

/-- An operation's row in the table of R235. -/
structure PeForm where
  op : Nat
  modes : List Nat
  d : PeField
  a : PeField
  b : PeField
  c : PeField
  imm : Bool
  /-- d is a source too -/
  dRead : Bool
  latency : Nat
  interval : Nat
  /-- 0 none, 1 the special-function unit, 2 the memory unit -/
  unit : Nat
  deriving DecidableEq, Repr

/-- A form of the scalar group. -/
def sForm (op : Nat) (d a b : PeField) (imm : Bool) (latency : Nat) : PeForm :=
  { op, modes := [0], d, a, b, c := .unused, imm, dRead := op == 0x0C, latency, interval := 1, unit := 0 }

/-- A form of the vector group. -/
def vForm (op : Nat) (modes : List Nat) (d a b c : PeField) (imm : Bool) (latency : Nat) : PeForm :=
  { op, modes, d, a, b, c, imm, dRead := op == 0x3A, latency, interval := 1, unit := 0 }

/-- The scalar and control operations. -/
def peScalarForms : List PeForm :=
  [ sForm 0x00 .unused .unused .unused false 1, sForm 0x01 .scalar .scalar .scalar false 1,
    sForm 0x02 .scalar .scalar .scalar false 1, sForm 0x03 .scalar .scalar .unused true 1,
    sForm 0x04 .scalar .scalar .scalar false 3, sForm 0x05 .scalar .scalar .scalar false 1,
    sForm 0x06 .scalar .scalar .scalar false 1, sForm 0x07 .scalar .scalar .scalar false 1,
    sForm 0x08 .scalar .scalar .unused true 1, sForm 0x09 .scalar .scalar .unused true 1,
    sForm 0x0A .scalar .scalar .unused true 1, sForm 0x0B .scalar .unused .unused true 1,
    sForm 0x0C .scalar .unused .unused true 1, sForm 0x0D .scalar .scalar .scalar false 1,
    sForm 0x0E .scalar .unused .unused true 2,
    { sForm 0x10 .unused .scalar .scalar true 1 with c := .cond }, sForm 0x11 .unused .unused .unused false 1 ]

/-- The integer vector operations. -/
def peVectorForms : List PeForm :=
  let all := [0, 1, 2, 3]
  let two := [0, 1]
  let bin (op : Nat) := vForm op all .vector .vector .byMode .unused false 2
  let shift (op : Nat) := vForm op two .vector .vector .unused .unused true 2
  [ bin 0x20, bin 0x21, vForm 0x22 all .vector .vector .byMode .unused true 4,
    vForm 0x23 all .vector .vector .byMode .vector true 4, bin 0x24, bin 0x25,
    vForm 0x26 two .vector .vector .unused .unused false 2, bin 0x27, bin 0x28, bin 0x29, shift 0x2A, shift 0x2B,
    shift 0x2C, shift 0x2D, vForm 0x2E all .vector .vector .byMode .vector false 2,
    vForm 0x2F all .vector .vector .byMode .vector false 2, bin 0x30, bin 0x31, bin 0x32,
    vForm 0x33 two .vector .unused .unused .unused true 1, vForm 0x34 [0] .vector .scalar .unused .unused false 1,
    vForm 0x35 [0] .vector .vector .vector .unused false 2, vForm 0x36 [0] .vector .vector .unused .unused false 2,
    vForm 0x37 [0] .vector .vector .unused .unused false 2, vForm 0x38 [0] .vector .vector .vector .unused false 3,
    vForm 0x39 [0] .scalar .vector .unused .unused true 3, vForm 0x3A [0] .vector .unused .scalar .unused true 2,
    vForm 0x3B [0] .scalar .vector .unused .unused false 5 ]

/-- The floating-point, memory and window operations. -/
def peOtherForms : List PeForm :=
  let bin (op lat : Nat) := vForm op [0, 2] .vector .vector .byMode .unused false lat
  let sfu (op lat : Nat) :=
    { vForm op [0] .vector .vector .unused .unused false lat with unit := 1, interval := 4 }
  let mem (op : Nat) (d b : PeField) (imm : Bool) (lat int : Nat) :=
    { vForm op [0] d .scalar b .unused imm lat with unit := 2, interval := int }
  [ bin 0x40 4, bin 0x41 4, bin 0x42 4, vForm 0x43 [0, 2] .vector .vector .byMode .vector false 4, bin 0x44 2, bin 0x45 2,
    vForm 0x46 [0] .vector .vector .unused .unused true 4, vForm 0x47 [0] .vector .vector .unused .unused true 4,
    sfu 0x48 8, sfu 0x49 8, sfu 0x4A 10, sfu 0x4B 10, mem 0x60 .vector .unused true 6 1, mem 0x61 .unused .vector true 1 1,
    mem 0x62 .vector .vector false 10 4, mem 0x63 .scalar .unused true 5 1, mem 0x64 .unused .scalar true 1 1,
    vForm 0x70 [0] .vector .unused .unused .unused true 3, vForm 0x71 [0] .unused .unused .vector .unused true 1 ]

/-- The table of R235. -/
def peForms : List PeForm := peScalarForms ++ peVectorForms ++ peOtherForms

/-- The row of an operation code. -/
def peForm? (op : Nat) : Option PeForm := peForms.find? fun f => f.op == op

/-- The fields of a 64-bit instruction word (R232). -/
def peDecode (w : Nat) : Nat × PeOp :=
  (bitsOf w 56 8,
   { mode := bitsOf w 54 2, d := bitsOf w 48 6, a := bitsOf w 42 6, b := bitsOf w 36 6, c := bitsOf w 30 6,
     imm := BitVec.ofNat 30 (bitsOf w 0 30) })

/-- The instruction word of an operation code and its fields (R232). -/
def peEncode (op : Nat) (o : PeOp) : Nat :=
  op * 2 ^ 56 + o.mode * 2 ^ 54 + o.d * 2 ^ 48 + o.a * 2 ^ 42 + o.b * 2 ^ 36 + o.c * 2 ^ 30 + o.imm.toNat

/-- A register field is as the operation allows (R233, R234). -/
def PeField.ok (f : PeField) (mode v : Nat) : Bool :=
  match f with
  | .unused => v == 0
  | .scalar => decide (v < 32)
  | .vector => decide (v < 64)
  | .cond => decide (v ≤ 4)
  | .byMode => if 2 ≤ mode then decide (v < 32) else decide (v < 64)

/-- The window operand of WLD at a splice point with `rows` window rows and `comps` components, and the component of
WST, are within their limits (R239, R240). -/
def peWindowOk (op rows comps : Nat) (o : PeOp) : Bool :=
  if op = 0x70 then
    let dx := signedOf 6 (o.imm.toNat % 64)
    let dy := signedOf 4 (bitsOf o.imm.toNat 6 4)
    decide (-16 ≤ dx) && decide (dx ≤ 16) && decide (2 * dy.natAbs + 1 ≤ rows) && decide (bitsOf o.imm.toNat 10 2 < comps)
      && decide (o.imm.toNat < 2 ^ 12)
  else if op = 0x71 then decide (o.imm.toNat < comps)
  else true

/-- An instruction that no rule of R234 refuses. -/
def peWordOk (rows comps op : Nat) (o : PeOp) : Bool :=
  match peForm? op with
  | none => false
  | some f => f.modes.contains o.mode && f.d.ok o.mode o.d && f.a.ok o.mode o.a && f.b.ok o.mode o.b && f.c.ok o.mode o.c
      && (f.imm || o.imm == 0#30) && peWindowOk op rows comps o

/-! ## Issue (R235, R244) -/

/-- The ready key of a register field: scalar n, or 32 + n for vector n. -/
def PeField.key (f : PeField) (mode v : Nat) : Option Nat :=
  match f with
  | .scalar => some (v % 32)
  | .vector => some (32 + v % 64)
  | .byMode => if 2 ≤ mode then some (v % 32) else some (32 + v % 64)
  | _ => none

/-- The registers an instruction reads. -/
def PeForm.sources (f : PeForm) (o : PeOp) : List Nat :=
  [f.a.key o.mode o.a, f.b.key o.mode o.b, f.c.key o.mode o.c, if f.dRead then f.d.key o.mode o.d else none].filterMap id
    ++ (if f.op = 0x70 then [1, 2] else if f.op = 0x0E then [3] else [])

/-- The cycle an instruction issues at: its sources ready and its unit free (R235). -/
def PeEngine.issueAt (g : PeEngine) (f : PeForm) (o : PeOp) : Nat :=
  let t := (f.sources o).foldl (fun t r => max t (g.ready.at 0 r)) g.now
  if f.unit = 1 then max t g.sfuFree else if f.unit = 2 then max t g.memFree else t

/-- Issue an instruction and carry out its operation `act`: the pc moves on, the destination is ready after the latency
and the unit is free after the interval. -/
def PeEngine.issue (g : PeEngine) (f : PeForm) (o : PeOp) (act : PeOp → PeEngine → PeEngine) : PeEngine :=
  let t := g.issueAt f o
  let ready := match f.d.key o.mode o.d with
    | some r => g.ready.put 0 r (t + f.latency)
    | none => g.ready
  let h := act o { g with
    now := t, ready := ready, sfuFree := if f.unit = 1 then t + f.interval else g.sfuFree
    memFree := if f.unit = 2 then t + f.interval else g.memFree }
  if f.op = 0x11 then h
  else { h with pc := (h.pc + 1) % 2 ^ 32, now := t + (if f.op = 0x10 && g.taken o then 2 else 1) }

/-- The operation an operation code stands for; hardware meets no other code (R234). -/
def peOperation (op : Nat) : PeOp → PeEngine → PeEngine :=
  match op with
  | 0x00 => peNop | 0x01 => peSadd | 0x02 => peSsub | 0x03 => peSaddi | 0x04 => peSmul | 0x05 => peSand | 0x06 => peSor
  | 0x07 => peSxor | 0x08 => peSshli | 0x09 => peSsrli | 0x0A => peSsrai | 0x0B => peSli | 0x0C => peSlih
  | 0x0D => peSlt | 0x0E => peSprm | 0x10 => peBr | 0x11 => peEnd
  | 0x20 => peVadd | 0x21 => peVsub | 0x22 => peVmulsh | 0x23 => peVmadsh | 0x24 => peVmin | 0x25 => peVmax
  | 0x26 => peVabs | 0x27 => peVand | 0x28 => peVor | 0x29 => peVxor | 0x2A => peVshli | 0x2B => peVsrli
  | 0x2C => peVsrai | 0x2D => peVrsh | 0x2E => peVclamp | 0x2F => peVsel | 0x30 => peVcmplt | 0x31 => peVcmpeq
  | 0x32 => peVcmple | 0x33 => peVspl | 0x34 => peVbrd | 0x35 => peVpack | 0x36 => peVunpl | 0x37 => peVunph
  | 0x38 => peVshuf | 0x39 => peVext | 0x3A => peVins | 0x3B => peVred
  | 0x40 => peFadd | 0x41 => peFsub | 0x42 => peFmul | 0x43 => peFma | 0x44 => peFmin | 0x45 => peFmax
  | 0x46 => peFcvtif | 0x47 => peFcvtfi | 0x48 => peFrcp | 0x49 => peFrsq | 0x4A => peFlog2 | 0x4B => peFexp2
  | 0x60 => peVld | 0x61 => peVst | 0x62 => peVgath | 0x63 => peSld | 0x64 => peSst | 0x70 => peWld | 0x71 => peWst
  | _ => peNop

/-! ## Running a kernel (R230, R231, R244) -/

/-- Run until the line or the frame entry ends, or until the next instruction would issue at the line cap: the engine
then abandons the line (R244). Every instruction takes a cycle at least, so the cap bounds the run. -/
def PeEngine.runTo (cap : Nat) : Nat → PeEngine → PeEngine
  | 0, g => if g.ended then g else { g with ended := true, tooLong := true }
  | fuel + 1, g =>
    if g.ended then g
    else
      let (op, o) := peDecode (g.code.getD g.pc 0)
      match (if g.pc < g.code.length then peForm? op else none) with
      | none => { g with ended := true, tooLong := true }
      | some f =>
        if cap ≤ g.issueAt f o then { g with ended := true, tooLong := true }
        else PeEngine.runTo cap fuel (g.issue f o (peOperation op))

/-- The scalar registers of a tile entry but s1 (R230). -/
def PeEngine.entryRegs (g : PeEngine) (k : PeCtx) (y : Nat) : PeEngine :=
  (((((g.setS 2 y).setS 3 k.slot).setS 4 k.frame).setS 5 k.width).setS 6 k.height).setS 7 k.share

/-- A frame entry (R231): its cycles count against the first line of the frame. -/
def PeEngine.runFrame (g : PeEngine) (k : PeCtx) (cap : Nat) : PeEngine :=
  match g.frameEntry with
  | none => { g with carry := 0 }
  | some e =>
    let h := { (g.entryRegs k 0).setS 1 0 with
      ctx := k, pc := e, ended := false, inFrame := true, tooLong := false, now := 0, ready := [], sfuFree := 0, memFree := 0
      carry := cap }
    { h.runTo cap cap with tooLong := false, inFrame := false }

/-- Compute the line of a context (R230, R244): the engine after it, whose `line` holds the member's columns unless the
line was abandoned. -/
def PeEngine.runLine (g : PeEngine) (k : PeCtx) (cap : Nat) : PeEngine :=
  let h := { g.entryRegs k k.y with
    ctx := k, line := [], tooLong := false, poison := false, now := g.carry, carry := 0
    ready := if g.carry = 0 then [] else g.ready, sfuFree := if g.carry = 0 then 0 else g.sfuFree
    memFree := if g.carry = 0 then 0 else g.memFree }
  (h.enterTile k.x0).runTo cap cap

end Machine

end Sys2Proof
end

