-- ==== Sys2Proof/Machine/BedMath.lean ====
section
/-!
DEFINITION. The arithmetic of the bed stages: linearisation, defect correction, the gain mesh, flicker statistics, the
demosaic, colour matrices, the 3D LUT, the output encodings and the scaler (spec/07_raw_pipeline.md).
-/

namespace Sys2Proof.Machine

/-- L20 (R181). -/
def clampL20 (v : Int) : Int := clampInt 0 1048575 v

/-- The class of a photosite in sensor coordinates: 0 R, 1 Gr, 2 Gb, 3 B (R179). -/
def cfaClass (quad : Bool) (phase x y : Nat) : Nat :=
  let d := if quad then 2 else 1
  let bx := (x / d + phase) % 2
  let by' := (y / d + phase / 2) % 2
  by' * 2 + bx

/-! ## Stages 1 to 4 (R186 to R191) -/

/-- Stage 1 (R186): the table entries, or none while LIN_PTR.EN is 0. -/
def linearise (tab : Option (Nat → Int)) (bpp v : Nat) : Int :=
  let u := v * 2 ^ (16 - bpp)
  match tab with
  | none => clampL20 (u * 16 : Nat)
  | some l =>
    let e (i : Nat) : Int := if i < 4096 then l i else clampL20 (2 * l 4095 - l 4094)
    let i := u / 16
    let f := u % 16
    clampL20 (e i + rdiv ((e (i + 1) - e i) * (f : Nat)) 16)

/-- Insert a number in a rising list. -/
def insertInt (v : Int) : List Int → List Int
  | [] => [v]
  | x :: r => if v ≤ x then v :: x :: r else x :: insertInt v r

/-- A list of numbers in rising order. -/
def sortInts (l : List Int) : List Int := l.foldr insertInt []

/-- Median of four: the middle two, halved (R189). -/
def median4 (l : List Int) : Int :=
  let m := sortInts l
  rdiv (m.getD 1 0 + m.getD 2 0) 2

/-- The replacement of a listed site by KIND; `m` reads stage 2 output at the replicated coordinates (R189). -/
def defectFix (kind : Nat) (p : Int) (m : Int → Int → Int) (x y : Int) : Int :=
  match kind with
  | 1 => rdiv (m (x - p) y + m (x + p) y) 2
  | 2 => rdiv (m x (y - p) + m x (y + p)) 2
  | _ => median4 [m (x - p) y, m (x + p) y, m x (y - p), m x (y + p)]

/-- The eight same-colour neighbours at distance P (R189). -/
def eightNear (p : Int) (m : Int → Int → Int) (x y : Int) : List Int :=
  [m (x - p) y, m (x + p) y, m x (y - p), m x (y + p), m (x - p) (y - p), m (x + p) (y - p), m (x - p) (y + p),
   m (x + p) (y + p)]

/-- Dynamic detection replaces the site (R190). -/
def dynHit (hi lo : Nat) (near : List Int) (v : Int) : Bool :=
  let mx := near.foldl max (near.headD 0)
  let mn := near.foldl min (near.headD 0)
  (decide (hi ≠ 0) && decide (mx + 16 * (hi : Int) < v)) || (decide (lo ≠ 0) && decide (v < mn - 16 * (lo : Int)))

/-- The entries of a static map that count, as (x, y, kind), and whether any was out of order (R189). -/
def defectMap (l : List Nat) : List (Nat × Nat × Nat) × Bool :=
  let r := l.foldl (fun (acc : List (Nat × Nat × Nat) × Option Nat × Bool) e =>
    let x := bitsOf e 0 15
    let y := bitsOf e 15 14
    let key := y * 2 ^ 15 + x
    match acc.2.1 with
    | some k => if key ≤ k then (acc.1, acc.2.1, true) else (acc.1 ++ [(x, y, bitsOf e 29 2)], some key, acc.2.2)
    | none => (acc.1 ++ [(x, y, bitsOf e 29 2)], some key, acc.2.2)) ([], none, false)
  (r.1, r.2.2)

/-- The four cubic weights of a fraction of 16 bits, each rounded once to 16 bits (R191). -/
def cubicWeights (t : Int) : List Int :=
  let one : Int := (2 ^ 16 : Nat)
  let half : Int := (2 ^ 33 : Nat)
  [rdiv (-t ^ 3 + 2 * t ^ 2 * one - t * one ^ 2) half, rdiv (3 * t ^ 3 - 5 * t ^ 2 * one + 2 * one ^ 3) half,
   rdiv (-3 * t ^ 3 + 4 * t ^ 2 * one + t * one ^ 2) half, rdiv (t ^ 3 - t ^ 2 * one) half]

/-- The place of a coordinate on `n` mesh intervals: node and 16-bit fraction (R191). -/
def meshPlace (x n size : Nat) : Nat × Nat :=
  let u := x * n * 2 ^ 16 / (size - 1)
  (u / 2 ^ 16, u % 2 ^ 16)

/-- The gain at a site in sensor coordinates, as a G2.14 code; `node` gives the mesh node of the site's class (R191). -/
def meshGain (node : Nat → Nat → Int) (x y w h : Nat) : Int :=
  let (i, t) := meshPlace x 128 w
  let (j, s) := meshPlace y 64 h
  let wt := cubicWeights t
  let ws := cubicWeights s
  let at' (a top : Nat) (k : Nat) : Nat := min top (a + k - 1)
  let g := ((List.range 4).map fun b =>
    ((List.range 4).map fun a => wt.getD a 0 * ws.getD b 0 * node (at' i 128 a) (at' j 64 b)).sum).sum
  clampInt 0 65535 (rdiv g (2 ^ 32 : Nat))

/-! ## Stage 5: flicker (R194, R195) -/

/-- 500^(num / den) in units of 2^-32. -/
def pow500 (num den : Int) : Nat := fxExp2 48 32 (fxLog2 0 40 500 * (2 ^ 8 : Nat) * num / den)

/-- f_k in units of 2^-16 Hz. -/
def flkFreq (k : Nat) : Nat := 40 * pow500 k 255 / 2 ^ 16

/-- c_k and s_k over rows of (time in ticks, value less the mean). -/
def flkSums (f : Nat) (rows : List (Int × Int)) : Int × Int :=
  rows.foldl (fun acc (t, v) =>
    let (c, s) := cosSin ((f : Int) * t * (2 ^ 32 : Nat) / 32000000000)
    (acc.1 + v * c, acc.2 + v * s)) (0, 0)

/-- A peak: frequency in 1/16 Hz, amplitude in 2^-16 of the mean, phase in 2^-16 turn, and its bin. -/
structure FlkPeak where
  freq : Nat
  amp : Nat
  phase : Nat
  deriving DecidableEq, Repr

/-- The peaks of a window and the number of bins that took part: rows of (ticks from t0, 1/256 L20), `thresh` in 2^-16.
The amplitude of a window whose mean is 0 is `free`, and so is one that its 16 bits cannot hold. -/
def flkPeaks (rows : List (Int × Int)) (thresh free : Nat) : List FlkPeak × Nat :=
  let n : Int := rows.length
  let total := (rows.map (·.2)).sum
  let ts := rows.map (·.1)
  let span := ts.foldl max (ts.headD 0) - ts.foldl min (ts.headD 0)
  -- s - mean s, in units of 2^-8 / N; sums stay exact
  let dev := rows.map fun (t, v) => (t, v * n - total)
  let part (k : Nat) : Bool :=
    let f : Int := flkFreq k
    decide (2 * 32000000000 * (2 ^ 16 : Nat) ≤ span * f) && decide (1 < n)
      && decide (2 * span * f ≤ (n - 1) * 32000000000 * (2 ^ 16 : Nat))
  let bins := (List.range 256).map fun k => if part k then some (flkSums (flkFreq k) dev) else none
  let pw (k : Int) : Int :=
    if k < 0 then 0 else match bins.getD k.toNat none with | some (c, s) => c * c + s * s | none => 0
  let peaks := (List.range 256).filterMap fun (k : Nat) =>
    let p := pw k
    let lo := pw ((k : Int) - 1)
    let hi := pw (k + 1)
    if lo < p ∧ hi ≤ p then
      let (c, s) := (bins.getD k none).getD (0, 0)
      -- 2 sqrt(p) / (N × mean s) = 2 sqrt(p) / total, with the units of dev and of cosine taken out
      let amp : Int := 2 * (isqrt 200 p.toNat : Nat) * (2 ^ 16 : Nat)
      let den : Int := total * n * (2 ^ 48 : Nat)
      let a : Option Nat := if total = 0 then some free else if den < 0 then none else some (rdiv amp den).toNat
      let d := lo - 2 * p + hi
      let f := (flkFreq k : Int) * pow500 (lo - hi) (2 * d * 255) / (2 ^ 32 : Nat)
      match a with
      | some v =>
        if thresh ≤ v ∨ total = 0 then
          some { freq := (rdiv f 4096).toNat, amp := v
                 phase := patternOf 16 (rdiv (fxAtan2 (-s) c) (2 ^ 32 : Nat)) : FlkPeak }
        else none
      | none => none
    else none
  let best := sortBy (fun a b => decide (b.amp ≤ a.amp)) peaks
  ((best.take 3).map fun p => { p with amp := if p.amp < 65536 then p.amp else free % 65536 }, (bins.filter (·.isSome)).length)

/-! ## Stage 7: demosaic (R198 to R201) -/

/-- What the demosaic reads: the cropped frame and its settings. -/
structure Mosaic where
  w : Nat
  h : Nat
  p : Nat
  tDir : Nat
  tFlat : Nat
  eps : Nat

/-- A direction with its blend weights (R199). -/
inductive MosaicDir where
  | horizontal
  | vertical
  | blend (wh wv : Int)
  deriving DecidableEq, Repr

/-- Replicate both coordinates (R198). -/
def Mosaic.rep (k : Mosaic) (x y : Int) : Int × Int := ((replicate k.p k.w x : Nat), (replicate k.p k.h y : Nat))

/-- The direction of a site (R199). `m` reads the mosaic within the frame. -/
def Mosaic.dir (k : Mosaic) (m : Int → Int → Int) (x y : Int) : MosaicDir :=
  let at' (x y : Int) : Int := m (k.rep x y).1 (k.rep x y).2
  let p : Int := k.p
  let js : List Int := [-1, 0, 1]
  let is := (List.range (7 - k.p)).map fun (i : Nat) => (i : Int) - 3
  let sum (f : Int → Int → Int) : Int :=
    (js.map fun j => (is.map fun i => (if j = 0 then 2 else 1) * ((f i j).natAbs : Int)).sum).sum
  let gh := sum fun i j => at' (x + i) (y + j) - at' (x + i + p) (y + j)
  let gv := sum fun i j => at' (x + j) (y + i) - at' (x + j) (y + i + p)
  if gh + gv < 16 * k.tFlat then .blend 1 1
  else if 16 * gh < k.tDir * gv then .horizontal
  else if 16 * gv < k.tDir * gh then .vertical
  else .blend (gv + 16 * k.eps + 1) (gh + 16 * k.eps + 1)

/-- A value by direction (R200). -/
def MosaicDir.pick (d : MosaicDir) (h v : Int) : Int :=
  match d with
  | .horizontal => h
  | .vertical => v
  | .blend wh wv => rdiv (h * wh + v * wv) (wh + wv)

/-- The nearest distance, 1 or 2, at which a test holds. -/
def nearest (f : Int → Bool) : Int := if f 1 then 1 else 2

/-- lerp of R200. -/
def lerpGreen (u du v dv : Int) : Int := rdiv (u * dv + v * du) (du + dv)

/-- First green of a site within the frame (R200); `green` tells whether a site is green. -/
def Mosaic.g1 (k : Mosaic) (m : Int → Int → Int) (green : Int → Int → Bool) (x y : Int) : Int :=
  if green x y then m x y
  else
    let at' (x y : Int) : Int := m (k.rep x y).1 (k.rep x y).2
    let gr (x y : Int) : Bool := green (k.rep x y).1 (k.rep x y).2
    let p : Int := k.p
    let a := nearest fun d => gr (x - d) y
    let b := nearest fun d => gr (x + d) y
    let c := nearest fun d => gr x (y - d)
    let e := nearest fun d => gr x (y + d)
    let gh := clampS21 (lerpGreen (at' (x - a) y) a (at' (x + b) y) b
      + rdiv (2 * m x y - at' (x - p) y - at' (x + p) y) 4)
    let gv := clampS21 (lerpGreen (at' x (y - c)) c (at' x (y + e)) e
      + rdiv (2 * m x y - at' x (y - p) - at' x (y + p)) 4)
    clampS21 ((k.dir m x y).pick gh gv)

/-- Refined green of a site (R200). -/
def Mosaic.g2 (k : Mosaic) (m : Int → Int → Int) (green : Int → Int → Bool) (x y : Int) : Int :=
  if green x y then m x y
  else
    let p : Int := k.p
    let dif (x y : Int) : Int := let (a, b) := k.rep x y; m a b - k.g1 m green a b
    let d0 := dif x y
    let ddh := rdiv (dif (x - p) y + 2 * d0 + dif (x + p) y) 4
    let ddv := rdiv (dif x (y - p) + 2 * d0 + dif x (y + p)) 4
    clampS21 (m x y - (k.dir m x y).pick ddh ddv)

/-- Red (class 0) or blue (class 3) of a site (R201); `g2` reads refined green within the frame. -/
def Mosaic.fill (k : Mosaic) (m g2 : Int → Int → Int) (cls : Int → Int → Nat) (c : Nat) (x y : Int) : Int :=
  if cls x y = c then m x y
  else
    let near := (List.range 25).filterMap fun i =>
      let dx : Int := (i % 5 : Nat) - 2
      let dy : Int := (i / 5 : Nat) - 2
      let (a, b) := k.rep (x + dx) (y + dy)
      if (dx ≠ 0 ∨ dy ≠ 0) ∧ cls a b = c then
        let w : Int := if dx.natAbs ≤ 1 ∧ dy.natAbs ≤ 1 then 4 else 1
        some (w * (m a b - g2 a b), w)
      else none
    clampS21 (g2 x y + rdiv (near.map (·.1)).sum (near.map (·.2)).sum)

/-- Rows above and below a line that the demosaic reads. -/
def demosaicReach (p : Nat) : Nat := 2 + p + max 3 p

/-- Rows of green that row `y` reads, in a frame of `h` rows with period `p` (R198, R201). -/
def greenRows (p h y : Nat) : List Nat :=
  ((List.range 5).map fun (i : Nat) => replicate p h ((y : Int) + i - 2)).eraseDups

/-- Rows of the mosaic that row `y` reads: about each of its rows of green, period replication applied at each of the two
reaches (R198 to R201). -/
def mosaicRows (p h y : Nat) : List Nat :=
  let d := demosaicReach p - 2
  ((greenRows p h y).flatMap fun (g : Nat) =>
    (List.range (2 * d + 1)).map fun (i : Nat) => replicate p h ((g : Nat) + (i : Int) - d)).eraseDups

/-- Row `y` of the demosaic: red, green and blue. `row` reads a row of the mosaic; `cls` the class at a site of the
cropped frame. -/
def Mosaic.row (k : Mosaic) (row : Nat → List Int) (cls : Int → Int → Nat) (y : Nat) : List (List Int) :=
  let rows : SMap (List Int) := (mosaicRows k.p k.h y).foldl (fun a r => SMap.insert a r (row r)) []
  let m (x y : Int) : Int := (rows.at [] y.toNat).getD x.toNat 0
  let green (x y : Int) : Bool := cls x y == 1 || cls x y == 2
  let g2rows : SMap (List Int) := (greenRows k.p k.h y).foldl (fun a r =>
    SMap.insert a r ((List.range k.w).map fun (x : Nat) => k.g2 m green x r)) []
  let g2 (x y : Int) : Int := (g2rows.at [] y.toNat).getD x.toNat 0
  let xs := List.range k.w
  [xs.map fun (x : Nat) => k.fill m g2 cls 0 x y, xs.map fun (x : Nat) => g2 x y, xs.map fun (x : Nat) => k.fill m g2 cls 3 x y]

/-! ## Stages 8 and 9 (R202, R203, R207) -/

/-- Stage 8 (R202): `cc` gives CCM[k]. -/
def colourMatrix (cc : Nat → Int) (v : List Int) : List Int :=
  (List.range 3).map fun r =>
    clampSL (rdiv (((List.range 3).map fun c => cc (4 * r + c) * v.getD c 0).sum) (2 ^ 21 : Nat) + cc (4 * r + 3))

/-- ACEScct of a value in units of 2^-u, in units of 2^-48 (R207). -/
def acescct (u : Nat) (v : Int) : Int :=
  if v * 128 ≤ (2 ^ u : Nat) then
    (105402377416545 * 1000 * v * (2 ^ 48 : Nat) / (2 ^ u : Nat) + 729055341958355 * (2 ^ 48 : Nat)) / 10000000000000000
  else (fxLog2 u 48 v.toNat * 100 + 972 * (2 ^ 48 : Nat)) / 1752

/-- Insert a channel by falling fraction; equal ones keep the order red, green, blue (R203). -/
def insertChannel (a : Int × Nat) : List (Int × Nat) → List (Int × Nat)
  | [] => [a]
  | b :: r => if b.1 < a.1 then a :: b :: r else b :: insertChannel a r

/-- The corners of the 3D LUT a pixel reads, as (ir, ig, ib) with weights in units of 2^-48 (R203). -/
def lutCorners (shaper : Bool) (v : List Int) : List (List Nat × Int) :=
  let one : Int := (2 ^ 48 : Nat)
  let q := (List.range 3).map fun c =>
    64 * clampInt 0 one (if shaper then v.getD c 0 * (2 ^ 28 : Nat) else acescct 20 (v.getD c 0))
  let i := q.map fun x => min (x / one).toNat 63
  let f := (List.range 3).map fun c => (q.getD c 0 - (i.getD c 0 : Nat) * one, c)
  let o := (f.getD 2 (0, 2) :: []).foldr (fun a l => insertChannel a l)
    ((f.getD 1 (0, 1) :: []).foldr (fun a l => insertChannel a l) [f.getD 0 (0, 0)])
  let g (n : Nat) : Int × Nat := o.getD n (0, 0)
  let up (l : List Nat) (c : Nat) : List Nat := l.set c (l.getD c 0 + 1)
  let c1 := up i (g 0).2
  let c2 := up c1 (g 1).2
  [(i, one - (g 0).1), (c1, (g 0).1 - (g 1).1), (c2, (g 1).1 - (g 2).1), (up c2 (g 2).2, (g 2).1)]

/-- Byte of a 3D LUT entry (R203). -/
def lutByte (i : List Nat) : Nat := 8 * ((i.getD 0 0 * 65 + i.getD 1 0) * 65 + i.getD 2 0)

/-- Stage 9 (R203): `half` reads the F16 at a byte of the table. -/
def lut3d (half : Nat → Nat) (corners : List (List Nat × Int)) : List Int :=
  (List.range 3).map fun c =>
    clampSL (rdiv ((corners.map fun (i, w) => w * f16Value (half (lutByte i + 2 * c))).sum) (2 ^ 52 : Nat))

/-! ## Stage 10: output encodings (R205, R206) -/

/-- x^(num / den) of a positive fraction in units of 2^-48. -/
def fxPow (x : Int) (num den : Nat) : Int := fxExp2 56 48 (fxLog2 48 56 x.toNat * (num : Nat) / (den : Nat))

/-- The parameters of an encoder (R205, R206). -/
structure BedEnc where
  curve : Nat
  depth : Nat
  layout : Nat
  narrow : Bool
  ycc2020 : Bool
  pack : Bool
  pqWhite : Nat
  hlgGain : Nat
  deriving DecidableEq, Repr

/-- The transfer curve of a value in units of 2^-41, in units of 2^-48 (R206, R207). -/
def BedEnc.transfer (e : BedEnc) (l : Int) : Int :=
  let one : Int := (2 ^ 48 : Nat)
  let unit (v : Int) : Int := clampInt 0 one v
  let l48 := l * (2 ^ 7 : Nat)
  match e.curve with
  | 1 => acescct 41 l
  | 2 =>
    let y := unit (l48 * e.pqWhite / 10000)
    let ym := if y = 0 then 0 else fxPow y 2610 16384
    let num := 3424 * one / 4096 + 2413 * 32 * ym / 4096
    let den := one + 2392 * 32 * ym / 4096
    fxPow (num * one / den) (2523 * 128) 4096
  | 3 =>
    let x := unit (l48 * e.hlgGain / 4096)
    if 12 * x ≤ one then (isqrt 60 (3 * x * one).toNat : Nat)
    else
      let a : Int := 17883277
      let b : Int := 28466892
      let y := 12 * x - b * one / 100000000
      let ln := fxLog2 48 48 y.toNat * ln2of64 / (2 ^ 64 : Nat)
      (a * ln + 55991073 * one) / 100000000
  | 4 =>
    let x := unit l48
    if 1000 * x < 18 * one then 9 * x / 2 else (1099 * fxPow x 45 100 - 99 * one) / 1000
  | _ =>
    let x := unit l48
    if x * 1000000000000000 < 18053968510807 * one then 9 * x / 2
    else (109929682680944 * fxPow x 45 100 - 9929682680944 * one) / 100000000000000

/-- Bits per code. -/
def BedEnc.bits (e : BedEnc) : Nat := if e.depth = 0 then 10 else if e.depth = 1 then 12 else 16

/-- Narrow range is in force: ACEScct is always full range (R206). -/
def BedEnc.isNarrow (e : BedEnc) : Bool := e.narrow && e.curve != 1

/-- Quantise a luma or colour component E' in units of 2^-48 (R205). -/
def BedEnc.luma (e : BedEnc) (v : Int) : Nat :=
  let one : Int := (2 ^ 48 : Nat)
  let top : Int := (2 ^ e.bits - 1 : Nat)
  let c := if e.isNarrow then rdiv ((219 * v + 16 * one) * (2 ^ (e.bits - 8) : Nat)) one else rdiv (top * v) one
  (clampInt 0 top c).toNat

/-- Quantise a colour difference, given four times its value in units of 2^-48 (R205). -/
def BedEnc.chroma (e : BedEnc) (v4 : Int) : Nat :=
  let one : Int := 4 * (2 ^ 48 : Nat)
  let top : Int := (2 ^ e.bits - 1 : Nat)
  let c := if e.isNarrow then rdiv ((224 * v4 + 128 * one) * (2 ^ (e.bits - 8) : Nat)) one
    else rdiv (top * v4 + (2 ^ (e.bits - 1) : Nat) * one) one
  (clampInt 0 top c).toNat

/-- R'G'B' of a pixel: the encoder's matrix, then the curve (R205 steps 1 and 2), in units of 2^-48; for curve 0 the
F16 code of each. -/
def BedEnc.rgb (e : BedEnc) (mtx : Nat → Int) (v : List Int) : List Int :=
  (List.range 3).map fun r =>
    let l := ((List.range 3).map fun c => mtx (3 * r + c) * v.getD c 0).sum
    if e.curve = 0 then ((toF16 l 41 : Nat) : Int) else e.transfer l

/-- Y', Cb and Cr of R'G'B' (R205 step 3), in units of 2^-48. -/
def BedEnc.ycc (e : BedEnc) (v : List Int) : List Int :=
  let kr : Int := if e.ycc2020 then 2627 else 2126
  let kb : Int := if e.ycc2020 then 593 else 722
  let r := v.getD 0 0
  let g := v.getD 1 0
  let b := v.getD 2 0
  let y := (kr * r + (10000 - kr - kb) * g + kb * b) / 10000
  [y, (b - y) * 10000 / (2 * (10000 - kb)), (r - y) * 10000 / (2 * (10000 - kr))]

/-- A line of SL pixels as codes, one list a component: R, G, B, or Y, Cb, Cr with Cb and Cr of LAYOUT 2 at even columns
only (R205). -/
def BedEnc.line (e : BedEnc) (mtx : Nat → Int) (px : List (List Int)) : List (List Nat) :=
  let w := (px.headD []).length
  let pixel (x : Nat) : List Int := (List.range 3).map fun c => (px.getD c []).getD x 0
  let rgb := (List.range w).map fun x => e.rgb mtx (pixel x)
  if e.curve = 0 then (List.range 3).map fun c => rgb.map fun v => (v.getD c 0).toNat
  else if e.layout = 0 then (List.range 3).map fun c => rgb.map fun v => e.luma (v.getD c 0)
  else
    let ycc := rgb.map e.ycc
    let y := ycc.map fun v => e.luma (v.getD 0 0)
    let at' (c : Nat) (x : Int) : Int := ((ycc.getD (clampInt 0 ((w : Int) - 1) x).toNat []).getD c 0)
    let diff (c : Nat) : List Nat :=
      if e.layout = 1 then (List.range w).map fun (x : Nat) => e.chroma (4 * at' c x)
      else (List.range ((w + 1) / 2)).map fun (i : Nat) =>
        let x : Int := 2 * (i : Int)
        e.chroma (at' c (x - 1) + 2 * at' c x + at' c (x + 1))
    [y, diff 1, diff 2]

/-- The codes of a line in the order they are written (R210). -/
def BedEnc.order (e : BedEnc) (l : List (List Nat)) : List Nat :=
  let c (k i : Nat) : Nat := (l.getD k []).getD i 0
  let w := (l.headD []).length
  if e.layout = 2 ∧ e.curve ≠ 0 then
    (List.range ((w + 1) / 2)).flatMap fun i =>
      [c 1 i, c 0 (2 * i), c 2 i] ++ (if 2 * i + 1 < w then [c 0 (2 * i + 1)] else [])
  else (List.range w).flatMap fun i => [c 0 i, c 1 i, c 2 i]

/-- PACK in force: CURVE 0 always uses 16-bit containers (R210). -/
def BedEnc.packs (e : BedEnc) : Bool := e.pack && e.curve != 0

/-- The bytes of a line of codes (R210). -/
def BedEnc.bytes (e : BedEnc) (codes : List Nat) : List Byte :=
  if e.packs then leBytes ((codes.length * e.bits + 7) / 8) (codes.foldr (fun v acc => v % 2 ^ e.bits + 2 ^ e.bits * acc) 0)
  else codes.flatMap (leBytes 2)

/-- A raw line in its FMT: 0 U16, 1 U20, 2 S24 (R210). -/
def rawBytes (fmt : Nat) (l : List Int) : List Byte :=
  let c (v : Int) : Nat := (clampL20 v).toNat
  match fmt with
  | 0 => l.flatMap fun v => leBytes 2 (c v / 16)
  | 1 => leBytes ((l.length * 20 + 7) / 8) (l.foldr (fun v acc => c v + 2 ^ 20 * acc) 0)
  | _ => l.flatMap fun v => leBytes 3 (patternOf 24 v)

/-! ## Stage 11: the scaler (R208) -/

/-- Place of an output coordinate: first input tap and phase. -/
def scalePos (win wout x : Nat) : Int × Nat :=
  let step : Int := (win * 2 ^ 16 / wout : Nat)
  let pos := ((2 * (x : Int) + 1) * step - (2 ^ 16 : Nat)) / 2
  (pos / (2 ^ 16 : Nat), (pos % (2 ^ 16 : Nat) / (2 ^ 10 : Nat)).toNat)

/-- The input row nearest to the centre of output row `y` (R209). -/
def scaleNear (hin hout y : Nat) : Nat :=
  let step : Int := (hin * 2 ^ 16 / hout : Nat)
  let pos := ((2 * (y : Int) + 1) * step - (2 ^ 16 : Nat)) / 2
  (clampInt 0 ((hin : Int) - 1) ((pos + (2 ^ 15 : Nat)) / (2 ^ 16 : Nat))).toNat

/-- A signed 12-bit coefficient. -/
def scaleCoef (v : Nat) : Int := signedOf 12 v

/-- Scale a list of codes; `coef` reads the coefficient of a phase and a tap. -/
def scaleList (coef : Nat → Nat → Int) (wout : Nat) (l : List Nat) (top : Int) : List Nat :=
  let w := l.length
  (List.range wout).map fun x =>
    let (i, ph) := scalePos w wout x
    let v := ((List.range 8).map fun (t : Nat) =>
      coef ph t * ((l.getD (clampInt 0 ((w : Int) - 1) (i - 3 + (t : Int))).toNat 0 : Nat) : Int)).sum
    (clampInt 0 top (rdiv v 1024)).toNat

end Sys2Proof.Machine
end

