-- ==== Sys2Proof/Machine/TimeOps.lean ====
section
/-!
DEFINITION. The time base as shared operations: folds, the servo and its states, and the frame references' targets
(spec/03_timebase.md, R80 to R94).
-/

namespace Sys2Proof.Machine

/-- Units of 2^-16 ns in a second. -/
def unitsPerSec : Int := 65536000000000

/-- Raise a time-base vector when TIME_CTL.MSIX_EN is 1 (R98). -/
def State.timeVector (s : State) (v : Nat) : State := s.when (s.bit F.TIME_CTL_MSIX_EN) (·.raise v)

/-- Set TIME_OFFSET to a corrected time in 2^-16 ns, normalised (R79, R80). -/
def State.setOffset (s : State) (u : Int) : State :=
  ((s.setF F.TIME_OFFSET_SEC_SEC (patternOf 48 (u / unitsPerSec))).setF F.TIME_OFFSET_SEC_FRAC
    (u % 65536).toNat).setF F.TIME_OFFSET_NS_NS (u % unitsPerSec / 65536).toNat

/-- A fold at the present tick: TIME_OFFSET becomes the corrected time, plus a step, and TIME_EPOCH the tick (R80). -/
def State.fold (s : State) (step : Int) : State :=
  (s.setOffset (s.corr + step)).setF F.TIME_EPOCH_EPOCH s.ticks

/-- Set TIME_RATE, signed, in units of 2^-48. -/
def State.setRate (s : State) (r : Int) : State := s.setF F.TIME_RATE_RATE (patternOf 64 r)

/-- The present rate. -/
def State.rate (s : State) : Int := s.getS F.TIME_RATE_RATE

/-- The bound of the rate, 2^RATE_MAX (R86). -/
def State.rateBound (s : State) : Int := (2 ^ s.getF F.TIME_CTL_RATE_MAX : Nat)

/-- A new rate takes effect by a fold (R80). -/
def State.foldRate (s : State) (r : Int) : State := (s.fold 0).setRate r

/-- Move the servo to a state; a change raises vector 484 (R98), and entering LOCKED fires Twine source 157 (R451). -/
def State.servoTo (s : State) (st : Nat) : State :=
  if s.getF F.TIME_STATUS_STATE = st then s
  else
    let s1 := (s.setF F.TIME_STATUS_STATE st).timeVector 484
    if st = 2 then s1.fireSource 157 else s1

/-- A fresh entry to ACQUIRE: the counts start again and the integral holds the current rate (R526). -/
def State.acquire (s : State) : State :=
  { s.servoTo 1 with time := { (s.servoTo 1).time with integral := s.rate, locks := 0, discards := 0, acq := 0 } }

/-- Record a step of the offset: STEPPED, STEPS and vector 485 (R85, R87). -/
def State.noteStep (s : State) : State :=
  ((s.flag F.TIME_ERR_STEPPED).bump F.TIME_COUNTS_STEPS).timeVector 485

/-- The frequency estimate of the second measurement of ACQUIRE, subtracted from the integral (R86); with no time
between the two the quotient has no stated value and is free. -/
def State.freqEstimate (s : State) (theta now : Int) : Int :=
  if now = s.time.firstAt then Config.freeInt s.freeCtr
  else (theta - s.time.firstTheta) * (2 ^ 48 : Nat) / (now - s.time.firstAt)

/-- The PI loop of R86 on an accepted measurement. -/
def State.servoLoop (s : State) (theta : Int) : State :=
  let now := s.corr
  let b := s.rateBound
  let i0 := if s.getF F.TIME_STATUS_STATE = 1 ∧ s.time.acq = 1 then s.time.integral - s.freqEstimate theta now
            else s.time.integral
  let p := -((s.getF F.TIME_KP_GAIN : Int) * theta / 65536)
  let i1 := i0 - (s.getF F.TIME_KI_GAIN : Int) * theta / 65536
  let integral := clampInt (-b) b i1
  let r1 := integral + p
  let rate := clampInt (-b) b r1
  let s1 := s.foldRate rate
  let s2 := (s1.setF F.TIME_THETA_THETA (patternOf 64 theta)).freed
  let s3 := s2.when (decide (integral ≠ i1 ∨ rate ≠ r1)) fun x => (x.flag F.TIME_ERR_RATE_CLAMP).timeVector 486
  { s3 with time := { s3.time with
      integral := integral, acq := s.time.acq + 1
      firstTheta := if s.time.acq = 0 then theta else s.time.firstTheta
      firstAt := if s.time.acq = 0 then now else s.time.firstAt } }

/-- A measurement of ACQUIRE that goes through the loop, and the count of measurements within LOCK_LIMIT, of which 16 in
a row lock the servo (R86, R87). -/
def State.acquireLoop (s : State) (theta : Int) : State :=
  let lockLimit : Int := s.getF F.TIME_LIMIT_LOCK_LIMIT * 65536
  let s1 := s.servoLoop theta
  let n := if lockLimit ≠ 0 ∧ (theta.natAbs : Int) ≤ lockLimit then s.time.locks + 1 else 0
  let s2 := { s1 with time := { s1.time with locks := n } }
  if n < 16 then s2
  else (s2.flag F.TIME_STATUS_VALID).servoTo 2

/-- A measurement while in ACQUIRE: an automatic step while time has never been valid, whose measurement the step
consumes, or one through the loop (R87, R526). -/
def State.acquireMeasure (s : State) (theta : Int) : State :=
  let stepLimit : Int := s.getF F.TIME_HOLD_STEP_LIMIT * 1000 * 65536
  if s.bit F.TIME_STATUS_VALID = false ∧ stepLimit ≠ 0 ∧ stepLimit < theta.natAbs then
    ((s.fold (-theta)).noteStep).acquire
  else s.acquireLoop theta

/-- A measurement while LOCKED: discarded beyond OUTLIER_LIMIT, and after 8 discarded in a row ACQUIRE (R87). -/
def State.lockedMeasure (s : State) (theta : Int) : State :=
  let lim : Int := s.getF F.TIME_LIMIT_OUTLIER_LIMIT * 65536
  if lim ≠ 0 ∧ lim < theta.natAbs then
    let s1 := ((s.flag F.TIME_ERR_OUTLIER).bump F.TIME_COUNTS_OUTLIERS).timeVector 486
    let s2 := { s1 with time := { s1.time with discards := s.time.discards + 1 } }
    if s2.time.discards < 8 then s2 else s2.acquire
  else
    let s1 := s.servoLoop theta
    { s1 with time := { s1.time with discards := 0 } }

/-- A measurement θ of the selected source reaches the servo; the one that moves the servo from FREE or HOLDOVER is
applied through the loop as the first of ACQUIRE (R86, R87, R526). -/
def State.servoMeasure (s : State) (theta : Int) : State :=
  match s.getF F.TIME_STATUS_STATE with
  | 2 => s.lockedMeasure theta
  | 1 => s.acquireMeasure theta
  | _ => s.acquire.acquireLoop theta

/-! ## Frame references (R90 to R92) -/

/-- Ticks in a second. -/
def ticksPerSec : Int := 32000000000

/-- The state of frame reference `n` beside its registers. -/
def State.fref (s : State) (n : Nat) : FrameRef := s.time.frefs.at {} n

/-- Replace the state of frame reference `n`. -/
def State.setFref (s : State) (n : Nat) (f : FrameRef) : State :=
  { s with time := { s.time with frefs := s.time.frefs.put {} n f } }

/-- The state of GENLOCK input `n`. -/
def State.gen (s : State) (n : Nat) : Genlock := s.time.gens.at {} n

/-- Replace the state of GENLOCK input `n`. -/
def State.setGen (s : State) (n : Nat) (g : Genlock) : State :=
  { s with time := { s.time with gens := s.time.gens.put {} n g } }

/-- A reference with SOURCE 0, or NUM or DEN 0, is off (R90). -/
def FrameRef.off (f : FrameRef) : Bool := f.source == 0 || decide (4 < f.source) || f.num == 0 || f.den == 0

/-- The period P in whole ticks (R90). -/
def FrameRef.period (f : FrameRef) : Int := (f.den : Int) * ticksPerSec / f.num

/-- Target boundary `m` of a grid that starts at `base` with the exact period `pn / pd` ticks, rounded down (R90). -/
def gridTarget (base pn pd m : Int) : Int := base + m * pn / pd

/-- The target nearest to `x`, with e = T - x in (-P/2, P/2] (R91). -/
def nearestTarget (base pn pd x : Int) : Int :=
  let m0 := (x - base) * pd / pn
  let t0 := gridTarget base pn pd m0
  let t1 := gridTarget base pn pd (m0 + 1)
  if t1 - x ≤ x - t0 then t1 else t0

/-- Whether a GENLOCK reference disagrees with the measured rate by more than 0.1 % (R94). -/
def frefMismatch (f : FrameRef) (g : Genlock) : Bool :=
  let want : Int := (f.den : Int) * 2 ^ f.mult * ticksPerSec
  let have_ : Int := (f.num : Int) * g.period
  decide (want < ((have_ - want).natAbs : Int) * 1000)

/-- The grid a reference follows now: base and exact period, or none while it freewheels (R90, R94). -/
def State.frefGrid (s : State) (f : FrameRef) : Option (Int × Int × Int) :=
  let p : Int × Int := ((f.den : Int) * ticksPerSec, (f.num : Int))
  match f.source with
  | 1 => some ((f.phase : Int), p.1, p.2)
  | 2 => if s.bit F.TIME_STATUS_VALID then some (0, p.1, p.2) else none
  | 3 | 4 =>
    let g := s.gen (f.source - 3)
    match g.lastEdge with
    | some e => if g.lost || g.period == 0 || frefMismatch f g then none else some (e, (g.period : Int), (2 ^ f.mult : Nat))
    | none => none
  | _ => none

/-- Take the settings of TIME_FREF_CTL, RATE and PHASE over at a boundary (R90). -/
def State.frefSettings (s : State) (n : Nat) : FrameRef :=
  { s.fref n with
      source := s.getF (F.TIME_FREF_CTL_SOURCE n), mult := s.getF (F.TIME_FREF_CTL_MULT n),
      num := s.getF (F.TIME_FREF_RATE_NUM n), den := s.getF (F.TIME_FREF_RATE_DEN n),
      phase := s.getF (F.TIME_FREF_PHASE_PHASE n) }

/-- Note a slip of reference `n` (R91): the mark's counter, TIME_ERR.SLIP and vector 488. -/
def State.frefSlip (s : State) (n : Nat) (mark : Nat) : State :=
  ((s.bump (if mark = 1 then F.TIME_FREF_STAT_REPEATS n else F.TIME_FREF_STAT_DROPS n)).flag
    F.TIME_ERR_SLIP).timeVector 488

/-- Reference `n` reaches a boundary: it takes its settings over, and places and marks the next boundary (R91), or
freewheels on its own period (R94). Twine source 32 + n fires (R451). -/
def State.frefBoundary (s : State) (n : Nat) : State :=
  let old := s.fref n
  let f := s.frefSettings n
  if f.off then
    (s.setFref n { f with last := none, next := 0, mark := 0, moved := 0 }).setF
      (F.TIME_FREF_STAT_LOCKED n) 0 |>.setF (F.TIME_FREF_STAT_FREEWHEEL n) 0
  else
    let b := match old.last with
      | some _ => old.next
      | none => match s.frefGrid f with
        | some (base, pn, pd) => nearestTarget base pn pd s.corrTicks
        | none => s.corrTicks
    let s0 := ((s.emit (.frefBoundary n old.mark)).fireSource (32 + n)).setB (F.TIME_FREF_STAT_MISMATCH n)
      (decide (f.source = 3 ∨ f.source = 4) && (s.gen (f.source - 3)).period != 0 && frefMismatch f (s.gen (f.source - 3)))
    match s.frefGrid f with
    | none =>
      ((s0.setFref n { f with last := some b, next := b + f.period, mark := 0, moved := 0 }).setF
        (F.TIME_FREF_STAT_LOCKED n) 0).setF (F.TIME_FREF_STAT_FREEWHEEL n) 1
    | some (base, pn, pd) =>
      let t := nearestTarget base pn pd (b + f.period)
      let e := t - (b + f.period)
      let mark := if (e.natAbs : Int) ≤ f.period / 16 then 0 else if 0 < e then 1 else 2
      let s1 := s0.setFref n { f with last := some b, next := t, mark := mark, moved := e }
      let s2 := ((s1.setF (F.TIME_FREF_STAT_LOCKED n) 1).setF (F.TIME_FREF_STAT_FREEWHEEL n) 0).setF
        (F.TIME_FREF_ERR_E n) (patternOf 32 (e / 32))
      if mark = 0 then s2 else s2.frefSlip n mark

end Sys2Proof.Machine
end

