-- ==== Sys2Proof/Machine/IngestOps.lean ====
section
/-!
DEFINITION. Sensor ports as shared operations: sync codes, segments and lines, frames, tags, pruning, padding, bands and
cut markers (spec/06_sensor_ingest.md).
-/

namespace Sys2Proof.Machine

/-! ## The state and the flags of a port -/

/-- The state of port `p` beside its registers. -/
def State.ingPort (s : State) (p : Nat) : IngPort := s.ingest.ports.at {} p

/-- The matcher of Runner `r`. -/
def State.matcher (s : State) (r : Nat) : Matcher := s.ingest.matchers.at {} r

/-- Replace the matcher of Runner `r`. -/
def State.setMatcher (s : State) (r : Nat) (m : Matcher) : State :=
  { s with ingest := { s.ingest with matchers := s.ingest.matchers.put {} r m } }

/-- The band of input trug `t`. -/
def State.band (s : State) (t : Nat) : IngBand := s.ingest.bands.at {} t

/-- Replace the band of input trug `t`. -/
def State.setBand (s : State) (t : Nat) (b : IngBand) : State :=
  { s with ingest := { s.ingest with bands := s.ingest.bands.put {} t b } }

/-- GANG of port `p`; 0 for a port that is off (R149). -/
def State.gang (s : State) (p : Nat) : Nat := s.getF (F.ING_PORT_CFG_GANG p)

/-- The port whose gang holds Runner `r` (R147). -/
def State.portOf (s : State) (r : Nat) : Option Nat :=
  ((List.range 8).map (r - ·)).find? fun p => decide (p ≤ r) && decide (r < p + s.gang p)

/-- A field of the port's sensor port record (R149). -/
def State.portRec (s : State) (p fo fn : Nat) : Nat := s.recField 0x02 0 1 p fo fn 0

/-- Lanes per Runner (R143, R149). -/
def State.portLanes (s : State) (p : Nat) : Nat := 2 ^ bitsOf (s.portRec p 3 1) 3 2

/-- Photosites per segment (R147). -/
def State.segWidth (s : State) (p : Nat) : Nat := s.getF (F.ING_PORT_GEOM_SENSOR_W p) / s.gang p

/-- Runner `r` raises vector 420 + r when its port's MSIX_EN is 1 (R175). -/
def State.ingVector (s : State) (p : Nat) : State := s.when (s.bit (F.ING_PORT_CTL_MSIX_EN p)) (·.raise (420 + p))

/-- Bring the port's bit of ING_FLAG_MAP up to date with ING_PORT[p].ERR. -/
def State.ingFlagMap (s : State) (p : Nat) : State :=
  s.setB ⟨R.ING_FLAG_MAP (p / 32), p % 32, 1⟩ (s.rd (R.ING_PORT_ERR p) != 0#32)

/-- Bit `k` of ING_PORT[p].ERR. -/
def ingErr (p k : Nat) : Field := ⟨R.ING_PORT_ERR p, k, 1⟩

/-- A malformed case sets its sticky flag, counts where it has a counter, and raises the port's vector (R161, R175). -/
def State.ingFlag (s : State) (p k : Nat) : State :=
  let s1 := s.flag (ingErr p k)
  let s2 := if k < 9 then s1.bump (F.ING_PORT_CNT_COUNT p k) else s1
  (s2.ingFlagMap p).ingVector p

/-- Whether a marker of port `p` waits for room in some input trug, by the trugs given. -/
def State.cutPending (s : State) (ts : List Nat) : Bool := ts.any fun t => (s.band t).run.isSome

/-- The input trugs of port `p` with their mergers (R165, R168): producer block 3, instance p, consumer block 3, the
merger that DEST_BED or EGRESS_GROUP names. -/
def State.ingTrugs (s : State) (p : Nat) : List (Nat × Nat) :=
  let bed := s.getF (F.ING_PORT_CFG_DEST_BED p)
  let eg := s.getF (F.ING_PORT_CFG_EGRESS p)
  let img := s.seed.image
  (recordOffsets img 0x05).filterMap fun r =>
    let m := byteAt img (r + 11)
    if byteAt img (r + 8) = 3 ∧ byteAt img (r + 9) = p ∧ byteAt img (r + 10) = 3
        ∧ ((bed ≠ 31 ∧ m = bed) ∨ (eg ≠ 31 ∧ m = 16 + eg)) then some (fieldAt img r 2, m) else none

/-- SYNC of a port: LOCKED while every Runner of its gang is, OFF while every matcher is OFF, else SEARCH (R153). -/
def State.portSync (s : State) (p : Nat) : Nat :=
  let ms := (List.range (s.gang p)).map fun g => (s.matcher (p + g)).state
  if s.gang p = 0 ∨ ms.all (· == 0) then 0 else if ms.all (· == 2) then 2 else 1

/-- Replace the state of port `p` and bring ING_PORT[p].STATUS up to date. -/
def State.setPort (s : State) (p : Nat) (x : IngPort) : State :=
  let s1 := { s with ingest := { s.ingest with ports := s.ingest.ports.put {} p x } }
  let lines := match x.frame with | some f => f.lines | none => 0
  let rate := x.ratePrev || (match x.frame with | some f => f.rate | none => false)
    || (match x.closing with | some f => f.rate | none => false)
  ((((s1.setF (F.ING_PORT_STATUS_SYNC p) (s1.portSync p)).setB (F.ING_PORT_STATUS_IN_FRAME p) x.frame.isSome).setF
    (F.ING_PORT_STATUS_LINES p) lines).setB (F.ING_PORT_STATUS_RATE_OVER p) rate).setB
    (F.ING_PORT_STATUS_CUT_PENDING p) (s1.cutPending ((s1.ingTrugs p).map (·.1)))

/-- Bring ING_PORT[p].STATUS up to date. -/
def State.portStatus (s : State) (p : Nat) : State := s.setPort p (s.ingPort p)

/-! ## Tags and items (R158, R159) -/

/-- The fields of a line tag (R158). -/
structure LineTag where
  stamp : Nat
  origin : Nat
  sensor : Nat
  frame : Nat
  line : Nat
  first : Bool
  last : Bool
  pad : Nat
  cut : Bool
  late : Bool
  lateFrame : Bool
  prevLong : Bool
  resync : Bool
  coarse : Bool
  poisoned : Bool
  deriving DecidableEq, Repr

/-- The 128 bits of a tag as its 16 bytes (R158). -/
def LineTag.bytes (t : LineTag) : List Byte :=
  leBytes 16 (t.stamp % 2 ^ 48 + t.origin % 2 ^ 12 * 2 ^ 48 + 2 ^ 60 + t.sensor % 64 * 2 ^ 64 + t.frame % 2 ^ 24 * 2 ^ 72
    + t.line % 2 ^ 15 * 2 ^ 96 + b2n t.first * 2 ^ 111 + b2n t.last * 2 ^ 112 + t.pad % 4 * 2 ^ 113 + b2n t.cut * 2 ^ 115
    + b2n t.late * 2 ^ 116 + b2n t.lateFrame * 2 ^ 117 + b2n t.prevLong * 2 ^ 118 + b2n t.resync * 2 ^ 119
    + b2n t.coarse * 2 ^ 120 + b2n t.poisoned * 2 ^ 121)

/-- A tag read from the first 16 bytes of an item (R158). -/
def tagOf (l : List Byte) : LineTag :=
  let v := fieldAt l 0 16
  { stamp := bitsOf v 0 48, origin := bitsOf v 48 12, sensor := bitsOf v 64 6, frame := bitsOf v 72 24,
    line := bitsOf v 96 15, first := v.testBit 111, last := v.testBit 112, pad := bitsOf v 113 2, cut := v.testBit 115,
    late := v.testBit 116, lateFrame := v.testBit 117, prevLong := v.testBit 118, resync := v.testBit 119,
    coarse := v.testBit 120, poisoned := v.testBit 121 }

/-- The device's hedgerow address, 0 outside a hedgerow (R158). -/
def State.origin (s : State) : Nat := if s.bit F.HRW_ADDR_VALID then s.getF F.HRW_ADDR_ADDR else 0

/-- Photosites of `b` bits each, packed from bit 0 upwards without gaps, as a number (R159). -/
def packNat (b : Nat) : List Nat → Nat
  | [] => 0
  | v :: r => v % 2 ^ b + 2 ^ b * packNat b r

/-- The bytes of packed photosites; the last byte is filled with zeros (R159). -/
def packSites (b : Nat) (l : List Nat) : List Byte := leBytes ((l.length * b + 7) / 8) (packNat b l)

/-- The `n` photosites of `b` bits packed in bytes (R159). -/
def unpackSites (b n : Nat) (l : List Byte) : List Nat :=
  let v := leNat l
  (List.range n).map fun i => bitsOf v (i * b) b

/-! ## Bands, cuts and markers (R165 to R167) -/

/-- Pruned width and height of a frame (R160). -/
def State.prunedW (s : State) (p : Nat) (f : IngFrame) : Nat :=
  s.getF (F.ING_PORT_GEOM_SENSOR_W p) - 8 * (f.left + f.right)
def State.prunedH (s : State) (p : Nat) (f : IngFrame) : Nat :=
  s.getF (F.ING_PORT_GEOM_SENSOR_H p) - 2 * (f.top + f.bottom)

/-- Bytes of a line item of pruned width `w` at `b` bits (R159). -/
def lineItemBytes (w b : Nat) : Nat := 16 + (w * b + 7) / 8

/-- The bytes of a cut marker (R166). -/
def CutRun.marker (r : CutRun) : List Byte :=
  r.tag ++ leBytes 3 r.lastFrame ++ leBytes 2 r.lastLine ++ leBytes 4 r.lines

/-- Write the pending marker of trug `t`, if there is one and the trug takes a word (R166). -/
def State.writeMarker (s : State) (t : Nat) : State :=
  match (s.band t).run with
  | some r =>
    if s.trugTakes t 25 then (s.trugItem t r.marker).setBand t { s.band t with run := none } else s
  | none => s

/-- KEPT of the record for a band held back by a guarantee of lower rank number (R167): 1 when a thermal step has
slowed the bed, 2 when another degrade step has, or when an egress Runner of the group runs below its required tier;
none where no such guarantee caused the hold. -/
def State.holdKept (s : State) (m : Nat) : Option Nat :=
  if m < 16 then
    if s.getF (F.BED_STATUS_CLOCK_STEP m) = 0 then none else if s.power.steps.isEmpty then some 2 else some 1
  else
    let img := s.seed.image
    let rs := (recordOffsets img 0x01).filter fun r => byteAt img (r + 1) == 5 && byteAt img (r + 3) == m - 16
    if rs.any fun r =>
        let n := byteAt img r
        s.getF (F.RUN_STATUS_STATE n) == 8 && s.bit (F.RUN_ERR_TIER_SHORT n) then some 2 else none

/-- The port is within its declared rate in the current and the previous frame (R164). -/
def State.withinRate (s : State) (p : Nat) : Bool :=
  let x := s.ingPort p
  !x.ratePrev && (match x.frame with | some f => !f.rate | none => true) &&
    (match x.closing with | some f => !f.rate | none => true)

/-- A band of `n` lines is cut from the input trug of merger `m` (R165, R167). -/
def State.cutBand (s : State) (p m n : Nat) : State :=
  let s1 := s.ingFlag p 6
  match s1.holdKept m with
  | some k => s1.when (s.withinRate p) (·.concede 3 p 4 k 0x0101 (n + 65536 * m))
  | none => s1

/-- Extend a cut run by the line of a tag, or start one: the tag keeps the fields R166 names. -/
def extendRun (r : Option CutRun) (t : LineTag) : CutRun :=
  match r with
  | some c => { c with lastFrame := t.frame % 2 ^ 24, lastLine := t.line, lines := c.lines + 1 }
  | none =>
    { tag := ({ t with
          pad := 3, cut := false, late := false, lateFrame := false, prevLong := false, resync := false
          poisoned := false } : LineTag).bytes
      lastFrame := t.frame % 2 ^ 24, lastLine := t.line, lines := 1 }

/-- One line of the pruned frame of height `h` meets input trug `t` of merger `m`: at the first line of a band the room
is checked, and the line is written or joins the cut run (R165, R166). -/
def State.bandLine (s : State) (p t m h : Nat) (tag : LineTag) (item : List Byte) : State :=
  let n := min 16 (h - tag.line / 16 * 16)
  let first := tag.line % 16 == 0
  let need := n * wordsFor item.length + (if (s.band t).run.isSome then 1 else 0)
  let fits := decide (0 < s.trugDepth t) && decide (need ≤ s.trugRoom t)
  let s1 :=
    if !first then s
    else if fits then
      let s' := s.writeMarker t
      s'.setBand t { s'.band t with cut := false, openStamp := some tag.stamp }
    else
      let s' := s.cutBand p m n
      s'.setBand t { s'.band t with cut := true, openStamp := some tag.stamp }
  let b := s1.band t
  let lastOf := decide (tag.line % 16 + 1 = n) || tag.last
  let b1 := if lastOf then { b with openStamp := none } else b
  if b.cut then s1.setBand t { b1 with run := some (extendRun b.run tag) }
  else (s1.trugItem t item).setBand t b1

/-- A line of frame `f` of port `p` leaves the port: pruned rows leave no item (R160, R163), every other line goes to
each input trug. -/
def State.ingEmit (s : State) (p : Nat) (f : IngFrame) (sites : List Nat) (stamp : Nat) (coarse : Bool) (pad : Nat)
    (cut : Bool) : State :=
  let h := s.prunedH p f
  let y0 := 2 * f.top
  if f.lines < y0 ∨ y0 + h ≤ f.lines then s
  else
    let line := f.lines - y0
    let tag : LineTag :=
      { stamp, origin := s.origin, sensor := p, frame := f.number, line, first := line == 0, last := line + 1 == h,
        pad, cut, late := false, lateFrame := f.late, prevLong := f.prevLong, resync := f.resync, coarse,
        poisoned := false }
    let item := tag.bytes ++ packSites (s.getF (F.ING_PORT_CFG_BPP p)) ((sites.drop (8 * f.left)).take (s.prunedW p f))
    (s.ingTrugs p).foldl (fun s' (t, m) => s'.bandLine p t m h tag item) s

/-! ## Frames (R157, R161, R162, R164) -/

/-- The pad lines of a short frame, each a line of PAD_CODE (R161, R162). -/
def State.padLines (s : State) (p : Nat) (f : IngFrame) : Nat → State
  | 0 => s
  | n + 1 =>
    let stamp := (f.lastStamp + s.portRec p 16 2 * 32) % 2 ^ 48
    let sites := List.replicate (s.getF (F.ING_PORT_GEOM_SENSOR_W p)) f.pad
    State.padLines (s.ingEmit p f sites stamp f.lastCoarse 2 false) p
      { f with lines := f.lines + 1, lastStamp := stamp } n

/-- A frame is closed: padded to SENSOR_H when short, with TIMEOUT when the timeout closed it (R161). -/
def State.closeFrame (s : State) (p : Nat) (f : IngFrame) (timeout : Bool) : State :=
  let missing := s.getF (F.ING_PORT_GEOM_SENSOR_H p) - f.lines
  let s1 := s.setPort p { s.ingPort p with prevLong := f.long, ratePrev := f.rate }
  if missing = 0 then s1
  else
    let s2 := s1.ingFlag p 2
    ((s2.when timeout (·.ingFlag p 10)).padLines p f missing).portStatus p

/-- Note RATE_OVER for a frame, once (R164). -/
def State.rateOver (s : State) (p : Nat) : State :=
  let x := s.ingPort p
  match x.frame with
  | some f => if f.rate then s else (s.ingFlag p 8).setPort p { x with frame := some { f with rate := true } }
  | none => s

/-- Photosites of one segment from the words its lanes delivered: photosite j travels on lane j mod L (R151). -/
def interleave (lanes : List (List Nat)) : List Nat :=
  (List.range ((lanes.map List.length).sum)).map fun j =>
    (lanes.getD (j % lanes.length) []).getD (j / lanes.length) 0

/-- A complete line is placed in its frame, or counted as stray or as part of a long frame (R161, R163). -/
def State.ingLine (s : State) (p : Nat) (ln : IngLine) : State :=
  let x := s.ingPort p
  let fr := if ln.old then x.closing else x.frame
  match fr with
  | none => s.ingFlag p 7
  | some f =>
    let put (s' : State) (f' : IngFrame) : State :=
      s'.setPort p (if ln.old then { s'.ingPort p with closing := some f' } else { s'.ingPort p with frame := some f' })
    if f.dead then s.ingFlag p 7
    else if s.getF (F.ING_PORT_GEOM_SENSOR_H p) ≤ f.lines then
      if f.long then s else put (s.ingFlag p 3) { f with long := true }
    else
      let w := s.segWidth p
      let bpp := s.getF (F.ING_PORT_CFG_BPP p)
      let short := ln.short || ln.segs.any fun g => decide (g.sites.length < w)
      let long := ln.segs.any fun g => decide (w < g.sites.length)
      let sites := ln.segs.flatMap fun g =>
        (g.sites.take w).map (· % 2 ^ bpp) ++ List.replicate (w - g.sites.length) f.pad
      let s1 := s.when short (·.ingFlag p 0)
      let s2 := s1.when long (·.ingFlag p 1)
      let s3 := s2.ingEmit p f sites ln.stamp ln.coarse (b2n short) long
      put s3 { f with lines := f.lines + 1, lastStamp := ln.stamp, lastCoarse := ln.coarse }

/-- The frame before the boundary is closed and padded once no line of it is in progress (R525); PREV_LONG passes to
the open frame. -/
def State.settle (s : State) (p : Nat) : State :=
  let x := s.ingPort p
  match x.closing with
  | none => s
  | some f =>
    if x.lines.any (·.old) then s
    else
      let s1 := (s.setPort p { x with closing := none }).closeFrame p f false
      let y := s1.ingPort p
      match y.frame with
      | some g => s1.setPort p { y with frame := some { g with prevLong := y.prevLong }, prevLong := false }
      | none => s1

/-- A line is complete when every segment has ended or is absent (R154). -/
def IngLine.complete (l : IngLine) : Bool := l.segs.all fun g => g.state == 2 || g.state == 3 || (l.closed && g.state == 0)

/-- Complete lines leave the head of the list in order; the frame before a boundary is settled before a line of the next
frame is placed. -/
def State.drainLines (s : State) (p : Nat) : Nat → State
  | 0 => s
  | fuel + 1 =>
    let x := s.ingPort p
    match x.lines with
    | [] => s.settle p
    | l :: rest =>
      if l.complete then
        let s0 := if l.old then s else s.settle p
        let s1 := s0.setPort p { s0.ingPort p with lines := rest }
        State.drainLines (s1.ingLine p l) p fuel
      else if l.old then s else s.settle p

/-- Drain every complete line. -/
def State.ingDrain (s : State) (p : Nat) : State := s.drainLines p ((s.ingPort p).lines.length + 1)

/-- End segment `g` of the line in which it is open, with the photosites delivered last (R154). -/
def endSeg (g : Nat) (sites : List Nat) (short : Bool) : List IngLine → List IngLine
  | [] => []
  | l :: r =>
    let q := l.segs.getD g {}
    if q.state = 1 then
      { l with segs := l.segs.set g { state := 2, sites := q.sites ++ sites }, short := l.short || short } :: r
    else l :: endSeg g sites short r

/-- End every segment still open, and close the line to further segments (R161, R163); `lanes` gives the words each
segment's lanes have delivered since its last code. -/
def IngLine.force (lanes : List (List (List Nat))) (l : IngLine) : IngLine :=
  { l with
      closed := true, short := true
      segs := l.segs.zipIdx.map fun (q, g) =>
        if q.state = 1 then { state := 2, sites := q.sites ++ interleave (lanes.getD g []) }
        else if q.state = 0 then { q with state := 3 } else q }

/-- End the lines in progress of the port for which `who` holds. -/
def State.forceLines (s : State) (p : Nat) (lanes : List (List (List Nat))) (who : IngLine → Bool) : State :=
  let x := s.ingPort p
  (s.setPort p { x with lines := x.lines.map fun l => if who l then l.force lanes else l }).ingDrain p

/-! ## The frame boundary (R525, R157, R160, R161, R164) -/

/-- The staged writes of an offset, applied. -/
def State.applyStaged (s : State) (offs : List Nat) : State :=
  let mine := s.staged.filter fun w => offs.contains w.1
  let s1 := { s with staged := s.staged.filter fun w => !offs.contains w.1 }
  mine.foldl (fun s' w => s'.wr w.1 w.2) s1

/-- Stage a shadowed write, replacing an earlier one of the same register (R13). -/
def State.stage (s : State) (off : Nat) (v : Word) : State :=
  { s with staged := s.staged.filter (fun w => w.1 != off) ++ [(off, v)] }

/-- Capture time: corrected time less STAMP_ADJ, as a short stamp (R155). -/
def State.captureStamp (s : State) (p : Nat) : Nat :=
  patternOf 48 (s.corrTicks - s.getS (F.ING_PORT_STAMP_ADJ_ADJ p))

/-- COARSE of a stamp taken now (R157). -/
def State.coarse (s : State) : Bool := !s.bit F.TIME_STATUS_INTERP_LOCK

/-- Ticks since a raw tick. -/
def State.since (s : State) (t : Nat) : Nat := (s.ticks + 2 ^ 64 - t) % 2 ^ 64

/-- The frame's SOF is late (R161): against the boundary of FREF that precedes it, or against the previous SOF. -/
def State.lateFrame (s : State) (p : Nat) : Bool :=
  let lim := s.getF (F.ING_PORT_LATE_LATE_LIMIT p) * 32000
  let n := s.getF (F.ING_PORT_CFG_FREF p)
  if lim = 0 then false
  else match (if n < 16 then (if (s.frefSettings n).off then none else (s.fref n).last) else none) with
    | some b => decide (b + lim < s.corrTicks)
    | none => match (s.ingPort p).prevSof with
      | some t =>
        decide (s.portRec p 12 4 * 32000000000 + lim * s.portRec p 8 4 < s.since t * s.portRec p 8 4)
      | none => false

/-- The SOF follows the previous one by less than 0.99 of the declared period (R164). -/
def State.sofFast (s : State) (p : Nat) : Bool :=
  match (s.ingPort p).prevSof with
  | some t => decide (s.since t * s.portRec p 8 4 * 100 < 99 * s.portRec p 12 4 * 32000000000)
  | none => false

/-- The frame boundary of a port: the open frame becomes the one to close, the shadowed settings apply, and the next
frame opens (R525). -/
def State.boundary (s : State) (p g : Nat) : State :=
  let x := s.ingPort p
  let late := s.lateFrame p
  let fast := s.sofFast p
  let s0 := match x.closing with
    | some _ => (s.forceLines p [] (·.old)).settle p
    | none => s
  let x0 := s0.ingPort p
  let s1 := s0.applyStaged [R.ING_PORT_PRUNE_H p, R.ING_PORT_PRUNE_V p, R.ING_PORT_PAD p, R.ING_PORT_STAMP_ADJ p]
  let number := if x.started then (s1.getF (F.ING_PORT_FRAME_FRAME p) + 1) % 2 ^ 24 else 0
  let stamp := s1.captureStamp p
  let f : IngFrame :=
    { number, stamp, coarse := s1.coarse, lines := 0, lastStamp := stamp, lastCoarse := s1.coarse, late
      prevLong := x0.prevLong, resync := x0.resync, rate := false, long := false, dead := false
      left := s1.getF (F.ING_PORT_PRUNE_H_LEFT p), right := s1.getF (F.ING_PORT_PRUNE_H_RIGHT p)
      top := s1.getF (F.ING_PORT_PRUNE_V_TOP p), bottom := s1.getF (F.ING_PORT_PRUNE_V_BOTTOM p)
      pad := s1.getF (F.ING_PORT_PAD_PAD_CODE p) % 2 ^ s1.getF (F.ING_PORT_CFG_BPP p)
      timeout := s1.getF (F.ING_PORT_TIMEOUT_FRAME_TIMEOUT p) }
  let s2 := s1.setF (F.ING_PORT_FRAME_FRAME p) number
  let oldLines := x0.lines.map fun l =>
    { l with old := true, segs := l.segs.zipIdx.map fun (q, k) => if k = g ∧ q.state = 0 then { q with state := 3 } else q }
  let s3 := s2.setPort p { x0 with
    frame := some f, closing := x0.frame, lines := oldLines, boundary := some s.ticks, seen := [g], started := true
    geoms :=
      ({ number, left := 8 * f.left, top := 2 * f.top, width := s2.prunedW p f, height := s2.prunedH p f } :: x0.geoms).take 16
    prevSof := some s.ticks, lastSol := none, prevLong := false, resync := false }
  let s4 := s3.when late (·.ingFlag p 4)
  let s5 := s4.when fast (·.rateOver p)
  s5.ingDrain p

/-- An SOF on segment `g` (R525): a further one of the same boundary within 1 µs, or a new boundary. The SOF of
the gang's first Runner fires Twine source 48 + p (R451). -/
def State.ingSof (s : State) (p g : Nat) : State :=
  let fire (y : State) : State := y.when (g == 0) (·.fireSource (48 + p))
  let x := s.ingPort p
  match x.boundary with
  | some t =>
    if s.since t ≤ 32000 then
      let ls := x.lines.map fun (l : IngLine) =>
        if l.old && (l.segs.getD g {}).state == 0 then { l with segs := l.segs.set g { state := 3 } } else l
      let fr := match x.frame with
        | some f => if g = 0 ∧ ¬ 0 ∈ x.seen ∧ f.lines = 0 then
              some { f with stamp := s.captureStamp p, coarse := s.coarse, lastStamp := s.captureStamp p, lastCoarse := s.coarse }
            else some f
        | none => none
      let s1 := (s.setPort p { x with lines := ls, frame := fr, seen := x.seen ++ [g] }).ingDrain p
      if x.seen.contains g then s1 else fire s1
    else fire (s.boundary p g)
  | none => fire (s.boundary p g)

/-! ## Lines (R154, R155) -/

/-- Begin segment `g` in the first line in progress that still waits for it, with the stamp of the gang's first Runner
when that Runner begins it; none where no line waits. -/
def joinLine (g stamp : Nat) (coarse oldOk : Bool) : List IngLine → Option (List IngLine)
  | [] => none
  | l :: r =>
    if (l.segs.getD g {}).state = 0 ∧ l.closed = false ∧ (l.old = false ∨ oldOk = true) then
      let l1 := { l with segs := l.segs.set g { state := 1 } }
      some ((if g = 0 then { l1 with stamp := stamp, coarse := coarse } else l1) :: r)
    else (joinLine g stamp coarse oldOk r).map (l :: ·)

/-- An SOL on segment `g` begins it in the line that waits for it, or begins a new line (R154, R155, R164). -/
def State.ingSol (s : State) (p g : Nat) : State :=
  let x := s.ingPort p
  let stamp := s.captureStamp p
  match joinLine g stamp s.coarse (!x.seen.contains g) x.lines with
  | some ls => s.setPort p { x with lines := ls }
  | none =>
    let ln : IngLine :=
      { old := false, start := s.ticks, stamp, coarse := s.coarse, closed := decide (s.gang p ≤ 1), short := false
        segs := (List.replicate (s.gang p) ({} : IngSeg)).set g { state := 1 } }
    let fast := match x.lastSol with
      | some t => decide (s.since t < s.portRec p 16 2 * 32)
      | none => false
    let s1 := s.setPort p { x with lines := x.lines ++ [ln], lastSol := some s.ticks }
    s1.when fast (·.rateOver p)

/-- The frame in progress ends by EOF or timeout: its lines in progress end short, and it is closed and padded (R161,
R163). -/
def State.endFrame (s : State) (p : Nat) (lanes : List (List (List Nat))) (timeout : Bool) : State :=
  let s1 := s.forceLines p lanes (fun _ => true)
  let x := s1.ingPort p
  match x.frame with
  | some f => (s1.setPort p { x with frame := none }).closeFrame p f timeout
  | none => s1

/-- A code of the locked port acts on segment `g` (R154, R161, R525). -/
def State.ingAct (s : State) (p g : Nat) (k : CodeKind) (sites : List Nat) : State :=
  let x := s.ingPort p
  let s1 := s.setPort p { x with lines := endSeg g sites (k == .sof) x.lines }
  match k with
  | .sol => ((s1.ingDrain p).ingSol p g)
  | .eol => s1.ingDrain p
  | .sof => (s1.ingDrain p).ingSof p g
  | .eof =>
    let s2 := s1.ingDrain p
    if s.bit (F.ING_PORT_CFG_EOF_USED p) && (s2.ingPort p).frame.isSome then s2.endFrame p [] false else s2

/-! ## Matchers (R152, R153) -/

/-- The code a type word spells: SOF, EOF, SOL, EOL in that order, under CODE_MASK (R152). -/
def State.codeOf (s : State) (p w : Nat) : Option CodeKind :=
  let mask := s.portRec p 46 2
  let hit (o : Nat) : Bool := (w ^^^ s.portRec p o 2) &&& mask == 0
  if hit 38 then some .sof else if hit 40 then some .eof else if hit 42 then some .sol
  else if hit 44 then some .eol else none

/-- The matcher of Runner `r` loses the lock (R153, R161): SYNC_LOST; the port's line in progress ends short and no
further line joins the frame. -/
def State.syncLost (s : State) (p r st : Nat) (lanes : List (List (List Nat))) : State :=
  let was := s.portSync p == 2
  let s1 := (s.setMatcher r { state := st }).ingFlag p 5
  if was then
    let s2 := s1.forceLines p lanes (fun _ => true)
    let x := s2.ingPort p
    s2.setPort p { x with
      frame := x.frame.map fun f => { f with dead := true }
      resync := true }
  else s1.portStatus p

/-- Runner `r` in the sensor port role enters ACTIVE: its matcher starts to search (R153, R174). -/
def State.ingRunnerUp (s : State) (r : Nat) : State :=
  match s.portOf r with
  | some p => (s.setMatcher r { state := 1 }).portStatus p
  | none => s

/-- Runner `r` in the sensor port role leaves ACTIVE: a locked matcher loses sync (R144, R153). -/
def State.ingRunnerDown (s : State) (r : Nat) (lanes : List (List (List Nat))) : State :=
  match s.portOf r with
  | some p =>
    if (s.matcher r).state = 2 then s.syncLost p r 0 lanes else (s.setMatcher r {}).portStatus p
  | none => s

/-- Ticks of one word at the Runner's measured rate: codes no further apart are of one word time (R153). -/
def State.wordTicks (s : State) (p : Nat) : Nat :=
  let mbps := s.getF (F.RUN_RAW_RATE_MBPS p)
  if mbps = 0 then 1 else s.getF (F.ING_PORT_CFG_BPP p) * 32000 / mbps

/-- A recognised code of a locked Runner: it acts when the whole port is locked, with the codes of the same word time
before it; else it is held for that word time and frames nothing (R153). -/
def State.lockedCode (s : State) (p g : Nat) (was : Bool) (k : CodeKind) (sites : List Nat) : State :=
  let x := s.ingPort p
  let near := x.held.filter fun c => decide (s.since c.tick < s.wordTicks p)
  if s.portSync p = 2 then
    let s0 := s.setPort p { x with held := [] }
    let s1 := if was then s0 else near.foldl (fun s' c => s'.ingAct p c.seg c.kind c.sites) s0
    s1.ingAct p g k sites
  else s.setPort p { x with held := near ++ [{ tick := s.ticks, seg := g, kind := k, sites := [] }] }

/-- A code of kind `k` seen on a Runner of port `p` (R152, R153). -/
def State.ingCode (s : State) (p : Nat) (c : SyncCode) (k : CodeKind) : State :=
  let r := c.runner
  let g := r - p
  let m := s.matcher r
  let was := s.portSync p == 2
  let sites := interleave c.lanes
  match m.state with
  | 1 =>
    if !c.agree then s
    else
      let n := if m.count = 0 ∨ m.grid ≠ c.grid then 1 else m.count + 1
      if n < 4 then s.setMatcher r { state := 1, count := n, grid := c.grid }
      else
        let s1 := (s.setMatcher r { state := 2, count := 0, grid := c.grid }).portStatus p
        s1.lockedCode p g was k []
  | 2 =>
    if c.agree && c.grid == m.grid then (s.setMatcher r { m with count := 0 }).lockedCode p g was k sites
    else if m.count + 1 < 4 then s.setMatcher r { m with count := m.count + 1 }
    else s.syncLost p r 1 ((List.replicate g []) ++ [c.lanes])
  | _ => s

/-- A code command of kind `k`: it does nothing on a Runner of no port, or where the type word spells another code. -/
def State.codeCmd (s : State) (c : SyncCode) (k : CodeKind) : State :=
  match s.portOf c.runner with
  | some p => if s.up 3 && s.codeOf p c.word == some k then s.ingCode p c k else s
  | none => s

end Sys2Proof.Machine
end

