-- ==== Sys2Proof/Machine/PeUnits.lean ====
section
/-!
DEFINITION. Pixel engines as units of the device: kernel records, placement, retirement, migration and bypass
(spec/08_pixel_engines.md).
-/

namespace Sys2Proof.Machine

/-! ## Kernel records (R246) -/

/-- A splice kernel of the image: its record index and its fields. -/
structure KernelRec where
  index : Nat
  off : Nat
  splice : Nat
  order : Nat
  engines : Nat
  rows : Nat
  cycles : Nat
  codeLen : Nat
  constLen : Nat
  dataLen : Nat
  entry : Nat
  frameEntry : Option Nat
  deriving DecidableEq, Repr

/-- The record at a byte offset. -/
def kernelAt (img : List Byte) (i o : Nat) : KernelRec :=
  { index := i, off := o, splice := byteAt img (o + 4), order := byteAt img (o + 5), engines := byteAt img (o + 6)
    rows := byteAt img (o + 7), cycles := fieldAt img (o + 8) 4, codeLen := fieldAt img (o + 12) 2
    constLen := fieldAt img (o + 16) 4, dataLen := fieldAt img (o + 20) 4, entry := fieldAt img (o + 24) 4
    frameEntry := if fieldAt img (o + 28) 4 = 2 ^ 32 - 1 then none else some (fieldAt img (o + 28) 4) }

/-- Byte offsets of the records, which follow each other without gaps: `n` records from offset `o`. -/
def kernelOffsets (img : List Byte) (o : Nat) : Nat → List Nat
  | 0 => []
  | n + 1 => o :: kernelOffsets img (o + fieldAt img o 4) n

/-- The kernels of an image, in record order. -/
def kernelsOf (img : List Byte) : List KernelRec :=
  let (o, c) := sectionAt img 0x04
  (kernelOffsets img o c).zipIdx.map fun (r, i) => kernelAt img i r

/-- The chain of a splice point, in ascending ORDER (R229). -/
def State.chain (s : State) (p : Nat) : List KernelRec :=
  sortBy (fun a b => decide (a.order ≤ b.order)) ((kernelsOf s.seed.image).filter (·.splice == p))

/-- Bytes of a record's code, padded (R246). -/
def KernelRec.codeBytes (k : KernelRec) : Nat := (k.codeLen * 8 + 63) / 64 * 64

/-- An engine with a kernel's code, constant data and initial data loaded (R238). -/
def KernelRec.load (img : List Byte) (k : KernelRec) : PeEngine :=
  { code := (List.range k.codeLen).map fun i => fieldAt img (k.off + 64 + 8 * i) 8
    entry := k.entry, frameEntry := k.frameEntry
    init := (img.drop (k.off + 64 + k.codeBytes)).take (k.constLen + k.dataLen), constLen := k.constLen }

/-! ## The engines -/

/-- The state of engine `e` beside its registers. -/
def State.engine (s : State) (e : Nat) : PeEngine := s.engines.at {} e

/-- PE[e].STATUS.STATE. -/
def State.peState (s : State) (e : Nat) : Nat := s.getF (F.PE_STATUS_STATE e)

/-- Replace the state of engine `e` and bring its sticky flags and TILE_MAX up to date (R238, R244). -/
def State.setEngine (s : State) (e : Nat) (g : PeEngine) : State :=
  let s1 := { s with engines := s.engines.put {} e { g with constWr := false, tileMax := 0, poison := false } }
  let s2 := (s1.when g.constWr (·.flag (F.PE_ERR_CONST_WR e))).when g.poison (·.flag (F.PE_ERR_POISON e))
  s2.setF (F.PE_TILE_MAX_CYCLES e) (max (s2.getF (F.PE_TILE_MAX_CYCLES e)) (min g.tileMax 65535))

/-- The engines fitted. -/
def State.engineList (s : State) : List Nat := List.range s.variant.pes

/-- An engine is available: fitted, not retired, and running no kernel (R248). -/
def State.peAvailable (s : State) (e : Nat) : Bool := decide (e < s.variant.pes) && s.peState e == 0

/-- Bring PE_POOL up to date (R248). -/
def State.pePool (s : State) : State :=
  let count (f : Nat → Bool) : Nat := (s.engineList.filter f).length
  ((s.setF F.PE_POOL_RETIRED (count fun e => s.bit (F.PE_SPARE_RETIRED e))).setF F.PE_POOL_IN_SERVICE
    (count fun e => s.peState e == 2 || s.peState e == 3 || s.peState e == 4)).setF F.PE_POOL_AVAILABLE
    (count s.peAvailable)

/-- An engine leaves every kernel and is available (R250). -/
def State.peFree (s : State) (e : Nat) : State := ((s.wr (R.PE_STATUS e) 0#32).setEngine e {}).pePool

/-- Engine `e` runs a kernel as member `m` and share `k` in a state: 1 loading, 2 running (R248, R252). -/
def State.pePlace (s : State) (e : Nat) (r : KernelRec) (m k st : Nat) : State :=
  let s1 := ((((s.setF (F.PE_STATUS_STATE e) st).setF (F.PE_STATUS_KERNEL e) r.index).setF (F.PE_STATUS_SPLICE e)
    r.splice).setF (F.PE_STATUS_MEMBER e) m).setF (F.PE_STATUS_SHARE e) k
  (s1.setEngine e (r.load s1.seed.image)).pePool

/-- The lowest-numbered available engine. -/
def State.peNext (s : State) : Option Nat := s.engineList.find? s.peAvailable

/-- Engine `e` is retired (R248, R249): the count of spares falls, and the last spare in service sets PE_LAST. -/
def State.peRetire (s : State) (e : Nat) : State :=
  let s1 := (((s.wr (R.PE_STATUS e) 0#32).setF (F.PE_STATUS_STATE e) 6).setEngine e {}).flag (F.PE_SPARE_RETIRED e)
  let live := (s1.engineList.filter fun x => !s1.bit (F.PE_SPARE_RETIRED x)).length
  let left := live - s1.variant.peBase
  let last := left == 0 && s1.getF F.GLB_SPARE_PE_SPARES_LEFT != 0
  let s2 := s1.setF F.GLB_SPARE_PE_SPARES_LEFT left
  (s2.when last fun x => (x.flag F.GLB_SPARE_PE_LAST).event 0x0F08 5 e 2).pePool

/-- The Gardener chooses a target for engine `e` and loads the kernel into it (R252 step 1); none when no engine is
available. -/
def State.peTarget (s : State) (e : Nat) : Option State :=
  match s.peNext, (kernelsOf s.seed.image)[s.getF (F.PE_STATUS_KERNEL e)]? with
  | some t, some r =>
    let s1 := s.pePlace t r (s.getF (F.PE_STATUS_MEMBER e)) (s.getF (F.PE_STATUS_SHARE e)) 1
    some (s1.setEngine e { s1.engine e with target := some t, moving := true })
  | _, _ => none

/-- The engines of a bed's two splice points that run, or are to run, a kernel. -/
def State.bedEngines (s : State) (n : Nat) : List Nat :=
  s.engineList.filter fun e => s.peState e != 0 && s.peState e != 6 && s.getF (F.PE_STATUS_SPLICE e) / 2 == n

/-- The engine a target serves. -/
def State.peSource (s : State) (t : Nat) : Option Nat := s.engineList.find? fun e => (s.engine e).target == some t

/-- Copy registers and writable local memory of an engine into another (R252 step 2). -/
def PeEngine.copyInto (g h : PeEngine) : PeEngine := { h with s := g.s, v := g.v, mem := g.mem, kind := g.kind }

/-- Engine `e`'s kernel has moved to `t`: e is retired, and the event is logged (R252 step 4, R253). -/
def State.peMoved (s : State) (e t : Nat) : State :=
  let sp := s.getF (F.PE_STATUS_SPLICE e)
  let kind := (s.engine e).kind
  ((s.peRetire e).flag (F.PE_ERR_MIGRATED e)).event 0x0F03 5 e (t + 256 * sp + 65536 * kind)

/-- What a frame boundary does to an engine that moves (R252 to R254), but for one that seeks a target. -/
def State.peBoundary1 (s : State) (e : Nat) : State :=
  let g := s.engine e
  match g.target with
  | none => s
  | some t =>
    if s.peState e = 3 then (s.setF (F.PE_STATUS_STATE t) 2).peMoved e t
    else if s.peState e = 5 ∧ s.peState t = 2 then s.peMoved e t
    else if (s.engine t).loaded = false ∨ s.peState t ≠ 1 then s
    else
      let s1 := s.setEngine t (g.copyInto (s.engine t))
      if s.peState e = 5 then (s1.setF (F.PE_STATUS_STATE t) 2).peMoved e t
      else ((s1.setF (F.PE_STATUS_STATE t) 4).setF (F.PE_STATUS_STATE e) 3).pePool

/-- A frame boundary of bed `n`: the engines that move, in ascending number. -/
def State.peBoundary (s : State) (n : Nat) : State := (s.bedEngines n).foldl State.peBoundary1 s

/-- The engines of bed `n` that are to move and have no target: a new one is sought at the boundary (R254). -/
def State.peSeeking (s : State) (n : Nat) : List Nat :=
  (s.bedEngines n).filter fun e => (s.engine e).moving && (s.engine e).target.isNone

/-- A migration ends without a move: the target is free again and a compared source runs on (R254). -/
def State.peAbandon (s : State) (e : Nat) : State :=
  match (s.engine e).target with
  | none => s
  | some t =>
    let s1 := if s.peState t = 1 ∨ s.peState t = 4 then s.peFree t else s
    let s2 := if s1.peState e = 3 then s1.setF (F.PE_STATUS_STATE e) 2 else s1
    (s2.setEngine e { s2.engine e with target := none }).pePool

/-- Dormant entry abandons every migration; the engines migrate again after wake (R254). -/
def State.peAbandonAll (s : State) : State := s.engineList.foldl State.peAbandon s

/-! ## Bypass (R193, R250) -/

/-- Splice point `p` is bypassed: its engines stop and become available; one that failed is retired. -/
def State.peBypass (s : State) (p : Nat) : State :=
  let n := p / 2
  let es := s.engineList.filter fun e => s.peState e != 0 && s.peState e != 6 && s.getF (F.PE_STATUS_SPLICE e) == p
  let s1 := es.foldl (fun (x : State) e => if (s.engine e).moving then x.peRetire e else x.peFree e) s
  let s2 := s1.flag (F.PE_SPLICE_STATUS_BYPASS p)
  let s3 := s2.flag (if p % 2 = 0 then F.BED_STATUS_KBYPASS_A n else F.BED_STATUS_KBYPASS_B n)
  let s4 := (s3.flag (F.BED_ERR_KBYPASS n)).event 0x0F05 4 n p
  s4.when (s4.bit (F.BED_CTL_MSIX_EN n)) (·.raise (404 + n))

/-- KERNEL_BYPASS for the failed engine `e` (R250): at its own splice point, or at splice point `p` to free an engine for
it; an action that frees none bypasses the failed kernel's splice point as well. -/
def State.kernelBypass (s : State) (e : Nat) (p : Option Nat) : State :=
  let own := s.getF (F.PE_STATUS_SPLICE e)
  match p with
  | none => s.peBypass own
  | some q =>
    if q = own then s.peBypass own
    else
      let s1 := s.peBypass q
      match s1.peTarget e with
      | some s2 => s2
      | none => s1.peBypass own

/-! ## Issue on one engine -/

/-- An engine executes instructions: it is fitted, its block works, and it is neither stopped nor retired (R253). -/
def State.peRuns (s : State) (e : Nat) : Bool :=
  s.up 5 && decide (e < s.variant.pes) && s.peState e != 5 && s.peState e != 6

/-- Engine `e` issues one instruction: the operation code, its fields and its operation (R235). -/
def State.peStep (s : State) (e op : Nat) (o : PeOp) (act : PeOp → PeEngine → PeEngine) : State :=
  match peForm? op with
  | some f => if s.peRuns e then s.setEngine e ((s.engine e).issue f o act) else s
  | none => s

end Sys2Proof.Machine
end

