-- ==== Sys2Proof/Machine/BedOps.lean ====
section
/-!
DEFINITION. Beds as shared operations: slot pages and tables, the stages of a frame from its input lines to the lines of
its splice points, and the kernels of a chain (spec/07_raw_pipeline.md, R176 to R212).
-/

namespace Sys2Proof.Machine

/-! ## The state of a bed -/

/-- The state of bed `n` beside its registers. -/
def State.bed (s : State) (n : Nat) : Bed := s.beds.at {} n

/-- Replace the state of bed `n`. -/
def State.setBed (s : State) (n : Nat) (b : Bed) : State := { s with beds := s.beds.put {} n b }

/-- Slot `k` of bed `n`. -/
def State.bedSlot (s : State) (n k : Nat) : BedSlot := (s.bed n).slots.at {} k

/-- Replace slot `k` of bed `n`. -/
def State.setBedSlot (s : State) (n k : Nat) (x : BedSlot) : State :=
  s.setBed n { s.bed n with slots := (s.bed n).slots.put {} k x }

/-- A sticky bed event: its flag, its counter where it has one, and vector 404 + n (R225). -/
def State.bedErr (s : State) (n bit : Nat) (cnt : Option Nat) : State :=
  let s1 := s.flag ⟨R.BED_ERR n, bit, 1⟩
  let s2 := match cnt with | some k => s1.bump (F.BED_CNT_COUNT n k) | none => s1
  s2.when (s2.bit (F.BED_CTL_MSIX_EN n)) (·.raise (404 + n))

/-- The slot of bed `n` that port `p` occupies (R177). -/
def State.slotOf (s : State) (n p : Nat) : Option Nat :=
  (List.range 8).find? fun k => s.bit (F.BED_SENSOR_VALID n k) && s.getF (F.BED_SENSOR_PORT n k) == p

/-- The bed is a lead in use, its block works and its merger feeds it. -/
def State.bedUp (s : State) (n : Nat) : Bool :=
  s.up 4 && decide (n < s.variant.beds) && s.getF (F.BED_CFG_JOIN n) != 0 && s.getF (F.BED_CFG_MEMBER n) == 0

/-- The CFA period P (R179). -/
def State.cfaPeriod (s : State) (n : Nat) : Nat := if s.bit (F.BED_CFG_QUAD n) then 4 else 2

/-- An offset belongs to slot `k` of bed `n`: its page, or the kernel parameters of that slot (R241). -/
def inSlot (n k off : Nat) : Bool :=
  (decide (R.BED_SHADOW n k ≤ off) && decide (off < R.BED_SHADOW n k + 0x400)) ||
  (List.range 2).any fun a =>
    decide (R.PE_SPLICE_PARAM (2 * n + a) k 0 ≤ off) && decide (off < R.PE_SPLICE_PARAM (2 * n + a) k 0 + 0x40)

/-- The lead copies words of its slot page to the other members of its group (R217). -/
def State.copyToMembers (s : State) (n : Nat) (offs : List Nat) : State :=
  (List.range (s.getF (F.BED_CFG_JOIN n) - 1)).foldl (fun x m =>
    offs.foldl (fun y o => y.wr (o + 0x10000 * (m + 1)) (s.rd o)) x) s

/-- Bring SHADOW.PENDING of a slot up to date (R216). -/
def State.bedPending (s : State) (n k : Nat) : State :=
  s.setB (F.BED_SHADOW_PENDING n k) (s.staged.any fun w => inSlot n k w.1)

/-- A shadowed write to a slot waits for its boundary (R215). -/
def State.bedStage (s : State) (n k off : Nat) (v : Word) : State := (s.stage off v).bedPending n k

/-! ## The page in force for a frame -/

/-- The words of a slot page. -/
def State.slotPage (s : State) (n k : Nat) : List Nat :=
  (List.range 84).map fun i => (s.rd (R.BED_SHADOW n k + 4 * i)).toNat

/-- A word of the page by its slot offset. -/
def BedFrame.word (f : BedFrame) (off : Nat) : Nat := f.page.getD (off / 4) 0

/-- EN and ADDR of a table pointer, by index 0 LIN to 7 SCL (R183). -/
def BedFrame.tabEn (f : BedFrame) (k : Nat) : Bool := f.word (8 + 8 * k) % 2 == 1
def BedFrame.tabAddr (f : BedFrame) (k : Nat) : Nat :=
  (f.word (8 + 8 * k) + f.word (12 + 8 * k) * 2 ^ 32) % 2 ^ 37 / 256 * 256

/-- Encoder `e` of the frame (R205, R206). -/
def BedFrame.enc (f : BedFrame) (e : Nat) : BedEnc :=
  let c := f.word (0xC0 + 0x40 * e)
  let p := f.word (0xC4 + 0x40 * e)
  { curve := bitsOf c 0 3, depth := bitsOf c 3 2, layout := bitsOf c 5 2, narrow := c.testBit 7, ycc2020 := c.testBit 8
    pack := c.testBit 9, pqWhite := bitsOf p 0 16, hlgGain := bitsOf p 16 16 }

/-- Coefficient `k` of the matrix of encoder `e`. -/
def BedFrame.mtx (f : BedFrame) (e k : Nat) : Int := signedOf 24 (f.word (0xC8 + 0x40 * e + 4 * k))

/-- First kept column or row, and the number kept, on an axis (R197): CROP_X at 0x6C, CROP_Y at 0x70; the window is
clipped to the input frame. -/
def BedFrame.crop (f : BedFrame) (vertical : Bool) : Nat × Nat :=
  let w := f.word (if vertical then 0x70 else 0x6C)
  let size := if vertical then f.height else f.width
  if bitsOf w 16 16 = 0 then (0, size)
  else
    let left := min (bitsOf w 0 16) size
    (left, min (bitsOf w 16 16) (size - left))

/-- Width and height of the cropped frame. -/
def BedFrame.cropW (f : BedFrame) : Nat := (f.crop false).2
def BedFrame.cropH (f : BedFrame) : Nat := (f.crop true).2

/-- The scaler runs (R208), and the size of the proxy frame. -/
def BedFrame.scaled (f : BedFrame) : Bool :=
  f.tabEn 7 && decide (bitsOf (f.word 0x140) 0 16 ≠ 0) && decide (bitsOf (f.word 0x140) 16 16 ≠ 0)
def BedFrame.proxyW (f : BedFrame) : Nat := if f.scaled then bitsOf (f.word 0x140) 0 16 else f.cropW
def BedFrame.proxyH (f : BedFrame) : Nat := if f.scaled then bitsOf (f.word 0x140) 16 16 else f.cropH

/-! ## Tables (R184, R223) -/

/-- Bytes of the table a pointer names (R184). -/
def State.tableSize (s : State) (n k i : Nat) : Nat :=
  let p := s.getF (F.BED_SENSOR_PORT n k)
  let w := s.getF (F.ING_PORT_GEOM_SENSOR_W p)
  let h := s.getF (F.ING_PORT_GEOM_SENSOR_H p)
  match i with
  | 0 => 16384
  | 1 => w * 2
  | 2 => h * 2
  | 3 => w * h * 2
  | 4 => s.getF (F.BED_DEFECT_CNT_COUNT n k) * 4
  | 5 => 67080
  | 6 => 2197000
  | _ => 2048

/-- Tables that are copied on chip: LIN, COL, MESH and SCL (R184). -/
def smallTable (i : Nat) : Bool := i == 0 || i == 1 || i == 5 || i == 7

/-- A copy of a table on chip, with the words that were poisoned. -/
def State.copyTable (s : State) (addr size : Nat) : BedTable :=
  { bytes := s.hbm.read addr size
    bad := (List.range (size / 32 + 1)).filter fun i => decide (32 * i < size) && s.hbm.bad (addr + 32 * i) }

/-- A field of `n` bytes at byte `o` of a frame's small table. -/
def BedFrame.small (f : BedFrame) (k o n : Nat) : Nat := fieldAt (f.tables.at {} k).bytes o n

/-- A field of `n` bytes at byte `o` of a streamed table. -/
def State.streamed (s : State) (f : BedFrame) (k o n : Nat) : Nat := leNat (s.hbm.read (f.tabAddr k + o) n)

/-- Whether a byte of the table of pointer `k` lies in a poisoned word. -/
def State.tableBad (s : State) (f : BedFrame) (k o : Nat) : Bool :=
  if smallTable k then (f.tables.at {} k).bad.contains (o / 32) else s.hbm.bad (f.tabAddr k + o)

/-- A line used a poisoned word of the table of pointer `k`: the record, once per table and frame (R223). -/
def State.noteTable (s : State) (n slot k : Nat) (f : BedFrame) : BedFrame × State :=
  if f.noted.contains k then (f, s)
  else ({ f with noted := f.noted ++ [k] }, s.concede 4 n 4 2 0x0004 (slot + 256 * k))

/-- Note the tables whose poisoned words a line used, from pointer index and byte offsets read; each such word read from
plot space counts (R223, R347). -/
def State.noteUses (s : State) (n slot : Nat) (f : BedFrame) (uses : List (Nat × List Nat)) : Bool × BedFrame × State :=
  uses.foldl (fun (acc : Bool × BedFrame × State) (k, os) =>
    if f.tabEn k && os.any (s.tableBad f k) then
      let (f', s') := acc.2.2.noteTable n slot k acc.2.1
      let bad := ((os.filter (s.tableBad f k)).map fun o => (f.tabAddr k + o) / 32).eraseDups
      (true, f', if smallTable k then s' else bad.foldl (fun x w => x.noteRange (w * 32) 1) s')
    else acc) (false, f, s)

/-! ## Stages 1 and 2 (R186 to R188) -/

/-- Sensor coordinates of a site of the input frame. -/
def BedFrame.sx (f : BedFrame) (x : Nat) : Nat := f.left + x
def BedFrame.sy (f : BedFrame) (y : Nat) : Nat := f.top + y

/-- The class of a site of the input frame. -/
def State.siteClass (s : State) (n : Nat) (f : BedFrame) (x y : Nat) : Nat :=
  cfaClass (s.bit (F.BED_CFG_QUAD n)) (s.getF (F.BED_CFG_PHASE n)) (f.sx x) (f.sy y)

/-- Stage 1 of a line. -/
def State.stage1 (s : State) (n slot : Nat) (f : BedFrame) (l : BedLine) : List Int :=
  let bpp := s.getF (F.ING_PORT_CFG_BPP (s.getF (F.BED_SENSOR_PORT n slot)))
  let tab := if f.tabEn 0 then some fun i => ((f.small 0 (4 * i) 4 % 2 ^ 20 : Nat) : Int) else none
  l.sites.map (linearise tab bpp)

/-- Stage 2 of a line (R187). -/
def State.stage2 (s : State) (n slot : Nat) (f : BedFrame) (y : Nat) (lin : List Int) : List Int :=
  let w := s.getF (F.ING_PORT_GEOM_SENSOR_W (s.getF (F.BED_SENSOR_PORT n slot)))
  let row := if f.tabEn 2 then signedOf 16 (s.streamed f 2 (2 * f.sy y) 2) else 0
  lin.zipIdx.map fun (v, x) =>
    let col := if f.tabEn 1 then signedOf 16 (f.small 1 (2 * f.sx x) 2) else 0
    let dark := if f.tabEn 3 then
        rdiv ((s.streamed f 3 (2 * (f.sy y * w + f.sx x)) 2 : Nat) * (bitsOf (f.word 0x58) 0 16 : Nat)) (2 ^ 14 : Nat) else 0
    clampS21 (v - f.black.getD (s.siteClass n f x y) 0 - col - row - dark)

/-- The bytes of the tables that stages 1 and 2 of a line read. -/
def State.usesLin (s : State) (n slot : Nat) (f : BedFrame) (y : Nat) (l : BedLine) : List (Nat × List Nat) :=
  let p := s.getF (F.BED_SENSOR_PORT n slot)
  let bpp := s.getF (F.ING_PORT_CFG_BPP p)
  let w := s.getF (F.ING_PORT_GEOM_SENSOR_W p)
  let xs := List.range l.sites.length
  [(0, l.sites.flatMap fun v => let i := v * 2 ^ (16 - bpp) / 16; [4 * i, 4 * min 4095 (i + 1)]),
   (1, xs.map fun x => 2 * f.sx x), (2, [2 * f.sy y]), (3, xs.map fun x => 2 * (f.sy y * w + f.sx x))]

/-- A row of optical black (R188). -/
def BedFrame.isOb (f : BedFrame) (y : Nat) : Bool :=
  let top := bitsOf (f.word 0x5C) 0 14
  decide (top ≤ f.sy y) && decide (f.sy y < top + bitsOf (f.word 0x5C) 14 8)

/-- Add a line's stage 1 outputs to the optical-black sums of their classes. -/
def State.obAdd (s : State) (n : Nat) (f : BedFrame) (y : Nat) (lin : List Int) : BedFrame :=
  lin.zipIdx.foldl (fun (g : BedFrame) (v, x) =>
    let c := s.siteClass n f x y
    { g with obSum := g.obSum.set c (g.obSum.getD c 0 + v), obCnt := g.obCnt.set c (g.obCnt.getD c 0 + 1) })
    { f with obRows := f.obRows + 1 }

/-- Stages 1 and 2 take line `y`. -/
def State.linLine (s : State) (n slot y : Nat) (f : BedFrame) : BedFrame × State :=
  match f.lines.find? (·.1 == y) with
  | none => (f, s)
  | some (_, l) =>
    if l.cut then ({ f with lin := f.lin.insert y { cut := true } }, s)
    else
      let v := s.stage1 n slot f l
      let f1 := if f.isOb y && (tagOf l.tag).pad != 2 then s.obAdd n f y v else f
      let (bad, f2, s2) := s.noteUses n slot f1 (s.usesLin n slot f y l)
      let row : BedRow := { vals := [s.stage2 n slot f y v], poison := l.poison || bad }
      ({ f2 with lin := f2.lin.insert y row }, s2)

/-! ## Stages 3, 4 and 5 (R189 to R194) -/

/-- A value of a map of rows; a line that is cut or missing reads 0 (R211). -/
def rowVal (m : SMap BedRow) (c : Nat) (x y : Nat) : Int := ((m.at {} y).vals.getD c []).getD x 0

/-- Stages 3 and 4 of a line: its values, the sites replaced dynamically and from the map, and whether the map was out of
order. -/
def State.stage34 (s : State) (n slot : Nat) (f : BedFrame) (y : Nat) : List Int × Nat × Nat × Bool :=
  let p := s.cfaPeriod n
  let port := s.getF (F.BED_SENSOR_PORT n slot)
  let cnt := bitsOf (f.word 0x60) 0 17
  let raw := if f.tabEn 4 then (List.range cnt).map fun i => s.streamed f 4 (4 * i) 4 else []
  let (entries, disorder) := defectMap raw
  let mine := entries.filter fun e => e.2.1 == f.sy y
  let hi := bitsOf (f.word 0x64) 0 12
  let lo := bitsOf (f.word 0x64) 12 12
  let m (x y : Int) : Int := rowVal f.lin 0 (replicate p f.width x) (replicate p f.height y)
  let sw := s.getF (F.ING_PORT_GEOM_SENSOR_W port)
  let sh := s.getF (F.ING_PORT_GEOM_SENSOR_H port)
  let out := (List.range f.width).map fun (x : Nat) =>
    let v := m x y
    let r : Int × Nat × Nat := match mine.find? (fun e => e.1 == f.sx x) with
      | some e => (clampS21 (defectFix e.2.2 p m x y), 0, 1)
      | none => if dynHit hi lo (eightNear p m x y) v then (clampS21 (defectFix 0 p m x y), 1, 0) else (v, 0, 0)
    let c := s.siteClass n f x y
    let gain := if f.tabEn 5 then meshGain (fun i j => (f.small 5 (2 * ((j * 129 + i) * 4 + c)) 2 : Nat)) (f.sx x) (f.sy y) sw sh
      else 16384
    (clampS21 (rdiv (r.1 * gain) (2 ^ 14 : Nat)), r.2)
  (out.map (·.1), (out.map (·.2.1)).sum, (out.map (·.2.2)).sum, disorder)

/-- Nodes from one before the first place to two after the last, by their bytes (R191). -/
def State.usesMesh (s : State) (n slot : Nat) (f : BedFrame) (y : Nat) : List Nat :=
  let port := s.getF (F.BED_SENSOR_PORT n slot)
  let w := s.getF (F.ING_PORT_GEOM_SENSOR_W port)
  let h := s.getF (F.ING_PORT_GEOM_SENSOR_H port)
  let i0 := (meshPlace (f.sx 0) 128 w).1 - 1
  let i1 := min 128 ((meshPlace (f.sx (f.width - 1)) 128 w).1 + 2)
  let j := (meshPlace (f.sy y) 64 h).1
  (List.range 4).flatMap fun b => (List.range (i1 + 1 - i0)).map fun i => 8 * (min 64 (j + b - 1) * 129 + i0 + i)

/-- Stages 3 and 4 take line `y`, and stage 5 the mean of its green sites (R194). -/
def State.stage4Line (s : State) (n slot y : Nat) (f : BedFrame) : BedFrame × State :=
  match f.lin.find? (·.1 == y) with
  | none => (f, s)
  | some (_, r) =>
    let a0 := f.a.headD []
    if r.cut then ({ f with a := f.a.set 0 (a0.insert y r) }, s)
    else
      let p := s.cfaPeriod n
      let (v, dyn, fixed, disorder) := s.stage34 n slot f y
      let cnt := bitsOf (f.word 0x60) 0 17
      let rowEntries := (List.range cnt).filter fun i => f.tabEn 4 && bitsOf (s.streamed f 4 (4 * i) 4) 15 14 == f.sy y
      let (bad, f1, s1) := s.noteUses n slot f [(4, rowEntries.map (4 * ·)), (5, s.usesMesh n slot f y)]
      let reads := f.word 0x64 % 2 ^ 24 != 0 || fixed != 0
      let near := reads && [(y : Int) - p, (y : Int) + p].any fun z => (f.lin.at {} (replicate p f.height z)).poison
      let row : BedRow := { vals := [v], poison := r.poison || bad || near }
      let s2 := (s1.addF (F.BED_CNT_COUNT n 3) dyn).addF (F.BED_CNT_COUNT n 4) fixed
      let s3 := s2.when (disorder && !f1.noted.contains 8) (·.bedErr n 4 none)
      let f1 := if disorder && !f1.noted.contains 8 then { f1 with noted := f1.noted ++ [8] } else f1
      let tag : LineTag := match f1.lines.find? (·.1 == y) with | some (_, l) => tagOf l.tag | none => tagOf []
      let green := (v.zipIdx.filter fun (_, x) => let c := s.siteClass n f x y; c == 1 || c == 2).map (·.1)
      let s4 := if tag.pad = 2 ∨ bitsOf (f.word 0x68) 0 5 = 0 ∨ green.isEmpty then s3
        else
          let x := s3.bedSlot n slot
          let mean := rdiv (green.sum * 256) green.length
          s3.setBedSlot n slot { x with flk := match x.flk with
            | h :: t => if h.number = f.number then { h with rows := h.rows ++ [(tag.stamp, mean)] } :: t
              else { number := f.number, rows := [(tag.stamp, mean)] } :: h :: t
            | [] => [{ number := f.number, rows := [(tag.stamp, mean)] }] }
      ({ f1 with a := f1.a.set 0 (a0.insert y row) }, s4)

/-! ## Kernels of a chain (R227 to R245, R252, R253) -/

/-- Members of the group with their columns at a splice point: the stripe, at B cut to the crop (R218, R219). -/
def State.members (s : State) (n : Nat) (f : BedFrame) (atB : Bool) : List (Nat × Nat × Nat) :=
  let (cl, cw) := f.crop false
  (List.range (s.getF (F.BED_CFG_JOIN n))).filterMap fun m =>
    let a := s.getF (F.BED_STRIPE_X0 (n + m))
    let b := min f.width (a + s.getF (F.BED_STRIPE_WIDTH (n + m)))
    let x0 := if atB then max a cl - cl else a
    let x1 := if atB then min b (cl + cw) - cl else b
    if x0 < x1 then some (m, x0, x1) else none

/-- What an engine sees of line `y` of a kernel (R230, R239, R241). -/
def State.peCtx (s : State) (n slot : Nat) (f : BedFrame) (r : KernelRec) (prev : SMap BedRow) (x0 x1 y : Nat) : PeCtx :=
  let atB := r.splice % 2 == 1
  let live := prev.filter fun (_, q) => !q.cut
  { comps := if atB then 3 else 1, x0, x1, x := x0, y, slot, frame := f.number
    width := if atB then f.cropW else f.width, height := if atB then f.cropH else f.height
    share := if r.engines = 0 then 0 else y % r.engines, period := if atB then 1 else s.cfaPeriod n
    rows := live.map fun (k, q) => (k, q.vals), poisoned := (live.filter (·.2.poison)).map (·.1)
    params := (List.range 128).map fun i => (s.rd (R.PE_SPLICE_PARAM r.splice (i / 16) (i % 16))).toNat }

/-- The line cap (R243, R244). -/
def State.lineCap (s : State) (p x0 x1 : Nat) : Nat := s.getF (F.PE_SPLICE_STATUS_BUDGET p) * ((x1 - x0 + 15) / 16)

/-- The engine of a kernel's member and share in one of some states. -/
def State.peOf (s : State) (r : KernelRec) (m k : Nat) (states : List Nat) : Option Nat :=
  s.engineList.find? fun e =>
    states.contains (s.peState e) && s.getF (F.PE_STATUS_SPLICE e) == r.splice && s.getF (F.PE_STATUS_KERNEL e) == r.index
      && s.getF (F.PE_STATUS_MEMBER e) == m && s.getF (F.PE_STATUS_SHARE e) == k

/-- An engine abandons its line at the cap (R244). -/
def State.lineOver (s : State) (e : Nat) : State := (s.flag (F.PE_ERR_LINE_OVER e)).bump (F.PE_CNT_COUNT e 2)

/-- Engines `e` and `t` disagree on a line of the compared frame (R252). -/
def State.peDisagree (s : State) (e : Nat) : State :=
  ((s.flag (F.PE_ERR_DISAGREE e)).bump (F.PE_CNT_COUNT e 4)).concede 5 e 4 2 0x0004
    (s.getF (F.PE_STATUS_SPLICE e) + 256 * 4)

/-- One engine computes a line: the engine's values unless it abandoned the line, and whether it loaded poison. -/
def State.peLine (s : State) (e : Nat) (k : PeCtx) (cap : Nat) : Option (List (List Int)) × Bool × State :=
  let g0 := (s.engine e).runLine k cap
  let g := { g0 with poison := g0.poison || g0.badConst, badConst := false }
  let s1 := (s.setEngine e g).when g.poison (·.bump (F.PE_CNT_COUNT e 3))
  if g.tooLong then (none, g.poison, s1.lineOver e) else (some g.line, g.poison, s1)

/-- A member's part of a line through a kernel: values, bypassed, poisoned. -/
def State.memberLine (s : State) (r : KernelRec) (m : Nat) (k : PeCtx) (part : List (List Int)) :
    List (List Int) × Bool × Bool × State :=
  let cap := s.lineCap r.splice k.x0 k.x1
  match s.peOf r m k.share [2, 3] with
  | none => (part, true, (s.peOf r m k.share [5]).isSome, s)
  | some e =>
    let (l1, p1, s1) := s.peLine e k cap
    match (if s.peState e = 3 then s1.peOf r m k.share [4] else none) with
    | none => match l1 with
      | some l => (l, false, p1, s1)
      | none => (part, true, p1, s1)
    | some t =>
      let (l2, p2, s2) := s1.peLine t k cap
      match l1, l2 with
      | some a, some b => if a = b then (b, false, p1 || p2, s2) else (b, false, true, s2.peDisagree e)
      | _, _ => (part, true, p1 || p2, s2)

/-- Line `y` through one kernel of a chain. -/
def State.kernelLine (s : State) (n slot : Nat) (f : BedFrame) (r : KernelRec) (prev : SMap BedRow) (y : Nat) :
    Option BedRow × State :=
  match prev.find? (·.1 == y) with
  | none => (none, s)
  | some (_, q) =>
    if q.cut then (some q, s)
    else
      let atB := r.splice % 2 == 1
      let mark (b : Bool) (row : BedRow) : BedRow :=
        if atB then { row with bypassB := row.bypassB || b } else { row with bypassA := row.bypassA || b }
      if s.bit (F.PE_SPLICE_STATUS_BYPASS r.splice) then (some (mark true q), s)
      else
        let out := (s.members n f atB).foldl (fun (acc : List (List Int) × Bool × Bool × State) (m, x0, x1) =>
          let k := acc.2.2.2.peCtx n slot f r prev x0 x1 y
          let part := q.vals.map fun c => (c.drop x0).take (x1 - x0)
          let (v, b, p, s') := acc.2.2.2.memberLine r m k part
          ((List.range q.vals.length).map fun c => acc.1.getD c [] ++ v.getD c [], acc.2.1 || b, acc.2.2.1 || p, s'))
          ([], false, false, s)
        (some (mark out.2.1 { q with vals := out.1, poison := q.poison || out.2.2.1 }), out.2.2.2)

/-- Frame entries of the kernels of both splice points (R231). -/
def State.frameEntries (s : State) (n slot : Nat) (f : BedFrame) : State :=
  ((s.chain (2 * n)) ++ (s.chain (2 * n + 1))).foldl (fun s0 r =>
    (s0.members n f (r.splice % 2 == 1)).foldl (fun s1 (m, x0, x1) =>
      (List.range r.engines).foldl (fun s2 k =>
        (s2.engineList.filter fun e =>
          [2, 3, 4].contains (s2.peState e) && s2.getF (F.PE_STATUS_SPLICE e) == r.splice
            && s2.getF (F.PE_STATUS_KERNEL e) == r.index && s2.getF (F.PE_STATUS_MEMBER e) == m
            && s2.getF (F.PE_STATUS_SHARE e) == k).foldl (fun s3 e =>
          let c := { s3.peCtx n slot f r [] x0 x1 0 with share := k }
          s3.setEngine e ((s3.engine e).runFrame c (s3.lineCap r.splice x0 x1))) s2) s1) s0) s

/-! ## Stages 6 to 9 (R197 to R203) -/

/-- Stages 6 to 9 of line `y` of the cropped frame. -/
def State.stage9Line (s : State) (n slot y : Nat) (f : BedFrame) : BedFrame × State :=
  let (cl, cw) := f.crop false
  let (ct, ch) := f.crop true
  let last := f.a.getLastD []
  match last.find? (·.1 == ct + y) with
  | none => (f, s)
  | some (_, q) =>
    let b0 := f.b.headD []
    if q.cut then ({ f with b := f.b.set 0 (b0.insert y q) }, s)
    else
      let p := s.cfaPeriod n
      let d := f.word 0x74
      let k : Mosaic := { w := cw, h := ch, p, tDir := bitsOf d 0 4, tFlat := bitsOf d 4 16, eps := bitsOf d 20 12 }
      let row (r : Nat) : List Int := (((last.at {} (ct + r)).vals.headD []).drop cl).take cw
      let cls (x z : Int) : Nat := s.siteClass n f (cl + x.toNat) (ct + z.toNat)
      let rgb := k.row row cls y
      let cc (i : Nat) : Int := signedOf 24 (f.word (0x80 + 4 * i))
      let px (l : List (List Int)) (x : Nat) : List Int := (List.range 3).map fun c => (l.getD c []).getD x 0
      let lin := (List.range cw).map fun x => colourMatrix cc (px rgb x)
      let shaper := f.word 0x78 % 2 == 1
      let corners := if f.tabEn 6 then lin.map (lutCorners shaper) else []
      let half (o : Nat) : Nat := s.streamed f 6 o 2
      let outp := if f.tabEn 6 then corners.map (lut3d half) else lin
      let (bad, f1, s1) := s.noteUses n slot f [(6, corners.flatMap fun l => l.map fun (i, _) => lutByte i)]
      let inNear := (List.range 19).any fun i =>
        decide (9 ≤ ct + y + i) && ((f.lines.find? (·.1 == ct + y + i - 9)).map (·.2.poison)).getD false
      let vals := (List.range 3).map fun c => outp.map fun v => v.getD c 0
      let poison := bad || inNear || (mosaicRows p ch y).any fun r => (last.at {} (ct + r)).poison
      ({ f1 with b := f1.b.set 0 (b0.insert y { q with vals, poison }) }, s1)

/-! ## The pump: every line whose rows have come (R176) -/

/-- Take lines in order while they are ready. -/
def pumpLoop (h : Nat) (ready : Nat → Bool) (take : Nat → BedFrame → State → BedFrame × State) :
    Nat → Nat → BedFrame → State → Nat × BedFrame × State
  | 0, y, f, s => (y, f, s)
  | fuel + 1, y, f, s =>
    if y < h ∧ ready y then
      let (f1, s1) := take y f s
      pumpLoop h ready take fuel (y + 1) f1 s1
    else (y, f, s)

/-- The last row a window of `d` rows about row `y` reads has passed, of `h` rows. -/
def rowsPassed (h y d next : Nat) : Bool := decide (min (h - 1) (y + d) < next)

/-- Stages 1 and 2 of every line that has come. -/
def State.pumpLin (s : State) (n slot : Nat) (f : BedFrame) : BedFrame × State :=
  let (y, f1, s1) := pumpLoop f.height (fun y => f.ended || (f.lines.find? (·.1 == y)).isSome)
    (fun y g t => t.linLine n slot y g) f.height f.linNext f s
  ({ f1 with linNext := y }, s1)

/-- Stages 3 to 5 of every line whose neighbours have come. -/
def State.pumpA0 (s : State) (n slot : Nat) (f : BedFrame) : BedFrame × State :=
  let (y, f1, s1) := pumpLoop f.height (fun y => rowsPassed f.height y (s.cfaPeriod n) f.linNext)
    (fun y g t => t.stage4Line n slot y g) f.height (f.aNext.headD 0) f s
  ({ f1 with aNext := f1.aNext.set 0 y }, s1)

/-- Kernel `i` of a chain over every line whose window has come; `b` selects splice point B. -/
def State.pumpKernel (s : State) (n slot : Nat) (b : Bool) (i : Nat) (r : KernelRec) (f : BedFrame) : BedFrame × State :=
  let h := if b then f.cropH else f.height
  let prevNext := (if b then f.bNext else f.aNext).getD i 0
  let (y, f1, s1) := pumpLoop h (fun y => rowsPassed h y (r.rows / 2) prevNext)
    (fun y g t =>
      let (row, t1) := t.kernelLine n slot g r ((if b then g.b else g.a).getD i []) y
      match row with
      | some q =>
        (if b then { g with b := g.b.set (i + 1) ((g.b.getD (i + 1) []).insert y q) }
         else { g with a := g.a.set (i + 1) ((g.a.getD (i + 1) []).insert y q) }, t1)
      | none => (g, t1)) h ((if b then f.bNext else f.aNext).getD (i + 1) 0) f s
  (if b then { f1 with bNext := f1.bNext.set (i + 1) y } else { f1 with aNext := f1.aNext.set (i + 1) y }, s1)

/-- Stages 6 to 9 of every line of the cropped frame whose rows have come. -/
def State.pumpB0 (s : State) (n slot : Nat) (f : BedFrame) : BedFrame × State :=
  let (ct, ch) := f.crop true
  let reach := max 9 (demosaicReach (s.cfaPeriod n) + 1)
  let (y, f1, s1) := pumpLoop ch (fun y => rowsPassed f.height (ct + min (ch - 1) (y + reach)) 0 (f.aNext.getLastD 0))
    (fun y g t => t.stage9Line n slot y g) ch (f.bNext.headD 0) f s
  ({ f1 with bNext := f1.bNext.set 0 y }, s1)

/-- Carry a frame as far as its lines allow. -/
def State.pumpFrame (s : State) (n slot : Nat) (f : BedFrame) : BedFrame × State :=
  let (f1, s1) := s.pumpLin n slot f
  let (f2, s2) := s1.pumpA0 n slot f1
  let kernels (b : Bool) (f : BedFrame) (s : State) : BedFrame × State :=
    (s.chain (2 * n + b2n b)).zipIdx.foldl (fun (acc : BedFrame × State) (r, i) => acc.2.pumpKernel n slot b i r acc.1) (f, s)
  let (f3, s3) := kernels false f2 s2
  let (f4, s4) := s3.pumpB0 n slot f3
  kernels true f4 s4

end Sys2Proof.Machine
end

