-- ==== Sys2Proof/Machine/RunnerOps.lean ====
section
/-!
DEFINITION. Runners as shared operations: states and tiers, training blocks, pre-emphasis, substitution, narrowing and
power states (spec/05_runner_lanes.md).
-/

namespace Sys2Proof.Machine

/-! ## The state of a Runner -/

/-- The state of Runner `n` beside its registers. -/
def State.runner (s : State) (n : Nat) : Runner := s.runners.at {} n

/-- Replace the state of Runner `n`. -/
def State.setRunner (s : State) (n : Nat) (x : Runner) : State := { s with runners := s.runners.put {} n x }

/-- RUN[n].STATUS.STATE (R125). -/
def State.runState (s : State) (n : Nat) : Nat := s.getF (F.RUN_STATUS_STATE n)

/-- RUN[n].STATUS.TIER. -/
def State.runTier (s : State) (n : Nat) : Nat := s.getF (F.RUN_STATUS_TIER n)

/-- RUN[n].CTL.ROLE (R55). -/
def State.runRole (s : State) (n : Nat) : Nat := s.getF (F.RUN_CTL_ROLE n)

/-- A Runner of a Nawen role: hedgerow port, raster output or egress link (R125). -/
def State.nawen (s : State) (n : Nat) : Bool :=
  s.up 2 && decide (n < s.variant.runners) && decide (2 ≤ s.runRole n) && decide (s.runRole n ≤ 5)

/-- A Runner in raw sensor mode (R142). -/
def State.rawRunner (s : State) (n : Nat) : Bool := s.up 2 && decide (n < s.variant.runners) && s.runRole n == 1

/-- Vector 420 + n, when MSIX_EN is 1. -/
def State.runVector (s : State) (n : Nat) : State := s.when (s.bit (F.RUN_CTL_MSIX_EN n)) (·.raise (420 + n))

/-- Set a sticky Runner event and raise its vector. -/
def State.runErr (s : State) (n : Nat) (f : Field) : State := (s.flag f).runVector n

/-- Move a Runner to a state; entering or leaving ACTIVE raises its vector. -/
def State.runTo (s : State) (n st : Nat) : State :=
  let was := s.runState n
  let s1 := s.setF (F.RUN_STATUS_STATE n) st
  s1.when ((was == 8) != (st == 8)) (·.runVector n)

/-- MAX_TIER of the Runner roles record (R55). -/
def State.maxTier (s : State) (n : Nat) : Nat := s.recField 0x01 0 1 n 2 1 0

/-- The cap the hedgerow block applies to a hedgerow port (R126, R419); 7 applies none. -/
def State.hedgeCap (s : State) (n : Nat) : Nat :=
  if s.runRole n = 2 ∨ s.runRole n = 3 then s.getF (F.HRW_PORT_STATUS_CAP (s.runRole n - 2)) else 7

/-- The effective cap of a link (R126). -/
def State.tierCap (s : State) (n : Nat) : Nat :=
  if s.bit (F.RUN_CTL_HOLD_T0 n) then 0
  else min (min (s.maxTier n) (s.getF (F.RUN_CTL_TIER_CAP n))) (min (s.runner n).peerMax (s.hedgeCap n))

/-- User data capacity of one Runner with eight lanes, 0.01 Gbit/s, by tier (R116). -/
def userData (t : Nat) : Nat := [1120, 2241, 4481, 6722, 8962].getD t 0

/-- Lanes in a mask. -/
def maskCount (m : Nat) : Nat := ((List.range 9).filter m.testBit).length

/-! ## CRC and control blocks (R121, R122, R138) -/

/-- One byte through the CRC-16 register: polynomial x¹⁶ + x¹² + x⁵ + 1, most significant bit first (R122). -/
def crc16Byte (c : Nat) (b : Byte) : Nat :=
  (List.range 8).foldl (fun c' _ => if c'.testBit 15 then (c' * 2 % 65536) ^^^ 0x1021 else c' * 2 % 65536)
    (c ^^^ (b.toNat * 256))

/-- The CRC-16 of R122, initial value 0xFFFF, no final XOR. -/
def crc16 (l : List Byte) : Nat := l.foldl crc16Byte 0xFFFF

/-- A 16-byte control block whose CRC closes it. -/
def closeBlock (type : Nat) (l : List Byte) : List Byte :=
  let b := BitVec.ofNat 8 type :: padTo 13 l
  b ++ leBytes 2 (crc16 b)

/-- A received control block of a type passes its CRC (R122, R138). -/
def blockOk (type : Nat) (b : List Byte) : Bool :=
  b.length == 16 && byteAt b 0 == type && fieldAt b 14 2 == crc16 (b.take 14)

/-- Send a control block. -/
def State.sendBlock (s : State) (n type : Nat) (l : List Byte) : State :=
  s.emit (.control n type ((closeBlock type l).drop 1))

/-- Send a SPARE block of OP 1 to 3 with its lane, or OP 4 with its mask (R138). -/
def State.sendSpare (s : State) (n op arg : Nat) : State :=
  s.sendBlock n 0x55 (BitVec.ofNat 8 op :: (if op = 4 then leBytes 2 arg else leBytes 1 arg))

/-! ## Pre-emphasis (R124) -/

/-- Pre- and post-cursor of a preset (R124). -/
def preset (p : Nat) : Nat × Nat :=
  [(0, 0), (0, 8), (0, 13), (4, 8), (4, 13), (8, 8), (8, 13), (0, 18)].getD p (0, 0)

/-- Set a transmit lane's cursors; the main cursor is 63 less both. -/
def State.setFir (s : State) (n l pre post : Nat) : State :=
  ((s.setF (F.RUN_FIR_PRE n l) pre).setF (F.RUN_FIR_POST n l) post).setF (F.RUN_FIR_MAIN n l) (63 - pre - post)

/-- One cursor under a request: its value and its status, 0 not updated, 1 updated, 2 at minimum, 3 at maximum. -/
def cursorStep (cmd v top : Nat) : Nat × Nat :=
  match cmd with
  | 1 => if top ≤ v then (v, 3) else (v + 1, 1)
  | 2 => if v = 0 then (v, 2) else (v - 1, 1)
  | _ => (v, 0)

/-- Apply the peer's request for transmit lane `l` (R122, R124): once per request, its status held until the request
changes. -/
def State.applyRequest (s : State) (n l req : Nat) : State :=
  let x := s.runner n
  if x.request.at 0 l = req then s
  else
    let pre := s.getF (F.RUN_FIR_PRE n l)
    let post := s.getF (F.RUN_FIR_POST n l)
    let (pre', post', st) :=
      if req.testBit 4 then ((preset (bitsOf req 5 3)).1, (preset (bitsOf req 5 3)).2, 5)
      else
        let (a, sa) := cursorStep (bitsOf req 0 2) pre 15
        let (b, sb) := cursorStep (bitsOf req 2 2) post 24
        (a, b, sa + 4 * sb)
    (s.setFir n l pre' post').setRunner n
      { x with request := x.request.put 0 l req, status := x.status.put 0 l st }

/-- The starting preset and receive trim of a lane from the calibration store (R124, R502, R504). -/
def State.laneStart (s : State) (n l : Nat) : Nat :=
  let v := s.calField 3 (2 * (10 * n + l)) 2 0
  if v.testBit 3 then bitsOf v 0 3 else 0

/-- Load the starting presets of the nine transmit lanes (R124). -/
def State.firStart (s : State) (n : Nat) : State :=
  (List.range 9).foldl (fun s' l => s'.setFir n l (preset (s.laneStart n l)).1 (preset (s.laneStart n l)).2) s

/-- Store the coefficients reached at the tier in use (R129). -/
def State.saveCoeffs (s : State) (n : Nat) : State :=
  let x := s.runner n
  let t := s.runTier n
  s.setRunner n { x with
    coeffs := (List.range 9).foldl (fun m l => m.put 0#32 (t * 16 + l) (s.rd (R.RUN_FIR n l))) x.coeffs }

/-- Restore the coefficients of a tier (R129). -/
def State.restoreCoeffs (s : State) (n t : Nat) : State :=
  (List.range 9).foldl (fun s' l => s'.wr (R.RUN_FIR n l) ((s.runner n).coeffs.at 0#32 (t * 16 + l))) s

/-! ## Training (R125 to R131) -/

/-- What a training keeps of the Runner's state. -/
def Runner.fresh (x : Runner) : Runner := { peerMax := x.peerMax, waiting := x.waiting, txOff := x.txOff }

/-- Clear the lock and deskew reports of the receive lanes. -/
def State.lanesDown (s : State) (n : Nat) : State := (List.range 10).foldl (fun s' k => s'.wr (R.RUN_LANE n k) 0#32) s

/-- Training starts from T0: the Runner enters DETECT (R125, R139). -/
def State.toDetect (s : State) (n : Nat) : State :=
  let s1 := (((s.runTo n 1).setF (F.RUN_STATUS_TIER n) 0).setF (F.RUN_STATUS_LANES n) 0).setF (F.RUN_STATUS_PSTATE n) 0
  let s2 := (s1.unflag (F.RUN_STATUS_SPARE_TX n)).unflag (F.RUN_CTL_RETRAIN n)
  let s3 := (s2.bump (F.RUN_TRAINS_TRAININGS n)).setRunner n (s.runner n).fresh
  (s3.lanesDown n).firStart n

/-- Training fails at T0 (R125). -/
def State.toFailed (s : State) (n : Nat) : State :=
  ((s.runTo n 9).bump (F.RUN_TRAINS_TRAININGS n)).runErr n (F.RUN_ERR_TRAIN_FAIL n)

/-- Lanes that block sets stripe over: eight, or the good lanes of a narrowed Runner (R120, R137). -/
def State.goodLanes (s : State) (n : Nat) : Nat :=
  let x := s.runner n
  let a := if x.rxMask = 0 then 8 else min 8 (maskCount x.rxMask)
  if x.txMask = 0 then a else min a (maskCount x.txMask)

/-- BROKEN of a Runner's records: 5 for a raster output, 4 for every other role (R131). -/
def State.runBroken (s : State) (n : Nat) : Nat := if s.runRole n = 4 then 5 else 4

/-- A link in ACTIVE carries less than its required tier: TIER_SHORT and the concession record (R131, R137). -/
def State.tierShort (s : State) (n : Nat) : State :=
  let req := s.getF (F.RUN_CTL_REQ_TIER n)
  if userData (s.runTier n) * s.goodLanes n < userData req * 8 then
    (s.runErr n (F.RUN_ERR_TIER_SHORT n)).concede 2 n (s.runBroken n) 2 0x0100 (s.runTier n + 256 * req)
  else s

/-- Enter L1 on the transmit side (R140). -/
def State.l1Enter (s : State) (n : Nat) : State :=
  ((s.sendBlock n 0x66 []).setRunner n { s.runner n with l1Tx := true }).setF (F.RUN_STATUS_PSTATE n) 1

/-- Leave L1 on the transmit side (R140). -/
def State.l1Leave (s : State) (n : Nat) : State :=
  let x := s.runner n
  ((s.sendBlock n 0x78 []).setRunner n { x with l1Tx := false }).setF (F.RUN_STATUS_PSTATE n) (b2n x.l1Rx)

/-- The Runner turns off in L2, keeping its tier, coefficients and deskew (R140, R141). -/
def State.l2Off (s : State) (n : Nat) : State :=
  let x := s.runner n
  let s1 := ((s.runTo n 0).setF (F.RUN_STATUS_PSTATE n) 2).setF (F.RUN_STATUS_LANES n) 0
  s1.setRunner n { x with l2 := true, l2Tier := s.runTier n, l1Tx := false, l1Rx := false, restepTx := false, restepRx := false }

/-- The Runner leaves L2: it relocks from CLOCK at the tier it held (R141). -/
def State.l2Leave (s : State) (n : Nat) : State :=
  let x := s.runner n
  ((s.runTo n 2).setF (F.RUN_STATUS_PSTATE n) 0).setRunner n { x with l2 := false, l2Exit := true }

/-- A PSTATE_REQ takes effect on an ACTIVE Runner, or on one in L2 (R140, R141). -/
def State.pstate (s : State) (n : Nat) : State :=
  let x := s.runner n
  match s.getF (F.RUN_CTL_PSTATE_REQ n) with
  | 0 => if x.l2 then s.l2Leave n else if x.l1Tx then s.l1Leave n else s
  | 1 => if s.runState n = 8 ∧ x.l1Tx = false then s.l1Enter n else s
  | 2 => if s.runState n = 8 then (s.sendBlock n 0x87 []).l2Off n else s
  | _ => s

/-- Send RESTEP: the effective cap of an ACTIVE link rose above the tier in use (R130). -/
def State.sendRestep (s : State) (n : Nat) : State :=
  (s.sendBlock n 0x99 []).setRunner n { s.runner n with restepTx := true }

/-- A link that has both sent and received RESTEP leaves ACTIVE for CHECK at the tier in use (R130). -/
def State.restepGo (s : State) (n : Nat) : State :=
  let x := s.runner n
  if x.restepTx && x.restepRx && s.runState n == 8 then
    (s.runTo n 6).setRunner n { x with
      restepTx := false, restepRx := false, ownPass := false, peerPass := false, reqRx := false, ackRx := false
      stepDown := false, skipEq := false, final := false, floor := some (s.runTier n) }
  else s

/-- The effective cap of a link is compared with its tier (R130, R420): an ACTIVE link above a fallen cap retrains from
T0, one below a risen cap steps up. -/
def State.capChanged (s : State) (n : Nat) : State :=
  if s.runState n = 8 then
    if s.tierCap n < s.runTier n then s.toDetect n
    else if s.runTier n < s.tierCap n ∧ (s.runner n).final = false ∧ (s.runner n).restepTx = false then
      (s.sendRestep n).restepGo n
    else s
  else s

/-- A Runner of a Nawen role enters ACTIVE (R128, R129, R131, R141): the check of the required tier, a waiting power
state, and a step-up when the cap has risen meanwhile. -/
def State.toActive (s : State) (n : Nat) : State :=
  let x := s.runner n
  let s1 := (s.runTo n 8).setRunner n { x with
    ownPass := false, peerPass := false, reqRx := false, ackRx := false, stepDown := false, skipEq := false
    floor := none, l2Exit := false }
  let s2 := s1.setF (F.RUN_STATUS_LANES n) (s1.goodLanes n)
  let s3 := (s2.setB (F.RUN_STATUS_SPARE_RX n) (s.getF (F.RUN_SPARE_RETIRED n) != 0)).tierShort n
  if s3.getF (F.RUN_CTL_PSTATE_REQ n) = 0 then s3.capChanged n else s3.pstate n

/-- Enter CHECK at the tier in use (R125). -/
def State.toCheck (s : State) (n : Nat) : State :=
  (s.saveCoeffs n |>.runTo n 6).setRunner n
    { (s.saveCoeffs n).runner n with ownPass := false, peerPass := false, reqRx := false, ackRx := false }

/-- Both ends have passed CHECK: the link steps up, or enters ACTIVE at the effective cap or at a final tier (R128,
R129). -/
def State.checkPassed (s : State) (n : Nat) : State :=
  let x := s.runner n
  if x.ownPass && x.peerPass then
    if s.runTier n < s.tierCap n ∧ x.final = false then s.runTo n 7 else s.toActive n
  else s

/-- CHECK fails at the tier in use (R125, R129): at T0 training fails; above it both ends fall back one tier, and a
step-up from ACTIVE never below the tier held before (R130). -/
def State.checkFailed (s : State) (n : Nat) : State :=
  let x := s.runner n
  let t := s.runTier n
  if t = 0 ∧ x.floor = none then s.toFailed n
  else if x.floor = some t then
    (s.setRunner n { x with final := true }).toActive n
  else
    let s1 := ((s.runTo n 7).setRunner n { x with stepDown := true, ownPass := false, peerPass := false }).bump
      (F.RUN_TRAINS_FALLBACKS n)
    s1.runErr n (F.RUN_ERR_FALLBACK n)

/-- Both directions have switched at the agreed SEQ (R128, R129): up one tier, or down with the coefficients stored for
the tier below. -/
def State.tierSwitch (s : State) (n : Nat) : State :=
  let x := s.runner n
  let t := s.runTier n
  if x.stepDown then
    let s1 := ((s.runTo n 3).setF (F.RUN_STATUS_TIER n) (t - 1)).restoreCoeffs n (t - 1)
    s1.setRunner n { x with stepDown := false, skipEq := true, final := true, acks := [], doneRx := [], doneTx := [] }
  else
    ((s.runTo n 3).setF (F.RUN_STATUS_TIER n) (t + 1)).setRunner n
      { x with acks := [], doneRx := [], doneTx := [], reqRx := false, ackRx := false, ownPass := false, peerPass := false }

/-- Logical lanes that train: 0 to 8, less one for each retired physical lane (R125, R136). -/
def State.trainLanes (s : State) (n : Nat) : Nat := 9 - min 1 (maskCount (s.getF (F.RUN_SPARE_RETIRED n)))

/-- A training block with a valid CRC (R122, R125, R128): version and cap, acknowledgements, the peer's check, step and
fallback bits, and the pre-emphasis request for the lane. `ownDone` says that the receiver asks no further change on
the lane. -/
def State.trainBlock (s : State) (n : Nat) (b : List Byte) (ownDone : Bool) : State :=
  let b2 := byteAt b 2
  let b3 := byteAt b 3
  let lane := bitsOf b3 0 4
  let s0 := (s.setF (F.RUN_STATUS_VERSION n) (min (byteAt b 1) 0x10)).applyRequest n lane (byteAt b 6)
  let x := s0.runner n
  let same := bitsOf b2 3 3 == s.runTier n
  let x1 := { x with
    peerMax := bitsOf b2 0 3
    acks := x.acks.put 0 lane (if b3.testBit 4 then x.acks.at 0 lane + 1 else 0)
    doneRx := if b3.testBit 7 then x.doneRx.put false lane true else x.doneRx
    doneTx := if ownDone then x.doneTx.put false lane true else x.doneTx
    peerPass := x.peerPass || (same && b2.testBit 6)
    reqRx := x.reqRx || (same && b2.testBit 7)
    ackRx := x.ackRx || (same && b3.testBit 5) }
  let s1 := s0.setRunner n x1
  let lanes := List.range (s.trainLanes n)
  if b3.testBit 6 && same && decide (3 ≤ s.runState n) && decide (s.runState n ≤ 6) then s1.checkFailed n
  else match s.runState n with
  | 4 => if lanes.all fun l => 8 ≤ x1.acks.at 0 l then s1.runTo n 5 else s1
  | 5 => if lanes.all fun l => x1.doneRx.at false l && x1.doneTx.at false l then s1.toCheck n else s1
  | 6 => s1.checkPassed n
  | _ => s1

/-! ## Substitution and narrowing (R134 to R139) -/

/-- The logical lane a physical lane carries: the spare carries SPARE_FOR once it is in service. -/
def State.logicalLane (s : State) (n phys : Nat) : Nat :=
  if phys = 8 then s.getF (F.RUN_STATUS_SPARE_FOR n) else phys

/-- Start to substitute physical lane `phys` (R135). -/
def State.substitute (s : State) (n phys : Nat) (lockLoss : Bool) : State :=
  let lane := s.logicalLane n phys
  (s.setRunner n { s.runner n with subst := some { lane, phys, lockLoss, duplicating := false } }).sendSpare n 1 lane

/-- The receiver takes the lane from the spare and retires the physical lane (R135, R136): `lost` words could not be
corrected before the switch. -/
def State.substituted (s : State) (n : Nat) (x : Substitution) (lost : Nat) : State :=
  let f : Field := ⟨R.RUN_SPARE n, 16 + x.phys, 1⟩
  let s1 := ((s.flag f).runErr n (F.RUN_ERR_SPARE_USED n)).flag F.GLB_SPARE_LANE_LAST
  let s2 := (s1.flag (F.RUN_STATUS_SPARE_RX n)).setF (F.RUN_STATUS_SPARE_FOR n) x.lane
  let s3 := ((s2.event 0x0F01 2 n (x.phys + 256 * x.lane)).event 0x0F08 2 n 1).sendSpare n 3 x.lane
  let s4 := s3.setRunner n { s3.runner n with subst := none }
  if x.lockLoss && lost != 0 then
    ((s4.addF (F.RUN_UNCORR_COUNT n) lost).runErr n (F.RUN_ERR_UNCORR n)).concede 2 n (s.runBroken n) 2 0x0004 x.phys
  else s4

/-- The mask of the lanes still good when physical lane `phys` fails with the spare in service (R137). -/
def State.goodMask (s : State) (n phys : Nat) : Nat :=
  let x := s.runner n
  let base := if x.rxMask = 0 then
      (List.range 9).foldl (fun m k => if (s.getF (F.RUN_SPARE_RETIRED n)).testBit k then m else m + 2 ^ k) 0
    else x.rxMask
  if base.testBit phys then base - 2 ^ phys else base

/-- RUNNER_NARROW at the receiver (R137): the good-lane mask goes to the transmitter. -/
def State.narrowRequest (s : State) (n phys : Nat) : State :=
  let m := s.goodMask n phys
  (s.setRunner n { s.runner n with narrowing := some m }).sendSpare n 4 m

/-- Blocks stripe over the lanes of a mask (R137). -/
def State.narrowed (s : State) (n : Nat) (m : Nat) (rx : Bool) : State :=
  let x := s.runner n
  let s1 := s.setRunner n (if rx then { x with rxMask := m, narrowing := none } else { x with txMask := m })
  let s2 := (s1.setF (F.RUN_STATUS_LANES n) (s1.goodLanes n)).runErr n (F.RUN_ERR_NARROWED n)
  (s2.event 0x0F02 2 n m).tierShort n

/-! ## Raw sensor mode (R142 to R144) -/

/-- Whether a measured rate lies in the band of a tier (R142). -/
def inBand (t mbps : Nat) : Bool :=
  match t with
  | 0 => decide (200 ≤ mbps) && decide (mbps ≤ 1600)
  | 1 => decide (1600 ≤ mbps) && decide (mbps ≤ 3200)
  | 2 => decide (3200 ≤ mbps) && decide (mbps ≤ 6400)
  | _ => false

/-- A raw Runner stops delivering: it leaves ACTIVE for a state, and its matcher loses sync (R144, R153). -/
def State.rawStop (s : State) (n st : Nat) (lanes : List (List (List Nat))) : State :=
  let s1 := ((s.runTo n st).setF (F.RUN_STATUS_TIER n) 0).setF (F.RUN_STATUS_LANES n) 0
  s1.ingRunnerDown n lanes

/-- A raw Runner with a locked clock meets a measured rate (R142, R144): ACTIVE in band, RATE_BAND out of it. -/
def State.rawRate (s : State) (n mbps : Nat) : State :=
  let s0 := s.setF (F.RUN_RAW_RATE_MBPS n) (min mbps 65535)
  if inBand (s.maxTier n) mbps then
    if s.runState n = 8 then s0
    else
      (((s0.runTo n 8).setF (F.RUN_STATUS_TIER n) (s.maxTier n)).setF (F.RUN_STATUS_LANES n)
        (2 ^ s.getF (F.RUN_RAW_LANES n))).ingRunnerUp n
  else
    let s1 := s0.runErr n (F.RUN_ERR_RATE_BAND n)
    if s.runState n = 8 then s1.rawStop n 2 [] else s1

end Sys2Proof.Machine
end

