-- ==== Sys2Proof/Machine/EncOps.lean ====
section
/-!
DEFINITION. Encode contexts as shared operations: records, key requests, frames that wait, shedding, and the conversion of
tap lines (spec/09_encoder.md, R257 to R269, R285).
-/

namespace Sys2Proof

/-- Bytes a coded CTU takes: a free value, since H.265 coding lies outside the spec. -/
opaque Config.ctuSize : Nat → Nat

/-- A coded byte, by item and place: a free value. -/
opaque Config.codedByte : Nat → Nat → Byte

namespace Machine

/-! ## Records and state -/

/-- The key of context `c` of engine `e`. -/
def ctxKey (e c : Nat) : Nat := 8 * e + c

/-- The state of a stream context. -/
def State.stream (s : State) (e c : Nat) : StreamCtx := s.streams.at {} (ctxKey e c)

/-- Replace the state of a stream context. -/
def State.setStream (s : State) (e c : Nat) (x : StreamCtx) : State :=
  { s with streams := s.streams.put {} (ctxKey e c) x }

/-- The encode part of a context. -/
def State.encCtx (s : State) (e c : Nat) : EncCtx := (s.stream e c).enc
def State.setEnc (s : State) (e c : Nat) (x : EncCtx) : State := s.setStream e c { s.stream e c with enc := x }

/-- The byte offset of a context's record (R257). -/
def State.ctxRec (s : State) (e c : Nat) : Option Nat :=
  (recordOffsets s.seed.image 0x08).find? fun r => byteAt s.seed.image r == e && byteAt s.seed.image (r + 1) == c

/-- A field of a context's record; 0 for a context that no record defines. -/
def State.ctxF (s : State) (e c o n : Nat) : Nat :=
  match s.ctxRec e c with
  | some r => fieldAt s.seed.image (r + o) n
  | none => 0

/-- A context is defined, with DIR 0 encode or 1 decode. -/
def State.ctxIs (s : State) (e c dir : Nat) : Bool :=
  s.bit (F.SE_CTX_CFG_VALID e c) && s.getF (F.SE_CTX_CFG_DIR e c) == dir

/-- The cells of a context's mosaic, as (engine, context); the context alone outside a mosaic (R280, R306). -/
def State.cells (s : State) (e c : Nat) : List (Nat × Nat) :=
  let m := s.ctxF e c 46 1
  if m = 0xFF ∨ (s.ctxRec e c).isNone then [(e, c)]
  else
    let img := s.seed.image
    ((recordOffsets img 0x08).filter fun r => byteAt img (r + 46) == m && byteAt img (r + 2) == s.ctxF e c 2 1).map fun r =>
      (byteAt img r, byteAt img (r + 1))

/-- The lead of a context's mosaic: the cell of column 0 and row 0 (R280). -/
def State.leadCell (s : State) (e c : Nat) : Nat × Nat :=
  ((s.cells e c).find? fun (a, b) => s.ctxF a b 47 1 == 0).getD (e, c)

/-- A context event: its flag, and the counter it has; vector 388 + e (R290). -/
def State.seErr (s : State) (e c bit : Nat) (cnt : Option (Nat × Nat)) : State :=
  let s1 := s.flag ⟨R.SE_CTX_ERR e c, bit, 1⟩
  let s2 := match cnt with | some (k, n) => s1.addF (F.SE_CTX_CNT_COUNT e c k) n | none => s1
  s2.when (s2.bit (F.SE_CTL_MSIX_EN e)) (·.raise (388 + e))

/-- A context takes input: its block works and it is not shed. -/
def State.ctxLive (s : State) (e c : Nat) : Bool :=
  s.up 6 && s.bit (F.SE_CTX_CFG_VALID e c) && s.getF (F.SE_CTX_STATUS_STATE e c) != 3

/-! ## Quantities of the rate control (R277) -/

/-- Coded CTU columns and rows. -/
def State.ctuCols (s : State) (e c : Nat) : Nat := (s.ctxF e c 12 2 + 63) / 64
def State.ctuRows (s : State) (e c : Nat) : Nat := (s.ctxF e c 14 2 + 63) / 64

/-- D: bytes per picture period. -/
def State.encD (s : State) (e c : Nat) : Nat := s.ctxF e c 28 4 * 125 * s.ctxF e c 22 2 / s.ctxF e c 20 2

/-- M: the minimum picture size, for `n` CTUs. -/
def minPicture (n : Nat) : Nat := 256 + 48 + 32 + 12 * n
def State.encM (s : State) (e c : Nat) : Nat := minPicture (s.ctuCols e c * s.ctuRows e c)

/-- F for the next picture. -/
def State.encF (s : State) (e c : Nat) : Nat := (s.encCtx e c).vbv.getD (s.ctxF e c 36 4)

/-- F after a picture of `z` bytes. -/
def nextF (vbv f z d : Nat) : Nat := min vbv (f - z + d)

/-! ## Key requests (R269) -/

/-- A key request for a context and every cell of its mosaic: a request of the same type that waits merges with it. -/
def State.keyRequest (s : State) (e c : Nat) (sweep : Bool) : State :=
  if !s.ctxIs e c 0 then s
  else (s.cells e c).foldl (fun (x : State) (a, b) =>
    let f := if sweep then F.SE_CTX_KEY_SWEEP a b else F.SE_CTX_KEY_IDR a b
    if x.bit f then x.bump (F.SE_CTX_CNT_COUNT a b 8) else x.flag f) s

/-- The next picture of a context, and of every cell of its mosaic, is an IDR picture (R264, R265, R281). -/
def State.idrNext (s : State) (e c : Nat) : State :=
  (s.cells e c).foldl (fun (x : State) (a, b) => x.setEnc a b { x.encCtx a b with idrNext := true }) s

/-! ## Frames in plots (R266) -/

/-- The bed whose developed tap feeds a context (R257). -/
def State.encBed (s : State) (e c : Nat) : Option Nat :=
  (List.range 16).find? fun n =>
    s.getF (F.BED_TAP_DEST n 1) == s.getF (F.SE_CTX_CFG_INPUT e c) && s.getF (F.BED_TAP_TARGET n 1) == s.ctxF e c 8 2

/-- A context drops a frame that it has not started (R266, R277). -/
def State.encDrop (s : State) (e c frame : Nat) : State :=
  let x := s.encCtx e c
  let f := nextF (s.ctxF e c 32 4) (s.encF e c) 0 (s.encD e c)
  let s1 := s.setEnc e c { x with ready := x.ready.filter (·.1 != frame), vbv := some f }
  (s1.setF (F.SE_CTX_VBV_FULLNESS e c) f).seErr e c 6 (some (6, 1))

/-- Encode contexts of a plot. -/
def State.plotContexts (s : State) (plot : Nat) : List (Nat × Nat) :=
  ((List.range 16).flatMap fun e => (List.range 8).map fun c => (e, c)).filter fun (e, c) =>
    s.ctxIs e c 0 && s.getF (F.SE_CTX_CFG_INPUT e c) == 2 && s.ctxF e c 8 2 == plot

/-- The bed has written the last line of a frame of slot 0 into a developed tap plot of `slots` frame slots: the frame
waits for its contexts, and the frame that it would overwrite next is dropped if it has not started (R266). -/
def State.encFrameDone (s : State) (plot frame stamp slots : Nat) : State :=
  (s.plotContexts plot).foldl (fun (x : State) (e, c) =>
    if !x.ctxLive e c then x
    else
      let y := x.encCtx e c
      let x1 := x.setEnc e c { y with ready := y.ready ++ [(frame, stamp)] }
      let old := (frame + 2 ^ 24 + 1 - slots) % 2 ^ 24
      if (y.ready.map (·.1)).contains old then
        if (x.leadCell e c) = (e, c) then (x.cells e c).foldl (fun (z : State) (a, b) => z.encDrop a b old) x1 else x1
      else x1) s

/-! ## Shedding (R285) -/

/-- CONTEXT_SHED: the highest-numbered live encode context of an engine, and every cell of its mosaic, is to end at its
next picture boundary; the context shed, if there is one. A decode context ends the same way (R308). -/
def State.contextShed (s : State) (e : Nat) : State × Option Nat :=
  let live := (List.range 8).filter fun c =>
    s.ctxLive e c && !(s.encCtx e c).shedDue && !(s.stream e c).dec.shedDue
  let enc := live.filter fun c => s.ctxIs e c 0
  match (if enc.isEmpty then live else enc).getLast? with
  | none => (s, none)
  | some c =>
    if s.ctxIs e c 0 then
      ((s.cells e c).foldl (fun (x : State) (a, b) => x.setEnc a b { x.encCtx a b with shedDue := true }) s, some c)
    else (s.setStream e c { s.stream e c with dec := { (s.stream e c).dec with shedDue := true } }, some c)

/-- A context is shed: it reads no further input. -/
def State.shedNow (s : State) (e c : Nat) : State :=
  ((s.setEnc e c { s.encCtx e c with shedDue := false, pic := none, inbox := [], ready := [] }).setF
    (F.SE_CTX_STATUS_STATE e c) 3).seErr e c 7 none

/-- A shed context starts again when its thermal step is reversed: with an IDR picture and VBV_INIT (R285). -/
def State.shedReverse (s : State) (e c : Nat) : State :=
  (s.cells e c).foldl (fun (x : State) (a, b) =>
    ((x.setEnc a b { x.encCtx a b with shedDue := false, idrNext := true, vbv := none, sweep := none }).setF
      (F.SE_CTX_STATUS_STATE a b) 0).setF (F.SE_CTX_VBV_FULLNESS a b) (x.ctxF a b 36 4)) s

/-! ## Tap lines and their conversion (R263, R264) -/

/-- Bits of a code by the DEPTH of FORMAT. -/
def formatBits (fmt : Nat) : Nat := [10, 12, 16, 16].getD (bitsOf fmt 3 2) 16

/-- Codes of packed components of `b` bits. -/
def unpackCodes (packed : Bool) (b n : Nat) (l : List Byte) : List Nat :=
  if packed then unpackSites b n l else (List.range n).map fun i => fieldAt l (2 * i) 2

/-- A developed or proxy line item as a line (R209, R210). -/
def encLineOf (b : List Byte) (poison : Bool) : EncLine :=
  let t := tagOf b
  let fmt := byteAt b 18
  let fl := byteAt b 19
  let w := fieldAt b 20 2
  let layout := bitsOf fmt 5 2
  let n := if layout = 2 then 2 * w else 3 * w
  let v := unpackCodes (fl.testBit 5) (formatBits fmt) n (b.drop 32)
  let at' (i : Nat) : Nat := v.getD i 0
  let comps : List (List Nat) :=
    if layout = 2 then
      [(List.range w).map fun x => at' (4 * (x / 2) + (if x % 2 = 0 then 1 else 3)), (List.range ((w + 1) / 2)).map fun x => at' (4 * x),
       (List.range ((w + 1) / 2)).map fun x => at' (4 * x + 2)]
    else (List.range 3).map fun c => (List.range w).map fun x => at' (3 * x + c)
  { frame := t.frame, line := t.line, last := t.last, poison := poison || t.poisoned || fl.testBit 3, stamp := t.stamp
    format := fmt, flags := fl, width := w, height := fieldAt b 22 2, comps }

/-- A tap format can be converted to a profile (R263). -/
def canConvert (fmt profile : Nat) : Bool :=
  let layout := bitsOf fmt 5 2
  bitsOf fmt 0 3 != 0 && decide (bitsOf fmt 3 2 < 2) &&
    (match profile with
     | 1 | 2 | 3 | 4 => layout == 1 || layout == 2
     | _ => layout == 0 || layout == 1)

/-- Bit depth of a profile (R260). -/
def profileBits (profile : Nat) : Nat := if profile = 1 ∨ profile = 3 then 10 else 12

/-- A sample of the tap's depth at the profile's depth (R263). -/
def convertDepth (fmt profile v : Nat) : Nat :=
  match formatBits fmt, profileBits profile with
  | 10, 12 => v * 4
  | 12, 10 => min 1023 (rdiv v 4).toNat
  | _, _ => v

/-- Horizontal decimation of chroma (R263). -/
def decimateH (l : List Nat) : List Nat :=
  let at' (x : Int) : Int := ((l.getD (clampInt 0 ((l.length : Int) - 1) x).toNat 0 : Nat) : Int)
  (List.range ((l.length + 1) / 2)).map fun (i : Nat) =>
    let x : Int := 2 * (i : Int)
    (rdiv (at' (x - 1) + 2 * at' x + at' (x + 1)) 4).toNat

/-- Columns of a component from `x`, `w` of them, with the right edge replicated (R264). -/
def takeCols (l : List Nat) (x w : Nat) : List Nat := (List.range w).map fun i => l.getD (min (x + i) (l.length - 1)) 0

/-- A source row as the coded planes hold it before vertical decimation: columns taken, chroma decimated across, depth
converted; R'G'B' as G, B, R (R263). -/
def convertRow (fmt profile x w : Nat) (comps : List (List Nat)) : List (List Nat) :=
  let layout := bitsOf fmt 5 2
  let c (i : Nat) : List Nat := comps.getD i []
  let depth (l : List Nat) : List Nat := l.map (convertDepth fmt profile)
  if layout = 0 then [depth (takeCols (c 1) x w), depth (takeCols (c 2) x w), depth (takeCols (c 0) x w)]
  else
    let chroma (i : Nat) : List Nat :=
      if layout = 2 then takeCols (c i) (x / 2) (w / 2)
      else
        let full := takeCols (c i) x w
        if profile = 5 then full else decimateH full
    [depth (takeCols (c 0) x w), depth (chroma 1), depth (chroma 2)]

/-- Vertical decimation of chroma rows (R263). -/
def decimateV (rows : List (List Nat)) : List (List Nat) :=
  (List.range (rows.length / 2)).map fun j =>
    let a := rows.getD (2 * j) []
    let b := rows.getD (2 * j + 1) []
    (List.range a.length).map fun i => (rdiv ((a.getD i 0 + b.getD i 0 : Nat) : Int) 2).toNat

/-- Coded rows of one CTU row as planes: the luma rows, and the chroma rows of the profile's format. -/
def convertRows (profile : Nat) (rows : List (List (List Nat))) : List (List (List Nat)) :=
  let plane (i : Nat) : List (List Nat) := rows.map fun r => r.getD i []
  if profile ≤ 2 then [plane 0, decimateV (plane 1), decimateV (plane 2)] else [plane 0, plane 1, plane 2]

end Machine

end Sys2Proof
end

