-- ==== Sys2Proof/Machine/Merger.lean ====
section
/-!
DEFINITION. The espalier mergers and the egress links' distribution (spec/06_sensor_ingest.md, R168 to R173).
-/

namespace Sys2Proof.Machine

/-- The state of merger `m` beside its registers. -/
def State.merger (s : State) (m : Nat) : Merger := s.ingest.mergers.at {} m

/-- Replace the state of merger `m`. -/
def State.setMerger (s : State) (m : Nat) (x : Merger) : State :=
  { s with ingest := { s.ingest with mergers := s.ingest.mergers.put {} m x } }

/-- The Runners of egress group `g` by BOND_INDEX (R56, R173). -/
def State.egressRunners (s : State) (g : Nat) : List Nat :=
  let img := s.seed.image
  let rs := (recordOffsets img 0x01).filter fun r => byteAt img (r + 1) == 5 && byteAt img (r + 3) == g
  (List.range 4).filterMap fun i => (rs.find? fun r => byteAt img (r + 4) == i).map fun r => byteAt img r

/-- The egress trug of Runner `r`: consumer block 2, instance r (R173). -/
def State.egressTrug (s : State) (r : Nat) : Option Nat :=
  let img := s.seed.image
  ((recordOffsets img 0x05).find? fun o =>
    byteAt img (o + 8) == 3 && byteAt img (o + 10) == 2 && byteAt img (o + 11) == r).map fun o => fieldAt img o 2

/-- Merger `m` raises its vector when MSIX_EN is 1 (R175): 404 + m below 16, else that of the lowest Runner of its
egress group. -/
def State.mrgVector (s : State) (m : Nat) : State :=
  s.when (s.bit (F.ING_MRG_CTL_MSIX_EN m)) fun x =>
    if m < 16 then x.raise (404 + m)
    else match (x.egressRunners (m - 16)).min? with
      | some r => x.raise (420 + r)
      | none => x

/-- A merger event: its sticky flag, its counter and the vector; POISONED, bit 4, has no counter. -/
def State.mrgFlag (s : State) (m k : Nat) : State :=
  let s1 := s.flag ⟨R.ING_MRG_ERR m, k, 1⟩
  (if k < 4 then s1.bump (F.ING_MRG_CNT_COUNT m k) else s1).mrgVector m

/-- Whether the items of two tags belong to one band (R165). -/
def sameBand (a b : LineTag) : Bool := a.frame == b.frame && a.line / 16 == b.line / 16 && b.pad != 3

/-- The items at the head of a ring that form a unit, of a band or of one line (R169): whole items, up to the line that
ends its band. A band that a reset of ingest left unfinished ends where an item of another band follows it. -/
def unitItems (bed : Bool) : Nat → List TrugWord → Option (List (List TrugWord) × List TrugWord)
  | 0, _ => none
  | fuel + 1, ring =>
    match headItem ring with
    | none => none
    | some (ws, rest) =>
      let t := tagOf (ws.flatMap TrugWord.valid)
      if t.pad = 3 ∨ bed = false ∨ t.line % 16 = 15 ∨ t.last = true then some ([ws], rest)
      else
        match headItem rest with
        | none => none
        | some (next, _) =>
          if sameBand t (tagOf (next.flatMap TrugWord.valid)) then
            (unitItems bed fuel rest).map fun (l, r) => (ws :: l, r)
          else some ([ws], rest)

/-- The ready unit at the head of input trug `t` of merger `m`: its items as stored. -/
def State.headUnit (s : State) (m t : Nat) : Option (List (List TrugWord)) :=
  (unitItems (decide (m < 16)) 16 (s.trug t).ring).map (·.1)

/-- The tag a unit is ordered by (R169). -/
def unitTag (u : List (List TrugWord)) : LineTag := tagOf ((u.headD []).flatMap TrugWord.valid)

/-- The inputs of merger `m`: input trugs with their ports, by rising port (R168). -/
def State.mrgInputs (s : State) (m : Nat) : List (Nat × Nat) :=
  let img := s.seed.image
  let l := (recordOffsets img 0x05).filterMap fun r =>
    if byteAt img (r + 8) = 3 ∧ byteAt img (r + 10) = 3 ∧ byteAt img (r + 11) = m
        ∧ (s.getF (F.ING_MRG_INPUTS_PORTS m)).testBit (byteAt img (r + 9)) then
      some (byteAt img (r + 9), fieldAt img r 2) else none
  sortBy (fun a b => decide (a.1 ≤ b.1)) l

/-- The earlier of two short stamps (R82). -/
def earlier (a b : Nat) : Nat := if stampLater 48 a b then b else a

/-- The horizon of an input (R170): the earliest of the open band's or line's stamp, the pending marker's stamp and
corrected time less STAMP_ADJ. -/
def State.horizon (s : State) (bed : Bool) (p t : Nat) : Nat :=
  let now := s.captureStamp p
  let b := s.band t
  let h1 := match (if bed then b.openStamp else none) with | some x => earlier x now | none => now
  let h2 := match (s.ingPort p).lines.head? with | some l => earlier l.stamp h1 | none => h1
  match b.run with
  | some r => earlier (tagOf r.tag).stamp h2
  | none => h2

/-- The candidate among ready heads: the earliest stamp, on equal stamps the lower port (R170). The inputs come by
rising port. -/
def candidate : List (Nat × Nat × List (List TrugWord)) → Option (Nat × Nat × List (List TrugWord))
  | [] => none
  | x :: r => match candidate r with
    | none => some x
    | some y => if stampLater 48 (unitTag x.2.2).stamp (unitTag y.2.2).stamp then some y else some x

/-- The ready heads of merger `m`: port, trug and unit. -/
def State.readyHeads (s : State) (m : Nat) : List (Nat × Nat × List (List TrugWord)) :=
  (s.mrgInputs m).filterMap fun (p, t) => (s.headUnit m t).map fun u => (p, t, u)

/-- A unit is late when its stamp is earlier than that of the last unit emitted (R171). -/
def State.unitLate (s : State) (m : Nat) (u : List (List TrugWord)) : Bool :=
  match (s.merger m).last with
  | some l => stampLater 48 l (unitTag u).stamp
  | none => false

/-- Some input without a ready head could still give an earlier unit (R170). -/
def State.mustWait (s : State) (m : Nat) (stamp : Nat) : Bool :=
  (s.mrgInputs m).any fun (p, t) => (s.headUnit m t).isNone && stampLater 48 stamp (s.horizon (decide (m < 16)) p t)

/-- Read `n` words of trug `t`; the errors name words by their place in the unit (R111, R112). -/
def State.readUnit (s : State) (t : Nat) (errs : List WordErr) (i : Nat) : Nat → List TrugWord × State
  | 0 => ([], s)
  | n + 1 =>
    let e := errs.find? fun e => e.word == i
    let (w, s1) := s.trugTake t ((e.map (·.errs)).getD []) ((e.map (·.tagErrs)).getD 0)
    let (ws, s2) := State.readUnit s1 t errs (i + 1) n
    ((match w with | some x => x :: ws | none => ws), s2)

/-- Set a bit of the tag in the first word of an item, unless that word is poisoned (R171, R172). -/
def setTagBit (k : Nat) : List TrugWord → List TrugWord
  | [] => []
  | w :: r =>
    if w.tag.getLsbD 7 then w :: r
    else { w with data := w.data.set (k / 8) ((w.data.getD (k / 8) 0#8) ||| (1#8 <<< (k % 8))) } :: r

/-- Cut a list of words as read into items of the lengths stored. -/
def cutItems : List Nat → List TrugWord → List (List TrugWord)
  | [], _ => []
  | n :: r, l => l.take n :: cutItems r (l.drop n)

/-- Write an item's words, tags and all, into a trug with room for them. -/
def State.trugWords (s : State) (t : Nat) (ws : List TrugWord) : State :=
  s.setTrug t { s.trug t with ring := (s.trug t).ring ++ ws }

/-- An egress merger writes a unit whole to the next egress trug of its group that has room, or drops it (R173). -/
def State.distribute (s : State) (m : Nat) (ws : List TrugWord) : State :=
  let ts := (s.egressRunners (m - 16)).map s.egressTrug
  let n := ts.length
  let turn := (s.merger m).turn
  let order := (List.range n).map fun i => (turn + i) % n
  let room (i : Nat) : Option Nat := match ts.getD i none with
    | some t => if decide (0 < s.trugDepth t) && decide (ws.length ≤ s.trugRoom t) then some t else none
    | none => none
  match order.find? fun i => (room i).isSome with
  | some i => match room i with
    | some t => (s.trugWords t ws).setMerger m { s.merger m with turn := (i + 1) % n }
    | none => s
  | none => s.mrgFlag m 3

/-- Merger `m` emits a unit (R169 to R173): it reads the words, discards the unit when its first tag cannot be read,
and otherwise passes it on with LATE and POISONED set in its tags. -/
def State.emitUnit (s : State) (m p t : Nat) (u : List (List TrugWord)) (late window : Bool) (errs : List WordErr) :
    State :=
  let tag := unitTag u
  let (ws, s1) := s.readUnit t errs 0 (u.map List.length).sum
  let poison := ws.any (·.tag.getLsbD 7)
  let s2 := s1.when window (·.mrgFlag m 1)
  let s3 := s2.when poison (·.mrgFlag m 4)
  if (ws.head?.map (·.tag.getLsbD 7)).getD true then s3.ingFlag p 6
  else
    let items := (cutItems (u.map List.length) ws).map fun it =>
      let it1 := if it.any (·.tag.getLsbD 7) then setTagBit 121 it else it
      if late then setTagBit 116 it1 else it1
    let s4 := s3.when late (·.mrgFlag m 0)
    let s5 := s4.when (tag.pad == 3) (·.mrgFlag m 2)
    let s6 := s5.setMerger m { s5.merger m with last := some tag.stamp }
    if m < 16 then s6.setMerger m { s6.merger m with out := some { port := p, marker := tag.pad == 3, lines := items } }
    else s6.distribute m items.flatten

/-- Bring ING_MRG[m].STATUS up to date. -/
def State.mrgStatus (s : State) (m : Nat) : State :=
  let heads := s.readyHeads m
  let waits := match candidate heads with
    | some (_, _, u) => !s.unitLate m u && s.mustWait m (unitTag u).stamp
    | none => false
  (s.setF (F.ING_MRG_STATUS_READY m) heads.length).setB (F.ING_MRG_STATUS_WAITING m) waits

/-- Bring the STATUS of every merger up to date, after what a port did. -/
def State.mrgRefresh (s : State) : State :=
  if s.up 3 then (List.range 32).foldl (fun x m => if (s.mrgInputs m).isEmpty then x else x.mrgStatus m) s else s

/-- Emit the candidate of merger `m`, if there is one and its bed is ready to take it; `window` says that the 2 ms of
R170 have run out. -/
def State.mergerRun (s : State) (m : Nat) (window : Bool) (errs : List WordErr) : State :=
  if !s.up 3 || !InstKind.merger.present s.variant m || (s.merger m).out.isSome then s
  else match candidate (s.readyHeads m) with
    | none => s.mrgStatus m
    | some (p, t, u) =>
      let late := s.unitLate m u
      let wait := !late && s.mustWait m (unitTag u).stamp
      if wait && !window then s.mrgStatus m
      else ((s.emitUnit m p t u late (wait && window) errs).mrgStatus m).portStatus p

/-- MERGER_EMIT (R170, R171, R173). -/
def execMergerEmit (m : Nat) (errs : List WordErr) (s : State) : Host.Outcome State Fault Refusal :=
  .next (s.mergerRun m false errs)

/-- MERGER_WINDOW_EXPIRE (R170): the candidate has been ready for 2 ms and is emitted whatever the horizons. -/
def execMergerWindowExpire (m : Nat) (errs : List WordErr) (s : State) : Host.Outcome State Fault Refusal :=
  .next (s.mergerRun m true errs)

end Sys2Proof.Machine
end

