-- ==== Sys2Proof/Machine/BedRun.lean ====
section
/-!
DEFINITION. Beds in operation: units taken from the merger, frame boundaries, the reports at a frame's end, the lines
given to the taps, and the checks of slot page writes (spec/07_raw_pipeline.md, R176 to R223).
-/

namespace Sys2Proof.Machine

/-! ## The end of a frame (R188, R194 to R196) -/

/-- Black levels of the frame after `f` (R188): tracking moves each class towards its mean; a frame with OB rows missing
leaves them unchanged. -/
def BedFrame.nextBlack (f : BedFrame) : List Int :=
  let ob := f.word 0x5C
  let rows := bitsOf ob 14 8
  if rows = 0 ∨ f.obRows ≠ rows then f.black
  else (List.range 4).map fun c =>
    let b := f.black.getD c 0
    let k := f.obCnt.getD c 0
    if k = 0 then b else clampL20 (b + rdiv (rdiv (f.obSum.getD c 0) k - b) (2 ^ bitsOf ob 22 4 : Nat))

/-- The trug that takes flicker records (R179). -/
def State.flkTrug (s : State) (n : Nat) : Nat := s.recField 0x03 0 1 n 20 2 0xFFFF

/-- The flicker report of frame `f` (R194 to R196). -/
def State.flkReport (s : State) (n slot : Nat) (f : BedFrame) : State :=
  let frames := bitsOf (f.word 0x68) 0 5
  let hist := (s.bedSlot n slot).flk
  match hist with
  | [] => s
  | h :: _ =>
    if frames = 0 ∨ h.number ≠ f.number then s
    else
      let t0 := (h.rows.headD (0, 0)).1
      let rows := ((hist.take frames).flatMap (·.rows)).map fun (t, v) => (stampDiff 48 t t0, v)
      let (peaks, bins) := flkPeaks rows (bitsOf (f.word 0x68) 5 16) s.free
      let mean := max 0 (rdiv (rows.map (·.2)).sum ((rows.length : Int) * 16))
      let s1 := (s.freed.setBedSlot n slot { s.bedSlot n slot with flk := hist.take 16 })
      let pk (k : Nat) : FlkPeak := peaks.getD k { freq := 0, amp := 0, phase := 0 }
      let s2 := (List.range 3).foldl (fun (x : State) k =>
        ((x.setF (F.BED_FLK_RPT_FREQ n slot k) (pk k).freq).setF (F.BED_FLK_RPT_AMP n slot k) (pk k).amp).setF
          (F.BED_FLK_RPT_PHASE n slot k) (pk k).phase) s1
      let s3 := (s2.setF (F.BED_FLK_FRAME_FRAME n slot) f.number).setF (F.BED_FLK_FRAME_COUNT n slot) peaks.length
      let item := leBytes 6 t0 ++ leBytes 1 (s.getF (F.BED_SENSOR_PORT n slot)) ++ leBytes 1 n ++ leBytes 3 f.number
        ++ leBytes 1 peaks.length ++ leBytes 2 bins ++ leBytes 2 (min 65535 h.rows.length) ++ leBytes 4 mean.toNat
        ++ (List.range 3).flatMap fun k => leBytes 4 (pk k).freq ++ leBytes 2 (pk k).amp ++ leBytes 2 (pk k).phase
      s3.trugItem (s.flkTrug n) (padTo 64 item)

/-- The last frame of a slot. -/
def BedSlot.current (x : BedSlot) : Option BedFrame := x.frames.getLast?

/-- Put a frame back as the slot's last. -/
def BedSlot.putLast (x : BedSlot) (f : BedFrame) : BedSlot := { x with frames := x.frames.dropLast ++ [f] }

/-- The slot's frame ends: every line that can be formed is formed, and the reports are made. -/
def State.endBedFrame (s : State) (n slot : Nat) : State :=
  match (s.bedSlot n slot).current with
  | none => s
  | some f =>
    if f.ended then s
    else
      let (f1, s1) := s.pumpFrame n slot { f with ended := true }
      let x := s1.bedSlot n slot
      let s2 := s1.setBedSlot n slot { x.putLast f1 with black := some f1.nextBlack }
      s2.flkReport n slot f1

/-! ## Frame boundaries (R215 to R217) -/

/-- Pointer index of an offset of a slot page, if it is a pointer's word. -/
def ptrIndex (n k off : Nat) : Option Nat :=
  let b := R.BED_LIN_PTR n k
  if b ≤ off ∧ off < b + 64 then some ((off - b) / 8) else none

/-- Writes that apply at a boundary: all that wait, unless HOLD is 1; a pointer whose small table is still being copied
applies a frame late (R185, R215, R216). -/
def State.applySlot (s : State) (n k : Nat) : State :=
  if s.bit (F.BED_SHADOW_HOLD n k) then s
  else
    let x := s.bedSlot n k
    let mine := s.staged.filter fun w => inSlot n k w.1
    let late (w : Nat × Word) : Bool := match ptrIndex n k w.1 with | some i => x.copying.contains i | none => false
    let go := (mine.filter fun w => !late w).map (·.1)
    let lateN := ((mine.filter late).filterMap fun w => ptrIndex n k w.1).eraseDups.length
    let s1 := (s.applyStaged go).copyToMembers n (go.filter fun o => decide (o < R.PE_SPLICE_PARAM 0 0 0))
    let ptrs := (go.filterMap (ptrIndex n k)).eraseDups
    let x1 := { x with
      chip := ptrs.foldl (fun m i => if smallTable i then m.put {} i (x.copied.at {} i) else m) x.chip
      copied := ptrs.foldl (fun m i => m.put {} i {}) x.copied
      black := if (List.range 4).any fun c => go.contains (R.BED_BLACK n k c) then none else x.black }
    let s2 := (s1.setBedSlot n k x1).bedPending n k
    (List.range lateN).foldl (fun s' _ => s'.bedErr n 3 (some 5)) s2

/-- The window of a frame of a port (R160). -/
def State.frameGeom (s : State) (p number : Nat) : FrameGeom :=
  match (s.ingPort p).geoms.find? (·.number == number) with
  | some g => g
  | none =>
    let l := s.getF (F.ING_PORT_PRUNE_H_LEFT p)
    let t := s.getF (F.ING_PORT_PRUNE_V_TOP p)
    { number, left := 8 * l, top := 2 * t
      width := s.getF (F.ING_PORT_GEOM_SENSOR_W p) - 8 * (l + s.getF (F.ING_PORT_PRUNE_H_RIGHT p))
      height := s.getF (F.ING_PORT_GEOM_SENSOR_H p) - 2 * (t + s.getF (F.ING_PORT_PRUNE_V_BOTTOM p)) }

/-- A frame boundary of slot `k` (R215): the frame before ends, engines that move are served, waiting writes apply, and
the new frame begins with its black levels and its frame entries; Twine source 112 + n fires (R451). `seek` deals with an engine that seeks a target. -/
def State.bedBoundary (s : State) (seek : State → Nat → State) (n k number : Nat) : State :=
  let s1 := (s.endBedFrame n k).peBoundary n
  let s2 := (s1.peSeeking n).foldl seek s1
  let s3 := s2.applySlot n k
  let p := s3.getF (F.BED_SENSOR_PORT n k)
  let g := s3.frameGeom p number
  let x := s3.bedSlot n k
  let regs : List Int := (List.range 4).map fun c => ((s3.getF (F.BED_BLACK_LEVEL n k c) : Nat) : Int)
  let black := if s3.getF (F.BED_OB_OB_ROWS n k) = 0 then regs else x.black.getD regs
  let s4 := (List.range 4).foldl (fun (y : State) c => y.setF (F.BED_OB_MEAS_BLACK_EFF n k c) (black.getD c 0).toNat) s3
  let f : BedFrame :=
    { number, left := g.left, top := g.top, width := g.width, height := g.height, page := s4.slotPage n k, tables := x.chip
      black, rawOff := s4.bit (F.BED_STATUS_RAW_OFF n), proxyOff := s4.bit (F.BED_STATUS_PROXY_OFF n)
      a := List.replicate ((s4.chain (2 * n)).length + 1) [], b := List.replicate ((s4.chain (2 * n + 1)).length + 1) []
      aNext := List.replicate ((s4.chain (2 * n)).length + 1) 0
      bNext := List.replicate ((s4.chain (2 * n + 1)).length + 1) 0 }
  ((s4.setBedSlot n k { x with frames := x.frames ++ [f], black := some black }).fireSource (112 + n)).frameEntries n k f

/-! ## Units (R166, R169, R176) -/

/-- Lines of a run of cut lines, from a frame and a line on, as (frame, line) (R166). -/
def State.cutLines (s : State) (p : Nat) : Nat → Nat → Nat → List (Nat × Nat)
  | 0, _, _ => []
  | n + 1, f, l =>
    (f, l) :: (if l + 1 < (s.frameGeom p f).height then State.cutLines s p n f (l + 1)
      else State.cutLines s p n ((f + 1) % 2 ^ 24) 0)

/-- The lines of a unit: frame, line, and the line. A later line whose tag cannot be read takes its frame from the unit
and its number from its place in the band; the rest of its tag stands as it was delivered (R172). -/
def State.unitLines (s : State) (u : IngUnit) : List (Nat × Nat × BedLine) :=
  let bpp := s.getF (F.ING_PORT_CFG_BPP u.port)
  if u.marker then
    let b := (u.lines.headD []).flatMap TrugWord.valid
    let t := tagOf b
    (s.cutLines u.port (fieldAt b 21 4) t.frame t.line).map fun (f, l) =>
      (f, l, { tag := { t with frame := f, line := l }.bytes, cut := true })
  else u.lines.zipIdx.map fun (ws, i) =>
    let b := ws.flatMap TrugWord.valid
    let first := unitTag u.lines
    let place := (first.line + i) % 2 ^ 15
    let lost := (ws.head?.map (·.tag.getLsbD 7)).getD true
    let t := if lost then { tagOf b with frame := first.frame, line := place } else tagOf b
    (t.frame, t.line,
      { tag := t.bytes, sites := unpackSites bpp (s.frameGeom u.port t.frame).width (b.drop 16)
        poison := t.poisoned || ws.any (·.tag.getLsbD 7) })

/-- A line enters its frame: a new frame number is a frame boundary; a late line of a frame that has ended is dropped
(R171, R215). -/
def State.bedLine (s : State) (seek : State → Nat → State) (n k : Nat) (l : Nat × Nat × BedLine) : State :=
  let put (s : State) : State :=
    match (s.bedSlot n k).current with
    | some f => s.setBedSlot n k ((s.bedSlot n k).putLast { f with lines := f.lines.insert l.2.1 l.2.2 })
    | none => s
  match (s.bedSlot n k).current with
  | some f =>
    if f.number = l.1 then put s
    else if (tagOf l.2.2.tag).late ∧ (f.number + 2 ^ 24 - l.1) % 2 ^ 24 < 2 ^ 23 then s
    else put (s.bedBoundary seek n k l.1)
  | none => put (s.bedBoundary seek n k l.1)

/-- The clock step that is due takes effect at a unit boundary on every member of the group (R221). -/
def State.clockStep (s : State) (n : Nat) : State :=
  match (s.bed n).stepDue with
  | none => s
  | some c =>
    let s1 := s.setBed n { s.bed n with stepDue := none }
    (List.range (s.getF (F.BED_CFG_JOIN n))).foldl (fun (x : State) m =>
      if x.getF (F.BED_STATUS_CLOCK_STEP (n + m)) = c then x
      else (x.setF (F.BED_STATUS_CLOCK_STEP (n + m)) c).bedErr (n + m) 10 none) s1

/-! ## Taps (R208 to R214) -/

/-- Lines of a tap's frame: 0 raw, 1 developed, 2 proxy. -/
def BedFrame.tapH (f : BedFrame) (t : Nat) : Nat := if t = 2 then f.proxyH else f.cropH

/-- First and last cropped row that line `y` of a tap reads. -/
def BedFrame.tapRows (f : BedFrame) (t y : Nat) : List Nat :=
  if t = 2 ∧ f.scaled then
    let (i, _) := scalePos f.cropH f.proxyH y
    (List.range 8).map fun (k : Nat) => (clampInt 0 ((f.cropH : Int) - 1) (i - 3 + (k : Int))).toNat
  else [y]

/-- The input row of the tag of line `y` of a tap (R209). -/
def BedFrame.tagRow (f : BedFrame) (t y : Nat) : Nat :=
  if t = 2 ∧ f.scaled then scaleNear f.cropH f.proxyH y else y

/-- Rows of the raw tap by RAW_TAP.POINT: before or after splice point A (R192). -/
def State.rawRows (s : State) (n : Nat) (f : BedFrame) : SMap BedRow × Nat :=
  if s.bit (F.BED_TAP_POINT n 0) then (f.a.getLastD [], f.aNext.getLastD 0) else (f.a.headD [], f.aNext.headD 0)

/-- Line `y` of a tap can be assembled. -/
def State.tapReady (s : State) (n t y : Nat) (f : BedFrame) : Bool :=
  if t = 0 then decide ((f.crop true).1 + y < (s.rawRows n f).2)
  else (f.tapRows t y).all fun r => decide (r < f.bNext.getLastD 0)

/-- The tap gives lines (R209, R215, R222). -/
def State.tapOn (s : State) (n t : Nat) (f : BedFrame) : Bool :=
  s.getF (F.BED_TAP_DEST n t) != 0 && (s.bed n).ctl.testBit (t + 1) && !(t == 0 && f.rawOff) && !(t == 2 && f.proxyOff)

/-- The 32-byte bed tag (R209). -/
def State.bedTag (s : State) (n t y : Nat) (f : BedFrame) (row : BedRow) (poison : Bool) : List Byte :=
  let src := (f.crop true).1 + f.tagRow t y
  let base : LineTag := tagOf ((f.lines.find? (·.1 == src)).map (·.2.tag) |>.getD [])
  let h := f.tapH t
  let tag : LineTag := { base with
    line := y, first := y == 0, last := y + 1 == h, pad := if row.cut then 3 else base.pad, poisoned := poison }
  let e := f.enc (if t = 2 then 1 else 0)
  let format := if t = 0 then s.getF (F.BED_TAP_FMT n 0)
    else e.curve + 8 * e.depth + 32 * e.layout + 128 * b2n e.narrow
  let kb (p : Nat) (b : Bool) : Nat := b2n (b || s.bit (F.PE_SPLICE_STATUS_BYPASS (2 * n + p)))
  let flags := b2n row.cut + 2 * kb 0 row.bypassA + 4 * kb 1 row.bypassB + 8 * b2n poison
    + (if t = 0 then 0 else 16 * b2n e.ycc2020 + 32 * b2n e.packs)
  let w := if t = 2 then f.proxyW else f.cropW
  tag.bytes ++ leBytes 1 n ++ leBytes 1 t ++ leBytes 1 format ++ leBytes 1 flags ++ leBytes 2 w ++ leBytes 2 h
    ++ List.replicate 8 0#8

/-- The codes of a row of splice point B through encoder `e`; a cut or missing row is SL 0 (R211). -/
def BedFrame.codes (f : BedFrame) (e r : Nat) : List (List Nat) :=
  let row := (f.b.getLastD []).at {} r
  let zero := List.replicate 3 (List.replicate f.cropW (0 : Int))
  (f.enc e).line (f.mtx e) (if row.cut || row.vals.isEmpty then zero else row.vals)

/-- The codes of a scaled line (R208). -/
def BedFrame.scaledCodes (f : BedFrame) (y : Nat) : List (List Nat) :=
  let e := f.enc 1
  let top : Int := (2 ^ e.bits - 1 : Nat)
  let coef (base ph t : Nat) : Int := scaleCoef (f.small 7 (base + 2 * (ph * 8 + t)) 2)
  let (_, ph) := scalePos f.cropH f.proxyH y
  let rows := (f.tapRows 2 y).map fun r => f.codes 1 r
  (List.range 3).map fun c =>
    let w := if c ≠ 0 ∧ e.layout = 2 ∧ e.curve ≠ 0 then f.proxyW / 2 else f.proxyW
    let hs := rows.map fun r => scaleList (coef 0) w (r.getD c []) top
    (List.range w).map fun x =>
      let v := (hs.zipIdx.map fun (h, t) => coef 1024 ph t * ((h.getD x 0 : Nat) : Int)).sum
      (clampInt 0 top (rdiv v 1024)).toNat

/-- The bytes of the scaler table that a line reads. -/
def BedFrame.scaleUses (f : BedFrame) (y : Nat) : List Nat :=
  let phases := (List.range f.proxyW).map fun x => (scalePos f.cropW f.proxyW x).2
  (phases.map (16 * ·)) ++ [1024 + 16 * (scalePos f.cropH f.proxyH y).2]

/-- Values and bytes of line `y` of a tap, given its row. -/
def State.tapBytes (s : State) (n t y : Nat) (f : BedFrame) (row : BedRow) : List Byte :=
  let cw := f.cropW
  if t = 0 then
    let v := if row.cut then List.replicate cw 0 else ((row.vals.headD []).drop (f.crop false).1).take cw
    rawBytes (s.getF (F.BED_TAP_FMT n 0)) v
  else
    let e := f.enc (if t = 2 then 1 else 0)
    let codes :=
      if row.cut then
        let w := if t = 2 then f.proxyW else cw
        e.line (f.mtx (if t = 2 then 1 else 0)) (List.replicate 3 (List.replicate w 0))
      else if t = 2 ∧ f.scaled then f.scaledCodes y
      else f.codes (if t = 2 then 1 else 0) y
    e.bytes (e.order codes)

/-- Bytes of the largest item a tap can give at a width (R213). -/
def State.tapItemMax (s : State) (n t w : Nat) : Nat :=
  if t = 0 then
    let b := match s.getF (F.BED_TAP_FMT n 0) with | 0 => 16 | 1 => 20 | _ => 24
    32 + (w * b + 7) / 8
  else 32 + 6 * w

/-- Round up to a multiple. -/
def roundUp (a m : Nat) : Nat := (a + m - 1) / m * m

/-- The geometry the graft image gives a slot: pruned width and height (R213). -/
def State.graftGeom (s : State) (n k : Nat) : Nat × Nat :=
  let p := s.getF (F.BED_SENSOR_PORT n k)
  (s.portRec p 4 2 - 8 * (s.portRec p 48 2 + s.portRec p 50 2), s.portRec p 6 2 - 2 * (s.portRec p 52 2 + s.portRec p 54 2))

/-- The plot-space address of line `y` of frame `number` of a slot in a tap's plot; none when the part holds no frame
(R213). -/
def State.tapAddr (s : State) (n k t number y : Nat) : Option Nat :=
  match s.plot? (s.getF (F.BED_TAP_TARGET n t)) with
  | none => none
  | some p =>
    let (w, h) := s.graftGeom n k
    let part := p.size / s.getF (F.BED_CFG_SLOTS n) / 4096 * 4096
    let line := roundUp (s.tapItemMax n t w) 64
    let frame := roundUp (h * line) 4096
    if frame = 0 ∨ part / frame = 0 then none
    else some (p.base + k * part + number % (part / frame) * frame + y * line)

/-- Frame slots of a slot's part of a tap's plot (R213). -/
def State.tapFrames (s : State) (n k t : Nat) : Nat :=
  match s.plot? (s.getF (F.BED_TAP_TARGET n t)) with
  | none => 0
  | some p =>
    let (w, h) := s.graftGeom n k
    p.size / s.getF (F.BED_CFG_SLOTS n) / 4096 * 4096 / roundUp (h * roundUp (s.tapItemMax n t w) 64) 4096

/-- A plot tap has written the last line of a frame: readers of the plot may take it (R266, R319). -/
def State.tapDone (s : State) (n k t : Nat) (f : BedFrame) : State :=
  let s1 := s.setBed n { s.bed n with done := ((t, k, f.number) :: (s.bed n).done).take 64 }
  if t = 1 ∧ k = 0 then
    s1.encFrameDone (s.getF (F.BED_TAP_TARGET n t)) f.number
      (tagOf ((f.lines.find? (·.1 == (f.crop true).1)).map (·.2.tag) |>.getD [])).stamp (s.tapFrames n k t)
  else s1

/-- Write an item into a tap's target (R213). -/
def State.tapWrite (s : State) (n k t y : Nat) (f : BedFrame) (item : List Byte) : State :=
  if s.getF (F.BED_TAP_DEST n t) = 1 then
    let g := s.getF (F.BED_TAP_TARGET n t)
    (s.trugItem g item).when (!s.trugTakes g item.length) (·.bedErr n 2 (some 2))
  else match s.tapAddr n k t f.number y with
    | some a => (s.plotWrite a item).when (y + 1 == f.tapH t) (·.tapDone n k t f)
    | none => s

/-- Line `y` of a tap of frame `f` is assembled and written; a line that never came leaves none. -/
def State.tapLine (s : State) (n k t y : Nat) (f : BedFrame) : BedFrame × State :=
  let r := f.tagRow t y
  let row := if t = 0 then ((s.rawRows n f).1.find? (·.1 == (f.crop true).1 + y)).map (·.2)
    else ((f.b.getLastD []).find? (·.1 == r)).map (·.2)
  match row with
  | none => (f, s)
  | some q =>
    if !s.tapOn n t f then (f, s)
    else
      let (bad, f1, s1) := if t = 2 ∧ f.scaled ∧ q.cut = false then s.noteUses n k f [(7, f.scaleUses y)] else (false, f, s)
      let window := t = 2 ∧ f.scaled ∧ (f.tapRows t y).any fun i => ((f.b.getLastD []).at {} i).poison
      let poison := !q.cut && (q.poison || bad || decide window)
      let item := s1.bedTag n t y f q poison ++ s1.tapBytes n t y f q
      let s2 := s1.when q.cut (·.bedErr n 0 (some 0))
      let s3 := s2.when poison (·.bedErr n 1 (some 1))
      (f1, s3.tapWrite n k t y f item)

/-- Every line of a frame has been given. -/
def BedFrame.done (f : BedFrame) : Bool := f.ended && (List.range 3).all fun t => decide (f.tapH t ≤ f.taps.getD t 0)

/-- A frame of the slot has a line that can be given at a tap that gives lines. -/
def State.bedBusy (s : State) (n : Nat) : Bool :=
  (List.range 8).any fun k => (s.bedSlot n k).frames.any fun f => (List.range 3).any fun t =>
    s.tapOn n t f && decide (f.taps.getD t 0 < f.tapH t) && s.tapReady n t (f.taps.getD t 0) f

/-- The next line of tap `t` of slot `k` is given, from the oldest frame that has lines left (R209). -/
def State.bedEmit (s : State) (n k t : Nat) : State :=
  let x := s.bedSlot n k
  match x.frames.findIdx? fun f => decide (f.taps.getD t 0 < f.tapH t) with
  | none => s
  | some i =>
    let f := x.frames.getD i {}
    let y := f.taps.getD t 0
    if !s.tapReady n t y f then s
    else
      let (f1, s1) := s.tapLine n k t y f
      let f2 := { f1 with taps := f1.taps.set t (y + 1) }
      let fs := (s1.bedSlot n k).frames.set i f2
      let keep := fs.zipIdx.filterMap fun (g, j) => if g.done && decide (j + 1 < fs.length) then none else some g
      let s2 := s1.setBedSlot n k { s1.bedSlot n k with frames := keep }
      s2.setB (F.BED_STATUS_BUSY n) (s2.bedBusy n)

/-! ## Acceptance of a unit (R176) -/

/-- Bed `n` accepts the unit its merger has emitted (R176, R178, R215). -/
def State.bedAccept (s : State) (seek : State → Nat → State) (n : Nat) : State :=
  match (s.merger n).out with
  | none => s
  | some u =>
    match s.slotOf n u.port with
    | none => s.setMerger n { s.merger n with out := none }
    | some k =>
      let s0 := (s.setMerger n { s.merger n with out := none }).clockStep n
      let s1 := s0.setBed n { s0.bed n with ctl := (s0.rd (R.BED_CTL n)).toNat }
      let s2 := s1.setF (F.BED_STATUS_SLOT n) k
      let s3 := (s2.unitLines u).foldl (fun x l => x.bedLine seek n k l) s2
      match (s3.bedSlot n k).current with
      | some f =>
        let (f1, s4) := s3.pumpFrame n k f
        let s5 := s4.setBedSlot n k ((s4.bedSlot n k).putLast f1)
        s5.setB (F.BED_STATUS_BUSY n) (s5.bedBusy n)
      | none => s3

/-! ## Writes to a slot page (R183, R185, R197, R206, R208, R216, R217) -/

/-- A slot page takes writes: the bed is a lead, and the slot is within its slots (R217). -/
def State.slotWritable (s : State) (n k : Nat) : Bool := s.bedUp n && decide (k < 8)

/-- The word a register will hold once waiting writes have applied. -/
def State.pendingWord (s : State) (off : Nat) : Nat :=
  match s.staged.find? (·.1 == off) with
  | some w => w.2.toNat
  | none => (s.rd off).toNat

/-- A table of a size at an address lies in a plot the bed can read (R183). -/
def State.tableFits (s : State) (a size : Nat) : Bool :=
  match s.plotAt a with
  | some p => p.kind == 0 && decide (a + size ≤ p.base + p.size)
  | none => false

/-- A table pointer write (R183, R185): shadowed, and in progress until its small table is copied; ignored when its
table does not fit. -/
def State.pointerWrite (s : State) (n k i v : Nat) : State :=
  if !s.slotWritable n k || decide (7 < i) then s
  else
    let a := v % 2 ^ 37 / 256 * 256
    let en := v % 2 == 1
    if en && !s.tableFits a (s.tableSize n k i) then s.bedErr n 9 none
    else
      let off := R.BED_LIN_PTR n k + 8 * i
      let s1 := (s.bedStage n k off (BitVec.ofNat 32 (v % 2 ^ 32 / 256 * 256 + v % 2))).bedStage n k (off + 4)
        (BitVec.ofNat 32 (v / 2 ^ 32 % 32))
      let x := s1.bedSlot n k
      let rest := x.copying.filter (· != i)
      s1.setBedSlot n k { x with
        copying := if en && smallTable i then rest ++ [i] else rest, copied := x.copied.put {} i {} }

/-- A small table has been copied on chip (R185). -/
def State.copyDone (s : State) (n k i : Nat) : State :=
  let x := s.bedSlot n k
  if !x.copying.contains i then s
  else
    let off := R.BED_LIN_PTR n k + 8 * i
    let a := (s.pendingWord off + s.pendingWord (off + 4) * 2 ^ 32) % 2 ^ 37 / 256 * 256
    (s.noteRange a (s.tableSize n k i)).setBedSlot n k { x with
      copying := x.copying.filter (· != i), copied := x.copied.put {} i (s.copyTable a (s.tableSize n k i)) }

/-- The input frame of a slot: the window of its port's newest frame. -/
def State.inputSize (s : State) (n k : Nat) : Nat × Nat :=
  let p := s.getF (F.BED_SENSOR_PORT n k)
  let g := (s.ingPort p).geoms.headD (s.frameGeom p 0)
  (g.width, g.height)

/-- A CROP_X or CROP_Y write (R197). -/
def State.cropWrite (s : State) (n k : Nat) (vertical : Bool) (v : Word) : State :=
  if !s.slotWritable n k then s
  else
    let a := bitsOf v.toNat 0 16
    let w := bitsOf v.toNat 16 16
    let size := if vertical then (s.inputSize n k).2 else (s.inputSize n k).1
    if w ≠ 0 ∧ (w % s.cfaPeriod n ≠ 0 ∨ size < a + w) then s.bedErr n 5 none
    else s.bedStage n k (if vertical then R.BED_CROP_Y n k else R.BED_CROP_X n k) v

/-- ENC[e].CTL holds a setting the encoder takes (R206). -/
def encOk (v : Nat) : Bool :=
  let c := bitsOf v 0 3
  let d := bitsOf v 3 2
  let l := bitsOf v 5 2
  decide (c < 6) && decide (d < 3) && decide (l < 3) && (c != 0 || (d == 2 && l == 0 && !v.testBit 7))

/-- An ENC[e].CTL or PARAM write (R206). -/
def State.encWrite (s : State) (n k e : Nat) (param : Bool) (v : Word) : State :=
  if !s.slotWritable n k then s
  else if param then
    let w := bitsOf v.toNat 0 16
    if w = 0 ∨ 10000 < w then s.bedErr n 8 none else s.bedStage n k (R.BED_ENC_PARAM n k e) v
  else if encOk v.toNat then s.bedStage n k (R.BED_ENC_CTL n k e) (v &&& 0x3ff#32)
  else s.bedErr n 8 none

/-- Size of the cropped frame on an axis once waiting writes have applied. -/
def State.pendingCrop (s : State) (n k : Nat) (vertical : Bool) : Nat :=
  let w := bitsOf (s.pendingWord (if vertical then R.BED_CROP_Y n k else R.BED_CROP_X n k)) 16 16
  if w = 0 then (if vertical then (s.inputSize n k).2 else (s.inputSize n k).1) else w

/-- A SCL_SIZE write (R208). -/
def State.scaleWrite (s : State) (n k : Nat) (v : Word) : State :=
  if !s.slotWritable n k then s
  else
    let w := bitsOf v.toNat 0 16
    let h := bitsOf v.toNat 16 16
    let ratio (size o : Nat) : Bool := decide (o ≤ size) && decide (size ≤ 8 * o)
    let even := bitsOf (s.pendingWord (R.BED_ENC_CTL n k 1)) 5 2 != 2 || w % 2 == 0
    if w = 0 ∨ h = 0 ∨ (ratio (s.pendingCrop n k false) w ∧ ratio (s.pendingCrop n k true) h ∧ even) then
      s.bedStage n k (R.BED_SCL_SIZE n k) v
    else s.bedErr n 7 none

/-- SHADOW.HOLD is written (R216). -/
def State.holdWrite (s : State) (n k : Nat) (hold : Bool) : State :=
  if !s.slotWritable n k then s
  else
    ((List.range (s.getF (F.BED_CFG_JOIN n))).foldl (fun (x : State) m => x.setB (F.BED_SHADOW_HOLD (n + m) k) hold) s).bedPending
      n k

end Sys2Proof.Machine
end

