-- ==== Sys2Proof/Machine/HeadTime.lean ====
section
/-!
DEFINITION. The raster of a scan-out head: its record, line timing, and alignment to a frame reference
(spec/11_scanout.md, R311 to R317, R328).
-/

namespace Sys2Proof.Machine

/-- The state of head `h` beside its registers. -/
def State.head (s : State) (h : Nat) : Head := s.heads.at {} h
def State.setHead (s : State) (h : Nat) (x : Head) : State := { s with heads := s.heads.put {} h x }

/-- A field of a head's record (R311). -/
def State.headF (s : State) (h o n : Nat) : Nat := s.recField 0x09 0 1 h o n 0

/-- A head that a record names (R311). -/
def State.headOn (s : State) (h : Nat) : Bool := s.up 7 && s.seed.running && (findRecord s.seed.image 0x09 0 1 h).isSome

/-- Heads of the image, lowest first. -/
def State.headList (s : State) : List Nat := (List.range 8).filter fun h => (findRecord s.seed.image 0x09 0 1 h).isSome

/-- Raster fields (R311, R315). -/
def State.vTotal (s : State) (h : Nat) : Nat := s.headF h 30 2
def State.vActive (s : State) (h : Nat) : Nat := s.headF h 32 2
def State.vStart (s : State) (h : Nat) : Nat := s.headF h 34 2
def State.hActive (s : State) (h : Nat) : Nat := s.headF h 24 2

/-- The frame reference a head runs on, while it is on (R316). -/
def State.headFref (s : State) (h : Nat) : Option FrameRef :=
  let n := s.headF h 1 1
  if n < 16 ∧ !(s.fref n).off then some (s.fref n) else none

/-- The pixel period as a ratio of ticks: from the reference period, or nominal (R316). -/
def State.pixelTicks (s : State) (h : Nat) : Nat × Nat :=
  match s.headFref h with
  | some f => (f.den * 32000000000, f.num * s.vTotal h * s.headF h 22 2)
  | none => (32000000000 * s.headF h 20 2, s.headF h 16 4 * 10000)

/-- Ticks of `n` pixels. -/
def State.pixels (s : State) (h n : Nat) : Nat := let (a, b) := s.pixelTicks h; n * a / b

/-- Ticks of `n` lines. -/
def State.lines (s : State) (h n : Nat) : Nat := s.pixels h (n * s.headF h 22 2)

/-- Members of a head's alignment group, itself alone outside one (R328). -/
def State.headMembers (s : State) (h : Nat) : List Nat :=
  let g := s.headF h 2 1
  if g = 0xFF then [h] else s.headList.filter fun k => s.headF k 2 1 == g

/-- Most lines that can be removed from a frame (R317). -/
def State.removable (s : State) (h : Nat) : Nat := min 64 (s.vTotal h - s.vStart h - s.vActive h - 1)

/-- A slip begins: ERR.SLIP and CNT[3]; line 0 starts at the first target at or after the end of the frame (R317). -/
def State.headSlip (s : State) (h : Nat) (stop target : Int) : State :=
  let x := s.head h
  let s1 := s.setHead h { x with total := s.vTotal h, slip := some (stop, target) }
  ((s1.flag (F.HEAD_ERR_SLIP h)).bump (F.HEAD_CNT_COUNT h 3)).unflag (F.HEAD_STATUS_LOCKED h)

/-- A head meets a boundary `b` of its reference (R317): it absorbs the move in blanking lines, or slips. -/
def State.headAlign (s : State) (h : Nat) (f : FrameRef) (b : Int) (mark : Nat) : State :=
  let x := s.head h
  let period := f.period
  let line := (s.lines h 1 : Nat)
  let target := b + s.lines h (s.headF h 38 2)
  let all (g : State → Nat → State) : State := (s.headMembers h).foldl g s
  match x.slip with
  | some (stop, _) => if stop ≤ target then all fun y k => y.setHead k { y.head k with slip := some (stop, target) } else s
  | none =>
    let near := decide (((target - x.line0).natAbs : Int) * 2 < line)
    let next := x.lineAt + s.lines h (s.vTotal h - x.line)
    let m := if near then 0 else if line = 0 then 0 else rdiv (target - next) line
    if mark ≠ 0 ∨ m < -(s.removable h : Int) ∨ 64 < m then
      let first := if next ≤ target then target else target + ((next - target + period - 1) / period) * period
      all fun y k => y.headSlip k next first
    else
      all fun y k =>
        let z := y.head k
        let total := max ((y.vTotal k : Int) + m).toNat (z.line + 1)
        (y.setHead k { z with total := if near then z.total else total }).flag (F.HEAD_STATUS_LOCKED k)

/-- The heads on reference `n` meet its boundary; of an alignment group the lowest-numbered member decides (R328). -/
def State.headBoundary (s : State) (n mark : Nat) : State :=
  match (s.fref n).last with
  | none => s
  | some b =>
    (s.headList.filter fun h => s.headF h 1 1 == n && (s.head h).running && (s.headMembers h).headD h == h).foldl
      (fun x h => x.headAlign h (x.fref n) b mark) s

end Sys2Proof.Machine
end

