-- ==== Sys2Proof/Machine/Mail.lean ====
section
/-!
DEFINITION. The mailboxes: pages, doorbells, locks and the Gardener's reports (spec/16_signalling.md, R470 to R479).
-/

namespace Sys2Proof.Machine

/-- The page of mailbox channel `c`. -/
def State.page (s : State) (c : Nat) : MailPage := s.mail.at {} c

/-- Replace the page of channel `c`. -/
def State.setPage (s : State) (c : Nat) (p : MailPage) : State := { s with mail := s.mail.put {} c p }

/-- The sending and the receiving identity of a channel; 0 for an unbound one (R471). -/
def State.mailSender (s : State) (c : Nat) : Nat := s.getF (F.MBX_BIND_SENDER c)
def State.mailReceiver (s : State) (c : Nat) : Nat := s.getF (F.MBX_BIND_RECEIVER c)

/-- A channel is bound. -/
def State.mailBound (s : State) (c : Nat) : Bool := decide (c < 64) && s.mailSender c != 0

/-- A channel whose receiver is a parameter page (R476). -/
def State.paramChannel (s : State) (c : Nat) : Bool := decide (16 ≤ s.mailReceiver c)

/-- A refused access: ACCESS, with the channel and the identity (R472). -/
def State.mailDenied (s : State) (c who : Nat) : State :=
  ((s.flag F.MBX_ERR_ACCESS).setF F.MBX_ERR_CHANNEL c).setF F.MBX_ERR_IDENTITY who

/-- An identity reaches the mailboxes: the Rootstock controller always, any other through the register window (R28,
R484). -/
def State.mailReach (s : State) (who : Nat) : Bool := who == 1 || s.reaches 13

/-- The effect of an access by `who`: nothing on an unbound channel, a refusal unless `ok` holds, else `f` (R471,
R472). -/
def State.mailAs (s : State) (c who : Nat) (ok : Bool) (f : State → State) : State :=
  if !s.mailReach who then s.inReset else if !s.mailBound c then s else if ok then f s else s.mailDenied c who

/-- Whether an identity is the sender, the receiver, or either. -/
def State.isSender (s : State) (c who : Nat) : Bool := who == s.mailSender c
def State.isReceiver (s : State) (c who : Nat) : Bool := who == s.mailReceiver c

/-- Notify the receiver of a channel (R475): the host by vector 68 + c, held while the PCIe link is down; any other
receiver by its firmware interrupt. -/
def State.mailNotify (s : State) (c : Nat) : State :=
  if s.mailReceiver c = 8 then
    if s.power.pcieUp then s.raise (68 + c) else s.setPage c { s.page c with held := true }
  else s.emit (.mailNotify c (s.mailReceiver c))

/-- Give PENDING a new value; each time a bit of PENDING AND MASK becomes 1 the receiver is notified (R475). A
parameter-page channel has no doorbell (R476). -/
def State.setPending (s : State) (c : Nat) (pending mask : Word) : State :=
  if s.paramChannel c then s
  else
    let p := s.page c
    let new := pending &&& mask &&& ~~~(p.pending &&& p.mask)
    (s.setPage c { p with pending := pending, mask := mask }).when (new != 0#32) (·.mailNotify c)

/-- Ring doorbell bits (R475). -/
def State.mailRing (s : State) (c : Nat) (bits : Word) : State :=
  s.setPending c ((s.page c).pending ||| bits) (s.page c).mask

/-- Commit slot TAIL, or refuse with 16 slots full (R473). -/
def State.mailPost (s : State) (c : Nat) : State :=
  let p := s.page c
  if p.full = 16 then (s.flag F.MBX_ERR_POST_FULL).setPage c { p with refused := min (p.refused + 1) 65535 }
  else
    let s1 := s.setPage c { p with
      tail := (p.tail + 1) % 16, full := p.full + 1, posted := min (p.posted + 1) 65535
      bad := p.bad &&& ~~~(1#16 <<< p.tail) }
    s1.mailRing c 1#32

/-- Store message bytes in a slot. -/
def MailPage.put (p : MailPage) (slot off : Nat) (l : List Byte) : MailPage :=
  let old := padTo 64 (p.slots.at [] slot)
  { p with slots := p.slots.put [] slot (old.take off ++ l ++ old.drop (off + l.length)) }

/-- The Gardener posts a message on its report channel, if one is bound; with 16 full slots it waits (R47, R473,
R474). -/
def State.gardenerPost (s : State) (msg : List Byte) : State :=
  if s.bit F.MBX_REPORT_VALID then
    let c := s.getF F.MBX_REPORT_CHANNEL
    if (s.page c).full = 16 then { s with mailWait := s.mailWait ++ [msg] }
    else (s.setPage c ((s.page c).put (s.page c).tail 0 (padTo 64 msg))).mailPost c
  else s

/-- Free slot HEAD (R473); a message the Gardener holds back for this channel is then posted. -/
def State.mailTake (s : State) (c : Nat) : State :=
  let p := s.page c
  if p.full = 0 then s
  else
    let s1 := s.setPage c { p with head := (p.head + 1) % 16, full := p.full - 1 }
    match s1.mailWait with
    | m :: r =>
      if s1.bit F.MBX_REPORT_VALID && s1.getF F.MBX_REPORT_CHANNEL == c then
        ({ s1 with mailWait := r }).gardenerPost m
      else s1
    | [] => s1

/-- The words of a slot as the receiver reads them: those that could not be corrected read 0 (R478). -/
def MailPage.readSlot (p : MailPage) (slot : Nat) (bad : List Nat) : List Nat :=
  (List.range 16).map fun k => if bad.contains k then 0 else fieldAt (padTo 64 (p.slots.at [] slot)) (4 * k) 4

/-! ## The commands -/

/-- MBX_POST (R473, R475). -/
def execMbxPost (c : Nat) (who : Nat) (s : State) : Host.Outcome State Fault Refusal :=
  .next (s.mailAs c who (s.isSender c who) (·.mailPost c))

/-- MBX_TAKE (R473, R478): the receiver reads slot HEAD, whose words in `bad` the code could not correct, and frees
it. -/
def execMbxTake (c : Nat) (who : Nat) (bad : List Nat) (s : State) : Host.Outcome State Fault Refusal :=
  .next <| s.mailAs c who (s.isReceiver c who) fun x =>
    let p := x.page c
    if p.full = 0 then x
    else
      let p1 := if bad.isEmpty then p else { p with bad := p.bad ||| (1#16 <<< p.head) }
      { (x.setPage c p1).mailTake c with lastRead := p.readSlot p.head bad }

/-- MBX_RING (R475, R476). -/
def execMbxRing (c : Nat) (who : Nat) (bits : Word) (s : State) : Host.Outcome State Fault Refusal :=
  .next (s.mailAs c who (s.isSender c who) (·.mailRing c bits))

/-- MBX_PENDING_CLEAR (R475). -/
def execMbxPendingClear (c : Nat) (who : Nat) (bits : Word) (s : State) : Host.Outcome State Fault Refusal :=
  .next <| s.mailAs c who (s.isReceiver c who) fun x =>
    x.setPending c ((x.page c).pending &&& ~~~bits) (x.page c).mask

/-- MBX_LOCK_READ (R477): a free lock becomes the reader's and reads 0; an owned one reads its owner's identity. -/
def execMbxLockRead (c : Nat) (who : Nat) (s : State) : Host.Outcome State Fault Refusal :=
  let p := s.page c
  .next <|
    if !s.mailReach who then { s.inReset with lastRead := [0] }
    else if !s.mailBound c then { s with lastRead := [0] }
    else if s.isSender c who || s.isReceiver c who then
      if p.lock = 0 then { s.setPage c { p with lock := who } with lastRead := [0] }
      else { s with lastRead := [p.lock] }
    else { s.mailDenied c who with lastRead := [0] }

/-- MBX_LOCK_WRITE (R477): a write of the owner's identity frees the lock; any other sets LOCK_BAD. -/
def execMbxLockWrite (c : Nat) (who : Nat) (val : Word) (s : State) : Host.Outcome State Fault Refusal :=
  .next <| s.mailAs c who (s.isSender c who || s.isReceiver c who) fun x =>
    let p := x.page c
    if p.lock ≠ 0 ∧ val.toNat = p.lock then x.setPage c { p with lock := 0 } else x.flag F.MBX_ERR_LOCK_BAD

/-- A write of a word of the slots (R473): the sender writes slot TAIL while it is free. -/
def State.slotWrite (s : State) (c off : Nat) (val : Word) : State :=
  let p := s.page c
  if p.full = 16 ∨ off / 64 ≠ p.tail then s else s.setPage c (p.put p.tail (off % 64) (leBytes 4 val.toNat))

/-- MBX_SLOT_WRITE (R472, R473). -/
def execMbxSlotWrite (c : Nat) (who : Nat) (off : Nat) (val : Word) (s : State) : Host.Outcome State Fault Refusal :=
  .next (s.mailAs c who (s.isSender c who && decide (off < 0x400)) (·.slotWrite c (off / 4 * 4) val))

end Sys2Proof.Machine
end

