-- ==== Sys2Proof/Machine/Degrade.lean ====
section
/-!
DEFINITION. The degrade plan (R58 to R60), the exhaustion of a spare pool (R46, R47), and the retirement of
pseudo-channels (R360 to R362).
-/

namespace Sys2Proof.Machine

/-! ## The plan (R58, R60) -/

/-- A step of the degrade plan: its index, action and INSTANCE. -/
structure PlanStep where
  index : Nat
  action : Nat
  inst : Nat
  deriving DecidableEq, Repr

/-- The steps of a trigger, in ascending index (R58). -/
def State.planSteps (s : State) (trigger : Nat) : List PlanStep :=
  let img := s.seed.image
  ((recordOffsets img 0x0D).zipIdx.filter fun (r, _) => byteAt img r == trigger).map fun (r, i) =>
    { index := i, action := byteAt img (r + 1), inst := fieldAt img (r + 2) 2 }

/-- The steps of triggers 2 to 6 still unused (R60). -/
def State.planLeft (s : State) (trigger : Nat) : List PlanStep :=
  (s.planSteps trigger).filter fun p => !s.power.usedSteps.at false p.index

/-- A step is used (R60). -/
def State.planUse (s : State) (i : Nat) : State :=
  { s with power := { s.power with usedSteps := s.power.usedSteps.put false i true } }

/-- What a concession record of a degrade step names: block, instance, rank broken and detail. -/
structure StepRecord where
  block : Nat
  inst : Nat
  broken : Nat
  detail : Nat
  deriving DecidableEq, Repr

/-- What raised an event: the instance, and for trigger 2 the physical lane, for triggers 4 and 5 the address of the
damaged word, for a placement that finds no engine the splice point of its kernel (R248). -/
structure StepCause where
  trigger : Nat
  inst : Nat
  lane : Nat := 99
  addr : Option Nat := none
  splice : Option Nat := none
  deriving DecidableEq, Repr

/-! ## Actions on beds (R221, R222) -/

/-- Recording streams in use, and whether one reads or holds data in a plot. -/
def State.recStreams (s : State) : List Nat := (List.range 32).filter fun k => s.getF (F.REC_STREAM_STATUS_STATE k) != 0
def State.recUsesPlot (s : State) (k plot : Nat) : Bool :=
  let x := s.recorder.streams.at {} k
  (x.srcKind == 2 && x.source == plot) || x.preroll == plot

/-- The lowest rank among the consumers of a plot: heads 5, stream engines 6, recording streams 7 or 8; a bed that reads
its tables there 4 (R112, R222, R361). -/
def State.plotRank (s : State) (plot : Nat) : Nat :=
  let beds := (List.range 16).any fun n => (List.range 8).any fun k => (List.range 8).any fun i =>
    let lo := (s.rd (R.BED_LIN_PTR n k + 8 * i)).toNat
    let a := lo / 256 * 256 + (s.rd (R.BED_LIN_PTR n k + 8 * i + 4)).toNat % 32 * 2 ^ 32
    s.getF (F.BED_CFG_JOIN n) != 0 && lo % 2 == 1 && (s.plotAt a).map (·.index) == some plot
  let heads := s.headList.any fun h => (List.range 4).any fun p =>
    s.headF h (64 + 32 * p) 1 == 1 && s.headF h (64 + 32 * p + 4) 2 == plot
  let ses := (List.range 16).any fun e => (List.range 8).any fun c =>
    s.bit (F.SE_CTX_CFG_VALID e c) && ((s.getF (F.SE_CTX_CFG_INPUT e c) == 2 && s.ctxF e c 8 2 == plot)
      || s.ctxF e c 48 2 == plot || s.ctxF e c 50 2 == plot || (s.ctxIs e c 1 && s.ctxF e c 10 2 == plot))
  let recs := (s.recStreams.filter fun k => s.recUsesPlot k plot).map fun k =>
    if s.getF (F.REC_STREAM_STATUS_CLASS k) = 0 then 7 else 8
  if beds then 4 else if heads then 5 else if ses then 6 else (recs.min?).getD 8

/-- The rank of the consumer that needs a tap (R222). -/
def State.tapRank (s : State) (n t : Nat) : Option Nat :=
  let target := s.getF (F.BED_TAP_TARGET n t)
  match s.getF (F.BED_TAP_DEST n t) with
  | 1 => match (s.trugConsumer target).1 with
    | 7 => some 5
    | 6 => some 6
    | 9 => some 7
    | _ => none
  | 2 => let r := s.plotRank target
    if 5 ≤ r ∧ r ≤ 7 then some r else if s.recStreams.any fun k => s.recUsesPlot k target then some 7 else none
  | _ => none

/-- DETAIL of a bed's record: the action code and the clock step. -/
def State.bedDetail (s : State) (n action : Nat) : Nat := action + 256 * s.getF (F.BED_STATUS_CLOCK_STEP n)

/-- PROXY_OFF and RAW_TAP_OFF on bed `n` (R222). -/
def State.tapStop (s : State) (n action : Nat) : State × List StepRecord :=
  let proxy := action = 1
  let f := if proxy then F.BED_STATUS_PROXY_OFF n else F.BED_STATUS_RAW_OFF n
  let t := if proxy then 2 else 0
  let on := (s.rd (R.BED_CTL n)).toNat.testBit (t + 1) && !s.bit f
  (s.flag f, match s.tapRank n t with
    | some r => if on then [{ block := 4, inst := n, broken := r, detail := s.bedDetail n action }] else []
    | none => [])

/-- Capacity of a bed at a clock step, in thousandths of that at step 0 (R221). -/
def clockCapacity (c : Nat) : Nat := [1000, 800, 640, 500].getD c 500

/-- The lead of a bed's group. -/
def State.bedLead (s : State) (n : Nat) : Nat := n - s.getF (F.BED_CFG_MEMBER n)

/-- The clock step a bed holds or is about to take. -/
def State.clockNow (s : State) (n : Nat) : Nat := ((s.bed n).stepDue).getD (s.getF (F.BED_STATUS_CLOCK_STEP n))

/-- BED_CLOCK_STEP on the group of bed `n` (R221, R222): one step down, or up when a thermal step is reversed. -/
def State.clockMove (s : State) (n : Nat) (up : Bool) : State × List StepRecord :=
  let l := s.bedLead n
  let c := s.clockNow l
  let c1 := if up then c - 1 else min 3 (c + 1)
  if c1 = c then (s, [])
  else
    let s1 := s.setBed l { s.bed l with stepDue := some c1 }
    let short := !up && decide (clockCapacity c1 < s.getF (F.BED_LOAD_LOAD l))
    (s1, if short then [{ block := 4, inst := l, broken := 4, detail := 3 + 256 * c1 }] else [])

/-- The leads of the beds in use. -/
def State.bedLeads (s : State) : List Nat :=
  (List.range s.variant.beds).filter fun n => s.getF (F.BED_CFG_JOIN n) != 0 && s.getF (F.BED_CFG_MEMBER n) == 0

/-! ## PLOT_DROP (R362) -/

/-- A plot can be dropped: a data plot that is not PINNED and has not been dropped. -/
def State.droppable (s : State) (p : Plot) : Bool := p.kind == 0 && !p.access.testBit 2 && !s.hbm.dropped.at false p.index

/-- The chunks of a range of plot space become unbacked. -/
def Hbm.unback (h : Hbm) (chunks : List Nat) : Hbm :=
  { h with unbacked := chunks.foldl (fun m c => m.put false c true) h.unbacked }

/-- PLOT_DROP of a plot. -/
def State.plotDrop (s : State) (p : Plot) : State × List StepRecord :=
  let chunks := (List.range (p.size / 256)).map (p.base / 256 + ·)
  let h := s.hbm.unback chunks
  let s1 := { s with hbm := { h with dropped := h.dropped.put false p.index true } }
  ((s1.flag F.MEM_ERR_PLOT_DROPPED).memVector 0 |>.reportReserve,
    [{ block := 8, inst := p.index, broken := s.plotRank p.index, detail := 0 }])

/-- The plot that PLOT_DROP acts on: the one named, or the one that holds the damaged word; with no word known, the first
droppable plot with chunks on the pseudo-channel. -/
def State.dropTarget (s : State) (c : StepCause) (inst : Nat) : Option Plot :=
  if inst ≠ 0xFFFF then s.plot? inst
  else match c.addr.bind s.plotAt with
    | some p => some p
    | none => s.plots.find? fun p => s.droppable p && decide (0 < s.chunksIn c.inst p)

/-! ## Applying a step (R59) -/

/-- The instances of its block that a step's action applies to. -/
def State.stepInstances (s : State) (c : StepCause) (p : PlanStep) : List Nat :=
  let all : List Nat := match p.action with
    | 1 | 3 | 4 => s.bedLeads
    | 2 => List.range s.variant.beds
    | 5 => s.headList
    | _ => []
  if p.inst ≠ 0xFFFF then [p.inst]
  else if c.trigger = 1 then all
  else match c.trigger, p.action with
    | 3, 1 | 3, 3 | 3, 4 => [c.splice.getD (s.getF (F.PE_STATUS_SPLICE c.inst)) / 2]
    | _, _ => []

/-- Fold an action over instances, keeping the records. -/
def foldSteps (f : State → Nat → State × List StepRecord) (s : State) (l : List Nat) : State × List StepRecord :=
  l.foldl (fun acc i => let (t, r) := f acc.1 i; (t, acc.2 ++ r)) (s, [])

/-- Apply a step of the plan: the state, the records that fall due, and whether it acted (R59, R362). -/
def State.applyStep (s : State) (c : StepCause) (p : PlanStep) : State × List StepRecord × Bool :=
  let on (f : State → Nat → State × List StepRecord) : State × List StepRecord × Bool :=
    let l := s.stepInstances c p
    let (t, r) := foldSteps f s l
    let held := if c.trigger = 1 then [] else l.map fun n => (p.action, n)
    ({ t with power := { t.power with forced := t.power.forced ++ held } }, r, true)
  match p.action with
  | 1 | 4 => on fun x n => x.tapStop n p.action
  | 2 => on fun x e =>
    match x.contextShed e with
    | (t, some k) => (t, [{ block := 6, inst := e, broken := 6, detail := k + 256 * x.ctxF e k 46 1 }])
    | (t, none) => (t, [])
  | 3 => on fun x n => x.clockMove n false
  | 5 => on fun x h => (x.setHead h { x.head h with offDue := true }, [{ block := 7, inst := h, broken := 5, detail := 0xFF }])
  | 6 =>
    let n := if p.inst = 0xFFFF then c.inst else p.inst
    (s.narrowRequest n (if n = c.inst then c.lane else 99), [], true)
  | 7 =>
    match c.splice with
    | some own => (s.peBypass (if p.inst = 0xFFFF then own else p.inst), [], true)
    | none => (s.kernelBypass c.inst (if p.inst = 0xFFFF then none else some p.inst), [], true)
  | 8 =>
    match s.dropTarget c p.inst with
    | some v => if s.droppable v then let (t, r) := s.plotDrop v; (t, r, true) else (s, [], false)
    | none => (s, [], false)
  | _ => (s, [], true)

/-- The next step of the trigger that acts is applied; the built-in step when none is left (R60). The index of the step,
if it is one of the plan. -/
def State.runPlan (s : State) (c : StepCause) (builtin : State → State × List StepRecord) :
    List PlanStep → State × List StepRecord × Option Nat
  | [] => let (t, r) := builtin s; (t, r, none)
  | p :: l =>
    let (t, r, acted) := (s.planUse p.index).applyStep c p
    if acted then (t, r, some p.index) else State.runPlan t c builtin l

/-! ## A pool runs out (R46, R47) -/

/-- Remaining capacity of the block, in thousandths: data lanes of the Runner, engines that active service needs,
pseudo-channels in service. -/
def State.capacity (s : State) (pool inst : Nat) : Nat :=
  match pool with
  | 1 => s.goodLanes inst * 125
  | 2 => min 1000 (1000 * (s.engineList.filter fun e => !s.bit (F.PE_SPARE_RETIRED e) && s.peState e != 5).length
      / s.variant.peBase)
  | _ => 1000 * ((List.range (Variant.pcs s.variant)).filter s.inService).length / Variant.pcs s.variant

/-- The EXH bit of a pool in GLB_SPARE. -/
def poolExh (pool : Nat) : Field := ⟨R.GLB_SPARE, 2 * pool - 1, 1⟩

/-- A pool runs out (R46): the step, the EXH bit, the message, vector 64 and the records, in this order. -/
def State.exhausted (s : State) (pool block : Nat) (c : StepCause) (builtin : State → State × List StepRecord) : State :=
  let stamp := s.longStamp
  let (s1, recs, step) := s.runPlan c builtin (s.planLeft c.trigger)
  let s2 := s1.flag (poolExh pool)
  let index := match step with | some i => i | none => s2.free % 65536
  let s3 := if step.isSome then s2 else s2.freed
  let msg := leBytes 2 1 ++ leBytes 1 pool ++ leBytes 1 block ++ leBytes 2 c.inst ++ leBytes 2 index ++ leBytes 8 stamp
    ++ leBytes 4 (s3.capacity pool c.inst) ++ List.replicate 44 0#8
  let s4 := (s3.gardenerPost msg).raise 64
  recs.foldl (fun x r => x.concede r.block r.inst r.broken 2 0x0003 r.detail) s4

/-- The spare lanes of Runner `n` run out at physical lane `phys` (R137). -/
def State.laneExhausted (s : State) (n phys : Nat) : State :=
  (s.runErr n (F.RUN_ERR_SPARE_EXH n)).exhausted 1 2 { trigger := 2, inst := n, lane := phys } fun x =>
    (x.narrowRequest n phys, [])

/-- The pixel engines run out at engine `e` (R249, R250): an action that leaves the failed kernel without an engine
bypasses its splice point. -/
def State.engineExhausted (s : State) (e : Nat) : State :=
  let s1 := s.exhausted 2 5 { trigger := 3, inst := e } fun x => (x.kernelBypass e none, [])
  let p := s.getF (F.PE_STATUS_SPLICE e)
  if s1.bit (F.PE_SPLICE_STATUS_BYPASS p) || (s1.engine e).target.isSome then s1 else s1.peBypass p

/-- A migration is due from engine `e`: a target is chosen, or the pool has run out (R252, R254). -/
def State.seekTarget (s : State) (e : Nat) : State :=
  match s.peTarget e with
  | some t => t
  | none => s.engineExhausted e

/-! ## Retirement of a pseudo-channel (R360, R361) -/

/-- The chunks of `q` in data and log plots, ascending. -/
def State.neededChunks (s : State) (q : Nat) : List Nat :=
  sortBy (fun a b => decide (a ≤ b))
    ((s.plots.filter fun p => p.kind != 2 && !s.hbm.dropped.at false p.index).flatMap (s.chunkList q))

/-- The reserve can take the need of `q` (R359). -/
def State.reserveTakes (s : State) (q : Nat) : Bool := decide (s.need q ≤ s.freeReserve)

/-- `q` enters RETIRING, which ERR.RETIRE notes: its chunks are given reserve chunks in ascending order (R360 step 1). -/
def State.retireStart (s : State) (q : Nat) : State :=
  let s0 := ((s.setF (F.MEM_PC_STATE_STATE (q / 32) (q % 32)) 1).flag (F.MEM_STK_ERR_RETIRE (q / 32))).memVector (q / 32)
  let pairs := (s0.neededChunks q).zip s0.freeChunks
  let moved := pairs.foldl (fun m (a, b) => SMap.put 0 m a (b + 1)) s0.hbm.moved
  let s1 := { s0 with hbm := { s0.hbm with moved } }.reportReserve
  s1.when (!s.bit F.GLB_SPARE_PC_LAST && s1.bit F.GLB_SPARE_PC_LAST) (·.event 0x0F08 8 q 4)

/-- `q` is retired: STATE, the count of the stack and the event (R360 step 5). -/
def State.retireEnd (s : State) (q st : Nat) : State :=
  let p := s.pc q
  let s1 := (s.setF (F.MEM_PC_STATE_STATE (q / 32) (q % 32)) st).setPc q { p with
    retireDue := false, down := [(0, true), (1, true), (2, true)], postponed := [], due := [] }
  let s2 := s1.addF (F.MEM_STK_STATUS_RETIRED (q / 32)) 1
  (s2.event 0x0F07 8 q p.cause).reportReserve

/-- `q` is retired without copy, and its chunks become unbacked (R361). -/
def State.retireBare (s : State) (q : Nat) : State :=
  let s1 := s.setF (F.MEM_PC_STATE_STATE (q / 32) (q % 32)) 3
  let chunks := s1.neededChunks q
  let ps := s1.plots.filter fun p => p.kind != 2 && decide (0 < s1.chunksIn q p)
  let broken := ((ps.map fun p => s1.plotRank p.index).min?).getD 8
  let s2 := { s1 with hbm := s1.hbm.unback chunks }
  ((s2.flag F.MEM_ERR_UNBACKED).memVector 0 |>.retireEnd q 3).concede 8 q broken 2 0x0003 0

/-- Pseudo-channel `q` is to be retired: at once where the reserve can take it, else by way of trigger 5 (R360, R361). -/
def State.retirePc (s : State) (q : Nat) : State :=
  let fits (x : State) : Bool := (x.setF (F.MEM_PC_STATE_STATE (q / 32) (q % 32)) 1).reserveTakes q
  if fits s then s.retireStart q
  else
    let c : StepCause := { trigger := 5, inst := q, addr := (s.pc q).fault }
    let s1 := s.exhausted 4 8 c fun x =>
      match x.dropTarget c 0xFFFF with
      | some p => if x.droppable p then x.plotDrop p else (x, [])
      | none => (x, [])
    if fits s1 then s1.retireStart q else s1.retireBare q

/-- A row needs remapping in a bank with no spare row (R358): trigger 4. -/
def State.rowExhausted (s : State) (q : Nat) : State :=
  let s1 := s.setPc q { s.pc q with cause := 1 }
  let retired (x : State) : State × List StepRecord :=
    (if x.inService q then x.setPc q { x.pc q with retireDue := true, cause := 1 } else x, [])
  let s2 := s1.exhausted 3 8 { trigger := 4, inst := q, addr := (s.pc q).fault } retired
  if (s2.pc q).retireDue && !(s.pc q).retireDue && s2.inService q
      && !((List.range (Variant.pcs s2.variant)).any fun k => s2.pcState k == 1)
  then s2.retirePc q else s2

end Sys2Proof.Machine
end

