-- ==== Sys2Proof/Machine/Bed.lean ====
section
/-!
DEFINITION. The commands of the beds (spec/07_raw_pipeline.md).
-/

namespace Sys2Proof.Machine

/-- BED_UNIT_ACCEPT (R176, R178, R215). -/
def execBedUnitAccept (n : Nat) (mem : List MemErr) (s : State) : Host.Outcome State Fault Refusal :=
  .next (if s.bedUp n then (s.meet mem).bedAccept State.seekTarget n else s)

/-- BED_LINE_EMIT (R208 to R214). -/
def execBedLineEmit (n : Nat) (slot : Nat) (tap : Nat) (s : State) : Host.Outcome State Fault Refusal :=
  .next (if s.slotWritable n slot && decide (tap < 3) then s.bedEmit n slot tap else s)

/-- BED_TABLE_POINTER_WRITE (R183, R185). -/
def execBedTablePointerWrite (n : Nat) (slot : Nat) (k : Nat) (val : Nat) (s : State) : Host.Outcome State Fault Refusal :=
  .next (s.bus 4 fun s => s.pointerWrite n slot k val)

/-- TABLE_COPY_DONE (R185). -/
def execTableCopyDone (n : Nat) (slot : Nat) (k : Nat) (mem : List MemErr) (s : State) :
    Host.Outcome State Fault Refusal :=
  .next (if s.slotWritable n slot then (s.meet mem).copyDone n slot k else s)

/-- BED_SHADOW_HOLD_WRITE (R216). -/
def execBedShadowHoldWrite (n : Nat) (slot : Nat) (hold : Bool) (s : State) : Host.Outcome State Fault Refusal :=
  .next (s.bus 4 fun s => s.holdWrite n slot hold)

/-- BED_CROP_WRITE (R197). -/
def execBedCropWrite (n : Nat) (slot : Nat) (vertical : Bool) (val : Word) (s : State) : Host.Outcome State Fault Refusal :=
  .next (s.bus 4 fun s => s.cropWrite n slot vertical val)

/-- BED_ENC_WRITE (R206). -/
def execBedEncWrite (n : Nat) (slot : Nat) (enc : Nat) (param : Bool) (val : Word) (s : State) :
    Host.Outcome State Fault Refusal :=
  .next (s.bus 4 fun s => if enc < 2 then s.encWrite n slot enc param val else s)

/-- BED_SCALE_WRITE (R208). -/
def execBedScaleWrite (n : Nat) (slot : Nat) (val : Word) (s : State) : Host.Outcome State Fault Refusal :=
  .next (s.bus 4 fun s => s.scaleWrite n slot val)

end Sys2Proof.Machine
end

