-- ==== Sys2Proof/Machine/DecOps.lean ====
section
/-!
DEFINITION. Decode contexts as shared operations: samples and concealed samples, picture headers, reports, output slots
and decode mosaics (spec/10_decoder.md, R297 to R307).
-/

namespace Sys2Proof

/-- A decoded sample, by picture, plane and place: a free value, since H.265 decoding lies outside the spec. -/
opaque Config.decodedSample : Nat → Nat → Nat → Nat → Nat

namespace Machine

/-! ## Records -/

/-- The decode part of a context. -/
def State.decCtx (s : State) (e c : Nat) : DecCtx := (s.stream e c).dec
def State.setDec (s : State) (e c : Nat) (x : DecCtx) : State := s.setStream e c { s.stream e c with dec := x }

/-- A decode event: its bit of ERR, and the counter it has (R290, R299). -/
def State.decFlag (s : State) (e c bit : Nat) (cnt : Option (Nat × Nat)) : State := s.seErr e c bit cnt

/-- An error of class `k` (R299): flag, counter, the picture's mask; it ends a wait for a recovery point (R301). -/
def State.decError (s : State) (e c k : Nat) : State :=
  let x := s.decCtx e c
  let cur := x.cur.map fun p => { p with errors := p.errors ||| 2 ^ (k - 1), poison := p.poison || k == 7 }
  (s.setDec e c { x with cur, recovery := none, recoveryAt := none }).decFlag e c (k - 1) (some (k - 1, 1))

/-- Chroma format of a profile: 1 4:2:0, 2 4:2:2, 3 4:4:4 (R257, R298). -/
def profileChroma (profile : Nat) : Nat := if profile ≤ 2 then 1 else if profile ≤ 4 then 2 else 3

/-- Width and height of plane `k` of a picture in a chroma format. -/
def planeSize (chroma k w h : Nat) : Nat × Nat :=
  if k = 0 ∨ chroma = 3 then (w, h) else if chroma = 2 then (w / 2, h) else (w / 2, h / 2)

/-- CTU columns and CTUs of a picture format. -/
def DecSet.cols (f : DecSet) : Nat := (f.width + f.ctb - 1) / f.ctb
def DecSet.total (f : DecSet) : Nat := f.cols * ((f.height + f.ctb - 1) / f.ctb)

/-! ## Samples (R302, R303) -/

/-- A sample of the good picture, with the edges padded. -/
def goodSample (src : Nat × DecSet) (k : Nat) (x y : Int) : Int :=
  let (w, h) := planeSize src.2.chroma k src.2.width src.2.height
  ((Config.decodedSample src.1 k (clampInt 0 ((w : Int) - 1) x).toNat (clampInt 0 ((h : Int) - 1) y).toNat
    % 2 ^ src.2.depth : Nat) : Int)

/-- The luma interpolation filter of H.265 at a quarter-sample place. -/
def lumaTaps : Int → List Int
  | 1 => [-1, 4, -10, 58, 17, -5, 1, 0]
  | 2 => [-1, 4, -11, 40, 40, -11, 4, -1]
  | 3 => [0, 1, -5, 17, 58, -10, 4, -1]
  | _ => [0, 0, 0, 64, 0, 0, 0, 0]

/-- The chroma interpolation filter of H.265 at an eighth-sample place. -/
def chromaTaps : Int → List Int
  | 1 => [-2, 58, 10, -2]
  | 2 => [-4, 54, 16, -2]
  | 3 => [-6, 46, 28, -4]
  | 4 => [-4, 36, 36, -4]
  | 5 => [-4, 28, 46, -6]
  | 6 => [-2, 16, 54, -4]
  | 7 => [-2, 10, 58, -2]
  | _ => [0, 64, 0, 0]

/-- A sample copied from the good picture by a vector in quarter luma samples (R303). -/
def copiedSample (src : Nat × DecSet) (k x y : Nat) (vx vy : Int) : Nat :=
  let chroma := src.2.chroma
  let luma := k = 0
  let units : Int := if luma then 4 else 8
  let mx : Int := if luma ∨ chroma ≠ 3 then vx else 2 * vx
  let my : Int := if luma ∨ chroma = 1 then vy else 2 * vy
  let taps := fun (f : Int) => if luma then lumaTaps f else chromaTaps f
  let o : Int := if luma then 3 else 1
  let ix : Int := x + mx / units
  let iy : Int := y + my / units
  let fx := mx % units
  let fy := my % units
  let d := src.2.depth
  let shift1 := 2 ^ min 4 (d - 8)
  let shift3 := 2 ^ (14 - d)
  let row (yy : Int) : Int := ((taps fx).zipIdx.map fun (c, i) => c * goodSample src k (ix + i - o) yy).sum
  let col (f : Int → Int) : Int := ((taps fy).zipIdx.map fun (c, j) => c * f (iy + j - o)).sum
  let p : Int :=
    if fx = 0 ∧ fy = 0 then goodSample src k ix iy * shift3
    else if fy = 0 then row iy / shift1
    else if fx = 0 then col (fun yy => goodSample src k ix yy) / shift1
    else col (fun yy => row yy / shift1) / 64
  (clampInt 0 ((2 ^ d : Nat) - 1) ((p + shift3 / 2) / shift3)).toNat

/-- Sample (x, y) of plane `k` of a picture, in coded coordinates. -/
def DecPic.sample (p : DecPic) (k x y : Nat) : Nat :=
  let (w, h) := planeSize p.fmt.chroma k p.fmt.width p.fmt.height
  let lx := if w = 0 then x else x * p.fmt.width / w
  let ly := if h = 0 then y else y * p.fmt.height / h
  match p.ctus.getD (ly / p.fmt.ctb * p.fmt.cols + lx / p.fmt.ctb) .missing, p.source with
  | .decoded _ _, _ => Config.decodedSample p.id k x y % 2 ^ p.fmt.depth
  | .copied vx vy, some src => copiedSample src k x y vx vy
  | _, _ => 2 ^ (p.fmt.depth - 1)

/-! ## Output slots (R297, R298, R306) -/

/-- Size of the whole picture a context's slot holds: its own, or the rectangle of all cells. -/
def State.slotSize (s : State) (e c : Nat) : Nat × Nat :=
  (s.cells e c).foldl (fun (acc : Nat × Nat) (a, b) =>
    (max acc.1 (s.ctxF a b 16 2 + s.ctxF a b 12 2), max acc.2 (s.ctxF a b 18 2 + s.ctxF a b 14 2))) (0, 0)

/-- Line stride of a plane. -/
def planeStride (w : Nat) : Nat := (2 * w + 63) / 64 * 64

/-- Offset of plane `k` within a slot, for pictures of a chroma format. -/
def planeOffset (chroma w h : Nat) : Nat → Nat
  | 0 => 4096
  | k + 1 =>
    let (pw, ph) := planeSize chroma k w h
    planeOffset chroma w h k + (planeStride pw * ph + 4095) / 4096 * 4096

/-- Frame stride of a context's plot, and the whole strides it holds. -/
def State.slotStride (s : State) (e c : Nat) : Nat :=
  let (w, h) := s.slotSize e c
  planeOffset (profileChroma (s.getF (F.SE_CTX_CFG_PROFILE e c))) w h 3
def State.slotCount (s : State) (e c : Nat) : Nat :=
  match s.plot? (s.ctxF e c 10 2) with
  | some p => p.size / s.slotStride e c
  | none => 0

/-- Plot-space address of the slot of output picture `n`. -/
def State.slotAddr (s : State) (e c n : Nat) : Option Nat :=
  match s.plot? (s.ctxF e c 10 2) with
  | some p => if s.slotCount e c = 0 then none else some (p.base + n % s.slotCount e c * s.slotStride e c)
  | none => none

/-- The 64-byte picture header (R298). -/
def picHeader (stamp : Option Nat) (n : Nat) (poc : Int) (w h format flags errors concealed total : Nat) : List Byte :=
  leBytes 8 (stamp.getD 0) ++ leBytes 4 n ++ leBytes 4 (patternOf 32 poc) ++ leBytes 2 w ++ leBytes 2 h
    ++ leBytes 1 format ++ leBytes 1 (flags + (if stamp.isNone then 64 else 0)) ++ leBytes 2 errors ++ leBytes 4 concealed
    ++ leBytes 4 total ++ List.replicate 32 0#8

/-- FORMAT of a picture. -/
def DecSet.format (f : DecSet) : Nat := f.chroma % 4 + 4 * (f.depth % 16)

/-- FLAGS of a picture but NO_STAMP. -/
def DecPic.flags (p : DecPic) (valid : Bool) : Nat :=
  b2n valid + 2 * b2n (decide (0 < p.concealed) || p.errors.testBit 4) + 4 * b2n p.drift + 8 * b2n p.poison
    + 16 * b2n p.hashFail

/-- Write one plane of a picture at its place in a slot. -/
def State.planeWrite (s : State) (e c a k : Nat) (f : DecSet) (at' : Nat → Nat → Nat) : State :=
  let (w, h) := s.slotSize e c
  let (pw, _) := planeSize f.chroma k w h
  let (cx, cy) := planeSize f.chroma k (s.ctxF e c 16 2) (s.ctxF e c 18 2)
  let (ox, oy) := planeSize f.chroma k f.cropX f.cropY
  let (iw, ih) := planeSize f.chroma k f.cropW f.cropH
  let base := a + planeOffset f.chroma w h k
  (List.range ih).foldl (fun (x : State) y =>
    x.plotWrite (base + (cy + y) * planeStride pw + 2 * cx)
      ((List.range iw).flatMap fun i => leBytes 2 (at' (ox + i) (oy + y)))) s

/-- Write the planes of a picture into the slot at an address. -/
def State.planesWrite (s : State) (e c a : Nat) (p : DecPic) : State :=
  (List.range 3).foldl (fun (x : State) k => x.planeWrite e c a k p.fmt (p.sample k)) s

/-! ## Mosaics (R306) -/

/-- What a cell that did not output a picture shows: its good picture, or the fill. -/
def State.cellFill (s : State) (e c : Nat) : DecPic :=
  match (s.decCtx e c).good with
  | some g => { g with ctus := List.replicate g.fmt.total (.copied 0 0), source := some (g.id, g.fmt) }
  | none =>
    let p := s.getF (F.SE_CTX_CFG_PROFILE e c)
    let f : DecSet :=
      { width := s.ctxF e c 12 2, height := s.ctxF e c 14 2, cropW := s.ctxF e c 12 2, cropH := s.ctxF e c 14 2
        chroma := profileChroma p, depth := profileBits p }
    { number := 0, id := 0, cvs := 0, poc := 0, stamp := none, fmt := f, intra := true, irap := false
      ctus := List.replicate f.total .fill, concealed := 0, errors := 0, drift := false, poison := false, hashFail := false
      indep := false, indepOk := false, lastAddr := none, shown := true, mosaic := none, source := none }

/-- The lead completes the whole picture in progress: the cells that have not output it are filled and counted, and the
header is written last. -/
def State.mosClose (s : State) (e c : Nat) : State :=
  let (le, lc) := s.leadCell e c
  let x := s.decCtx le lc
  match x.mos, s.slotAddr le lc ((x.mos.map (·.out)).getD 0) with
  | some m, some a =>
    let miss := (s.cells le lc).filter fun (i, j) => !m.cells.contains (ctxKey i j)
    let (s1, n) := miss.foldl (fun (acc : State × Nat) (i, j) =>
      let q := acc.1.cellFill i j
      let t := acc.1.planesWrite i j a q
      ((t.decFlag i j 10 (some (10, q.fmt.total))).decError i j 9, acc.2 + q.fmt.total)) (s, 0)
    let (w, h) := s1.slotSize le lc
    let incomplete := !miss.isEmpty
    let flags := m.flags ||| (if incomplete then 2 + 32 else 0)
    let errors := m.errors ||| (if incomplete then 256 else 0)
    let head := picHeader m.stamp m.out m.poc w h m.format flags errors (m.concealed + n) (m.total + n)
    let s2 := s1.plotWrite a head
    let s3 := s2.setDec le lc { s2.decCtx le lc with mos := none, mosLast := some m.picture }
    (s3.setF (F.DEC_LAST_PICTURE le lc) m.out).setF (F.DEC_LAST_CONC_CTUS le lc) (m.concealed + n)
  | some m, none => s.setDec le lc { x with mos := none, mosLast := some m.picture }
  | none, _ => s

/-- PICTURE of a cell's picture: that of its descriptor, or the one the cell has yet to output. -/
def State.mosNumber (s : State) (e c : Nat) (p : DecPic) : Nat :=
  let (le, lc) := s.leadCell e c
  let x := s.decCtx le lc
  match p.mosaic, x.mos with
  | some n, _ => n
  | none, some m => if m.cells.contains (ctxKey e c) then (m.picture + 1) % 2 ^ 32 else m.picture
  | none, none => match x.mosLast with | some n => (n + 1) % 2 ^ 32 | none => 0

/-- A cell outputs its part of a whole picture. -/
def State.mosOutput (s : State) (e c : Nat) (p : DecPic) : State :=
  let (le, lc) := s.leadCell e c
  let n := s.mosNumber e c p
  let s1 := match (s.decCtx le lc).mos with
    | some m => if stampLater 32 n m.picture then s.mosClose le lc else s
    | none => s
  let x := s1.decCtx le lc
  let late := match x.mos, x.mosLast with
    | some m, _ => n != m.picture
    | none, some l => !stampLater 32 n l
    | none, none => false
  if late then s1
  else
    let m : MosPic := x.mos.getD
      { picture := n, out := x.outputs, stamp := p.stamp, poc := p.poc, cells := [], flags := 0, errors := 0
        concealed := 0, total := 0, format := p.fmt.format }
    let outputs := if x.mos.isNone then x.outputs + 1 else x.outputs
    let m1 : MosPic :=
      { m with
        cells := m.cells ++ [ctxKey e c], flags := m.flags ||| p.flags true, errors := m.errors ||| p.errors
        concealed := m.concealed + p.concealed, total := m.total + p.fmt.total, stamp := m.stamp.orElse fun _ => p.stamp }
    let s2 := s1.setDec le lc { x with mos := some m1, outputs }
    let s3 := match s2.slotAddr le lc m.out with
      | some a => s2.planesWrite e c a p
      | none => s2
    let s4 := ((s3.setF (F.DEC_LAST_PICTURE e c) m.out).setF (F.DEC_LAST_CONC_CTUS e c) p.concealed).addF
      (F.DEC_CNT_COUNT e c 12) 1
    if (s4.cells e c).all fun (i, j) => m1.cells.contains (ctxKey i j) then s4.mosClose le lc else s4

/-! ## Output and reports (R297, R305) -/

/-- Write one output picture to its slot, header last. -/
def State.picOutput (s : State) (e c : Nat) (p : DecPic) : State :=
  if s.ctxF e c 46 1 ≠ 0xFF then s.mosOutput e c p
  else
    let x := s.decCtx e c
    let n := x.outputs
    let s1 := s.setDec e c { x with outputs := n + 1 }
    let s2 := match s1.slotAddr e c n with
      | some a =>
        (s1.planesWrite e c a p).plotWrite a (picHeader p.stamp (n % 2 ^ 32) p.poc p.fmt.cropW p.fmt.cropH p.fmt.format
          (p.flags true) p.errors p.concealed p.fmt.total)
      | none => s1
    ((s2.setF (F.DEC_LAST_PICTURE e c) n).setF (F.DEC_LAST_CONC_CTUS e c) p.concealed).addF (F.DEC_CNT_COUNT e c 12) 1

/-- The next of the pictures that wait, in output order: the earliest sequence, and the lowest POC within it. -/
def nextOutput : List DecPic → Option DecPic
  | [] => none
  | p :: r =>
    match nextOutput r with
    | none => some p
    | some q => if p.cvs < q.cvs ∨ (p.cvs = q.cvs ∧ p.poc ≤ q.poc) then some p else some q

/-- Output the next picture that waits (R297). -/
def State.decOutput (s : State) (e c : Nat) : State :=
  let x := s.decCtx e c
  match nextOutput x.waiting with
  | none => s
  | some p => (s.setDec e c { x with waiting := x.waiting.filter (·.number != p.number) }).picOutput e c p

/-- Output every picture that waits. -/
def State.decOutputAll (s : State) (e c : Nat) : State :=
  (List.range (s.decCtx e c).waiting.length).foldl (fun (x : State) _ => x.decOutput e c) s

/-- The picture report (R305). -/
def State.decReport (s : State) (e c : Nat) (p : DecPic) : State :=
  let t := s.ctxF e c 44 2
  if t = 0xFFFF then s
  else
    let item := (picHeader p.stamp (p.number % 2 ^ 32) p.poc p.fmt.cropW p.fmt.cropH p.fmt.format
      (p.flags p.fmt.supported) p.errors p.concealed p.fmt.total).take 32
    (s.trugItem t item).when (!s.trugTakes t item.length) (·.decFlag e c 12 none)

end Machine

end Sys2Proof
end

