-- ==== Sys2Proof/Machine/EncRun.lean ====
section
/-!
DEFINITION. Encode contexts in operation: picture starts, CTU rows, slices, rate control and starvation
(spec/09_encoder.md, R263 to R288).
-/

namespace Sys2Proof.Machine

/-! ## Input (R263 to R266, R280) -/

/-- Whether a line comes from the sensor that an encode context takes: that of the bed's slot 0. -/
def State.encTakes (s : State) (e c : Nat) (b : List Byte) : Bool :=
  match s.encBed e c with
  | some n => (tagOf b).sensor == s.getF (F.BED_SENSOR_PORT n 0)
  | none => true

/-- The lead takes the next whole item of the tap trug and gives it to every cell (R280); none when none waits. `i` is
the place of its first word in what the command reads. -/
def State.encPull1 (s : State) (e c : Nat) (errs : List WordErr) (i : Nat) : Option (Nat × State) :=
  let (le, lc) := s.leadCell e c
  let t := s.ctxF le lc 8 2
  match headItem (s.trug t).ring with
  | none => none
  | some (ws, _) =>
    let (l, s1) := s.readUnit t errs i ws.length
    let b := l.flatMap TrugWord.valid
    let cut := l.any fun w => w.tag.getLsbD 5 && w.tag.getLsbD 6
    if cut || !s.encTakes le lc b then some (i + ws.length, s1)
    else
      let line := encLineOf b (l.any (·.tag.getLsbD 7))
      some (i + ws.length, (s1.cells e c).foldl (fun (x : State) (a, d) =>
        let y := x.encCtx a d
        if y.skip = some line.frame ∨ x.getF (F.SE_CTX_STATUS_STATE a d) = 3 then x
        else x.setEnc a d { y with inbox := y.inbox ++ [line], skip := none }) s1)

/-- Take items until a test on the context holds or none waits. -/
def State.encPull (s : State) (e c : Nat) (errs : List WordErr) (stop : EncCtx → Bool) (i : Nat) : Nat → State
  | 0 => s
  | fuel + 1 =>
    if stop (s.encCtx e c) then s
    else match s.encPull1 e c errs i with
      | none => s
      | some (j, s1) => State.encPull s1 e c errs stop j fuel

/-- Words that wait in the source trug of a context, which bound a pull. -/
def State.encFuel (s : State) (e c : Nat) : Nat :=
  let (le, lc) := s.leadCell e c
  (s.trug (s.ctxF le lc 8 2)).ring.length + 1

/-- Line `y` of a frame in the developed tap plot, if the bed has written it there (R213, R266). -/
def State.encPlotLine (s : State) (e c frame y : Nat) : Option EncLine :=
  match s.encBed e c with
  | none => none
  | some n =>
    match s.tapAddr n 0 1 frame y with
    | none => none
    | some a =>
      let (b, bad) := s.plotRead a (s.tapItemMax n 1 (s.graftGeom n 0).1)
      let l := encLineOf b bad
      if l.frame = frame ∧ l.line = y then some l else none

/-! ## Picture starts (R268 to R273, R277, R281 to R283) -/

/-- Coding order and types of a group of STRUCT 2: the anchor, then the three layers (R268). -/
def groupOrder : List (Nat × Nat) := [(7, 2), (3, 3), (1, 3), (5, 3), (0, 3), (2, 3), (4, 3), (6, 3)]

/-- A context under STRUCT 2 with no group in progress forms the next: one frame for an IDR picture, else eight. -/
def State.encGroup (s : State) (e c : Nat) : State :=
  let x := s.encCtx e c
  let period := s.ctxF e c 44 2
  let idr := x.idrNext || s.bit (F.SE_CTX_KEY_IDR e c) || s.bit (F.SE_CTX_KEY_SWEEP e c)
    || (decide (period ≠ 0) && decide (period ≤ x.sinceIdr)) || x.plan.any (·.2.1)
  if s.getF (F.SE_CTX_CFG_STRUCT e c) ≠ 2 ∨ !x.group.isEmpty then s
  else if idr then
    match x.ready with
    | (f, t) :: r => s.setEnc e c { x with ready := r, group := [(f, t, 0)] }
    | [] => s
  else if 8 ≤ x.ready.length then
    let l := groupOrder.map fun (i, ty) => ((x.ready.getD i (0, 0)).1, (x.ready.getD i (0, 0)).2, ty)
    s.setEnc e c { x with ready := x.ready.drop 8, group := l }
  else s

/-- Frame, short stamp and first line of a context's next picture, if it is ready. -/
def State.encNext (s : State) (e c : Nat) : Option (Nat × Nat × Option EncLine) :=
  let x := s.encCtx e c
  if s.getF (F.SE_CTX_CFG_INPUT e c) = 1 then x.inbox.head?.map fun l => (l.frame, l.stamp, some l)
  else
    let h := if s.getF (F.SE_CTX_CFG_STRUCT e c) = 2 then x.group.head?.map fun g => (g.1, g.2.1) else x.ready.head?
    h.map fun (f, t) => (f, t, (List.range 64).findSome? fun y => s.encPlotLine e c f y)

/-- The live encode contexts of an engine. -/
def State.encLive (s : State) (e : Nat) : List Nat := (List.range 8).filter fun c => s.ctxLive e c && s.ctxIs e c 0

/-- The long stamp nearest to corrected time whose low 48 bits are a short stamp (R281). -/
def State.nearStamp (s : State) (t : Nat) : Nat :=
  patternOf 64 ((s.longStamp : Int) + stampDiff 48 t (s.longStamp % 2 ^ 48))

/-- Insert emulation prevention bytes, as H.265 Annex B requires; `z` counts zero bytes just before. -/
def escapeNal : Nat → List Byte → List Byte
  | _, [] => []
  | z, b :: r =>
    if 2 ≤ z ∧ b.toNat ≤ 3 then 3#8 :: b :: escapeNal (if b = 0#8 then 1 else 0) r
    else b :: escapeNal (if b = 0#8 then z + 1 else 0) r

/-- The mosaic descriptor of a picture of a cell (R282). -/
def State.mosaicPayload (s : State) (e c number stamp : Nat) (key sweep starved poison : Bool) : List Byte :=
  let cs := s.cells e c
  let col (a b : Nat) : Nat := s.ctxF a b 47 1 % 16
  let row (a b : Nat) : Nat := s.ctxF a b 47 1 / 16
  let cols := (cs.map fun (a, b) => col a b + 1).foldl max 0
  let rows := (cs.map fun (a, b) => row a b + 1).foldl max 0
  let (le, lc) := s.leadCell e c
  let x0 := s.ctxF le lc 16 2
  let y0 := s.ctxF le lc 18 2
  let colX (k : Nat) : Nat := match cs.find? (fun (a, b) => col a b == k) with | some (a, b) => s.ctxF a b 16 2 - x0 | none => 0
  let rowY (k : Nat) : Nat := match cs.find? (fun (a, b) => row a b == k) with | some (a, b) => s.ctxF a b 18 2 - y0 | none => 0
  let fullW := (cs.map fun (a, b) => s.ctxF a b 16 2 + s.ctxF a b 12 2 - x0).foldl max 0
  let fullH := (cs.map fun (a, b) => s.ctxF a b 18 2 + s.ctxF a b 14 2 - y0).foldl max 0
  let be (n v : Nat) : List Byte := (leBytes n v).reverse
  let body := be 1 0xFF ++ be 1 0x51 ++ be 2 0x5442 ++ be 2 0x4D44 ++ be 1 1 ++ be 1 (26 + 2 * cols + 2 * rows)
    ++ be 2 s.origin ++ be 1 (s.ctxF e c 46 1) ++ be 1 (b2n key + 2 * b2n sweep + 4 * b2n starved + 8 * b2n poison)
    ++ be 4 number ++ be 8 stamp ++ be 1 cols ++ be 1 rows ++ be 1 (col e c) ++ be 1 (row e c) ++ be 2 fullW ++ be 2 fullH
    ++ (List.range cols).flatMap (fun k => be 2 (colX k)) ++ (List.range rows).flatMap fun k => be 2 (rowY k)
  body ++ be 2 (crc16 body)

/-- The SEI NAL unit of a descriptor: prefix SEI, payloadType 4. -/
def seiNal (p : List Byte) : List Byte :=
  [0#8, 0#8, 0#8, 1#8, 0x4E#8, 0x01#8] ++ escapeNal 0 (4#8 :: BitVec.ofNat 8 p.length :: p ++ [0x80#8])

/-- The NAL units that precede a picture's first slice (R262): their coded bytes, and the mosaic descriptor. -/
def State.leadNals (s : State) (e c : Nat) (p : EncPic) : List Byte :=
  let coded := (List.range (s.free % 170)).map (Config.codedByte s.freeCtr)
  if s.ctxF e c 46 1 = 0xFF then coded
  else coded ++ seiNal (s.mosaicPayload e c p.number p.stamp (p.type == 0) (p.sweep == some 0) p.starved.isSome p.poison)

/-- What the next picture of a context is: IDR or not, and whether it starts a sweep on request; and the requests that
merge in it (R268, R269, R288). -/
def State.encDecide (s : State) (e c : Nat) : Bool × Bool × Nat :=
  let x := s.encCtx e c
  let gir := s.getF (F.SE_CTX_CFG_GIR_N e c)
  let period := s.ctxF e c 44 2
  let auto := x.idrNext || (decide (period ≠ 0) && decide (period ≤ x.sinceIdr))
  let ki := s.bit (F.SE_CTX_KEY_IDR e c)
  let ks := s.bit (F.SE_CTX_KEY_SWEEP e c)
  let asIdr := ki || (ks && gir == 0)
  (auto || asIdr, ks && gir != 0, b2n (ki && ks) + b2n (auto && asIdr))

/-- Serve the key requests of a cell, as decided by the first cell of the mosaic to start the picture (R281). -/
def State.encPlan (s : State) (e c : Nat) : Bool × Bool × State :=
  let x := s.encCtx e c
  let clear (t : State) (a b : Nat) : State := (t.unflag (F.SE_CTX_KEY_IDR a b)).unflag (F.SE_CTX_KEY_SWEEP a b)
  match x.plan with
  | some (n, idr, sw) =>
    let s1 := s.setEnc e c { x with plan := none, idrNext := false }
    if n = x.count then (idr, sw, s1) else let (i, w, _) := s.encDecide e c; (i, w, clear s1 e c)
  | none =>
    let (idr, sw, merged) := s.encDecide e c
    let s1 := (s.cells e c).foldl (fun (t : State) (a, b) =>
      let y := t.encCtx a b
      (clear t a b).setEnc a b { y with
        idrNext := false, plan := if (a, b) = (e, c) then none else some (x.count, idr, sw) }) s
    (idr, sw, s1.addF (F.SE_CTX_CNT_COUNT e c 8) merged)

/-- A picture of context `c` begins with frame `f`, whose first line is `l` (R264, R265, R268, R271, R277, R278). -/
def State.encBegin (s : State) (e c f t : Nat) (l : EncLine) : State :=
  let base := s.applyStaged [R.SE_CTX_RC e c, R.SE_CTX_CAP e c]
  let (idr, sw, s1) := base.encPlan e c
  let x := s1.encCtx e c
  let gir := s1.getF (F.SE_CTX_CFG_GIR_N e c)
  let struct := s1.getF (F.SE_CTX_CFG_STRUCT e c)
  let type := if idr then 0 else if struct = 0 then 2 else if struct = 1 then 3 else ((x.group.head?.map (·.2.2)).getD 2)
  let pos : Option Nat := if idr ∨ gir = 0 then none else if sw then some 0 else x.sweep
  let next : Option Nat := if gir = 0 then none else match pos with | some i => some ((i + 1) % gir) | none => some 0
  let vbv := s1.encF e c
  let d := s1.encD e c
  let budget := min (s1.getF (F.SE_CTX_CAP_CAP e c)) vbv
  let t0 : Int := d + ((vbv : Int) - (s1.ctxF e c 32 4 : Nat) / 2) / 8
  let t1 : Int := if type ≤ 1 then 4 * t0 else if type = 3 then 3 * t0 / 4 else t0
  let p : EncPic :=
    { number := x.count % 2 ^ 32, type, frame := f, stamp := s1.nearStamp t, sweep := pos, poison := false, starved := none
      row := 0, budget, target := (clampInt 0 budget t1).toNat, used := 0, sliceLen := 0, slice := 0, sliceId := 0
      lead := [], items := 0, written := 0, eos := x.shedDue, format := l.format, flags := l.flags, srcW := l.width
      srcH := l.height, rows := [], stamps := [], ended := false, planes := [], rowBytes := [] }
  let lead := s1.leadNals e c p
  let qmin := s1.getF (F.SE_CTX_RC_QP_MIN e c)
  let qp := qmin + s1.freed.free % (s1.getF (F.SE_CTX_RC_QP_MAX e c) - qmin + 1)
  let s2 := s1.freed.freed
  let s3 := (s2.freed).setEnc e c { x with
    pic := some { p with lead, used := lead.length, sliceId := s2.freeCtr }, sweep := next
    ready := x.ready.filter (·.1 != f), group := x.group.filter (·.1 != f) }
  let busy := (List.range 8).any fun k => decide (k ≠ c) && decide ((s3.encCtx e k).count ≠ 0)
  let s4 := s3.when (busy && s3.getF (F.SE_STATUS_CURRENT e) != c) (·.bump (F.SE_SWITCHES_COUNT e))
  ((((s4.setF (F.SE_STATUS_CURRENT e) c).flag (F.SE_STATUS_BUSY e)).setF (F.SE_CTX_STATUS_STATE e c) 1).setF
    (F.SE_CTX_STATUS_SWEEP_POS e c) (pos.getD 0)).setF (F.SE_CTX_STATUS_QP e c) qp

/-- A frame whose tap format cannot be coded is passed over (R264). -/
def State.encFormatBad (s : State) (e c f : Nat) : State :=
  let x := s.encCtx e c
  ((s.setEnc e c { x with
      inbox := x.inbox.filter (·.frame != f), skip := some f, ready := x.ready.filter (·.1 != f)
      group := x.group.filter (·.1 != f) }).idrNext e c).seErr e c 2 (some (3, 1))

/-- ENC_PICTURE_START (R283): the ready picture with the earliest stamp begins, on equal stamps that of the lower
context. -/
def State.encStart (s : State) (e : Nat) (errs : List WordErr) : State :=
  if !s.up 6 || s.bit (F.SE_STATUS_BUSY e) then s
  else
    let live := s.encLive e
    let s1 := live.foldl (fun (x : State) c =>
      if x.getF (F.SE_CTX_CFG_INPUT e c) = 1 then x.encPull e c errs (fun y => !y.inbox.isEmpty) 0 (x.encFuel e c)
      else x.encGroup e c) s
    let ready := live.filterMap fun c => (s1.encNext e c).map fun n => (c, n)
    let best := ready.foldl (fun (acc : Option (Nat × Nat × Nat × Option EncLine)) r =>
      match acc with
      | none => some r
      | some a => if stampLater 48 a.2.2.1 r.2.2.1 then some r else acc) none
    match best with
    | none => live.foldl (fun (x : State) c => x.setF (F.SE_CTX_STATUS_STATE e c) 2) s1
    | some (c, f, t, some l) =>
      if canConvert l.format (s1.getF (F.SE_CTX_CFG_PROFILE e c)) then s1.encBegin e c f t l else s1.encFormatBad e c f
    | some (c, f, _, none) => s1.encFormatBad e c f

/-! ## Records (R286, R287) -/

/-- Rank of a real-time port in panic that outranks a stream engine, if there is one: beds 4, heads 5. -/
def State.panicRank (s : State) : Option Nat :=
  let ranks := s.hbm.panic.filterMap fun (k, p) =>
    if p then (if k / 131072 = 7 then some 5 else if k / 131072 = 6 then none else some 4) else none
  ranks.min?

/-- KEPT and REASON of a break of rank 6, where a cause of R287 holds. -/
def State.holdCause (s : State) : Option (Nat × Nat) :=
  if !s.power.steps.isEmpty then some (1, 2)
  else s.panicRank.map fun r => (r, 1)

/-- The engine's concession record for a break of its guarantee (R287). -/
def State.encBreak (s : State) (e c : Nat) : State :=
  match s.holdCause with
  | some (k, r) => s.concede 6 e 6 k r c
  | none => s

/-! ## Slices (R274 to R276) -/

/-- Ticks in which the source delivers 64 lines (R276). -/
def State.rowTicks (s : State) (e c : Nat) : Nat :=
  match s.encBed e c with
  | none => 0
  | some n =>
    let p := s.getF (F.BED_SENSOR_PORT n 0)
    64 * 32000000000 * s.portRec p 12 4 / (s.portRec p 8 4 * s.portRec p 6 2)

/-- The slice of a sub-frame context on its declared rate is late (R276). -/
def State.sliceLate (s : State) (e c : Nat) (p : EncPic) (rowStamp : Nat) : Bool :=
  let period := 32000000000 * s.ctxF e c 22 2 / s.ctxF e c 20 2
  let inRate := match (s.encCtx e c).lastStamp with
    | some t => decide ((period : Int) ≤ stampDiff 64 p.stamp t + 1)
    | none => true
  s.getF (F.SE_CTX_CFG_INPUT e c) == 1 && inRate
    && decide (stampDiff 48 s.shortStamp rowStamp > ((120 * 32000 + s.rowTicks e c : Nat) : Int))

/-- Write the slice in progress as one bitstream item (R275); the last of a picture fires Twine source 128 + e (R451). -/
def State.encItem (s : State) (e c : Nat) (p : EncPic) (starve last : Bool) (rowStamp : Nat) : EncPic × State :=
  let lead := if p.items = 0 then p.lead else []
  let coded := (List.range p.sliceLen).map (Config.codedByte p.sliceId)
  let nal := lead ++ coded
  let late := s.sliceLate e c p rowStamp
  let flags := b2n (p.items == 0) + 2 * b2n last + 4 * b2n (p.sweep == some 0) + 8 * b2n starve + 16 * b2n p.poison
    + 32 * b2n late + 64 * b2n (p.eos && last)
  let written := p.written + nal.length
  let head := leBytes 8 p.stamp ++ leBytes 4 p.number ++ leBytes 1 e ++ leBytes 1 c ++ leBytes 1 (s.ctxF e c 46 1)
    ++ leBytes 1 (s.ctxF e c 47 1) ++ leBytes 1 (if starve then 255 else p.slice) ++ leBytes 1 p.type ++ leBytes 1 flags
    ++ leBytes 1 0 ++ leBytes 4 nal.length ++ leBytes 4 written ++ leBytes 4 0
  let s1 := (s.trugItem (s.ctxF e c 10 2) (head ++ nal)).when last (·.fireSource (128 + e))
  let s2 := s1.when late fun x => (x.seErr e c 1 (some (2, 1))).encBreak e c
  ({ p with items := p.items + 1, written, sliceLen := 0, slice := p.slice + 1, sliceId := s2.freeCtr }, s2.freed)

/-! ## CTUs (R277 to R279) -/

/-- The reserve for `n` CTUs still to code (R279). -/
def ctuReserve (n : Nat) : Nat := 48 + 12 * n + 32

/-- Code one CTU with `rest` CTUs after it: under starvation at minimum cost, else at the size coding gives it, unless
that would leave less than the reserve; the starvation slice then opens at this CTU (R279). -/
def State.encCtu (s : State) (e c rest rowStamp : Nat) (p : EncPic) : EncPic × State :=
  let low := s.free % 13
  if p.starved.isSome then ({ p with used := p.used + low, sliceLen := p.sliceLen + low }, s.freed)
  else
    let z := Config.ctuSize s.freeCtr
    if p.used + z + ctuReserve rest ≤ p.budget then
      ({ p with used := p.used + z, sliceLen := p.sliceLen + z }, s.freed)
    else
      let s0 := s.freed
      let (p1, s1) := if p.sliceLen = 0 then (p, s0) else s0.encItem e c p false false rowStamp
      let h := s1.free % 49 + low
      ({ p1 with starved := some p.row, used := p1.used + h, sliceLen := h }, s1.freed)

/-- Code the CTUs of a row: `n` columns left, `rest` CTUs in the rows after. -/
def State.encCtus (s : State) (e c rest rowStamp : Nat) (p : EncPic) : Nat → EncPic × State
  | 0 => (p, s)
  | n + 1 =>
    let (p1, s1) := s.encCtu e c (n + rest) rowStamp p
    State.encCtus s1 e c rest rowStamp p1 n

/-- The last CTU row of slice `k` of `sl` slices over `r` rows (R274). -/
def sliceEnd (k r sl : Nat) : Nat := (k + 1) * r / sl - 1

/-- A picture is complete (R265, R277, R279): VBV, reports, and a shed context ends. -/
def State.encFinish (s : State) (e c : Nat) (p : EncPic) : State :=
  let x := s.encCtx e c
  let f := nextF (s.ctxF e c 32 4) (s.encF e c) p.used (s.encD e c)
  let s1 := s.setEnc e c { x with
    pic := none, count := x.count + 1, sinceIdr := if p.type = 0 then 0 else x.sinceIdr + 1, vbv := some f
    rowStats := x.rowStats.put [] p.type p.rowBytes, lastStamp := some p.stamp
    inbox := x.inbox.filter (·.frame != p.frame) }
  let s2 := (((s1.setF (F.SE_CTX_VBV_FULLNESS e c) f).setF (F.SE_CTX_PIC_PICTURE e c) p.number).setF
    (F.SE_CTX_SIZE_BYTES e c) p.used).unflag (F.SE_STATUS_BUSY e)
  let s3 := s2.setF (F.SE_CTX_STATUS_STATE e c) 0
  let s4 := match p.starved with
    | some r => (s3.seErr e c 0 (some (0, 1))).addF (F.SE_CTX_CNT_COUNT e c 1) (s.ctuRows e c - r)
    | none => s3
  let s5 := if p.poison then (s4.seErr e c 5 (some (5, 1))).idrNext e c else s4
  if p.eos then s5.shedNow e c else s5

/-! ## CTU rows (R274) -/

/-- SL 0 through the tap's encoder, one row of the tap frame (R265). -/
def State.encBlack (s : State) (e c : Nat) (p : EncPic) : List (List Nat) :=
  let n := (s.encBed e c).getD 0
  let ctl := (s.rd (R.BED_ENC_CTL n 0 0)).toNat
  let par := (s.rd (R.BED_ENC_PARAM n 0 0)).toNat
  let enc : BedEnc :=
    { curve := bitsOf p.format 0 3, depth := bitsOf p.format 3 2, layout := bitsOf p.format 5 2, narrow := p.format.testBit 7
      ycc2020 := ctl.testBit 8, pack := false, pqWhite := bitsOf par 0 16, hlgGain := bitsOf par 16 16 }
  enc.line (fun k => s.getS (F.BED_ENC_MTX_VALUE n 0 0 k)) (List.replicate 3 (List.replicate p.srcW 0))

/-- Move the lines of the picture's frame from the inbox into it; a line of another frame ends it (R265). -/
def EncCtx.gather (x : EncCtx) (p : EncPic) : EncCtx × EncPic :=
  let mine := x.inbox.takeWhile (·.frame == p.frame)
  let rest := x.inbox.dropWhile (·.frame == p.frame)
  ({ x with inbox := rest },
   { p with
      rows := mine.foldl (fun m l => SMap.insert m l.line l.comps) p.rows
      stamps := mine.foldl (fun m l => SMap.insert m l.line l.stamp) p.stamps
      poison := p.poison || mine.any (·.poison), ended := p.ended || mine.any (·.last) || !rest.isEmpty })

/-- Read the rows a CTU row needs from the plot (R266). -/
def State.encPlotRows (s : State) (e c : Nat) (p : EncPic) (y0 y1 : Nat) : EncPic :=
  let ls := (List.range (y1 - y0)).filterMap fun i => s.encPlotLine e c p.frame (y0 + i)
  { p with
    rows := ls.foldl (fun m l => SMap.insert m l.line l.comps) p.rows
    stamps := ls.foldl (fun m l => SMap.insert m l.line l.stamp) p.stamps
    poison := p.poison || ls.any (·.poison), ended := true }

/-- The words of plot space that are read for rows [y0, y1) of a frame (R347). -/
def State.encPlotReads (s : State) (e c frame y0 y1 : Nat) : State :=
  match s.encBed e c with
  | none => s
  | some n =>
    (List.range (y1 - y0)).foldl (fun (x : State) i =>
      match x.tapAddr n 0 1 frame (y0 + i) with
      | none => x
      | some a => x.noteRange a (x.tapItemMax n 1 (x.graftGeom n 0).1)) s

/-- Source rows of a CTU row as coded rows, with the lines filled at the frame's edge and for missing lines (R264,
R265). -/
def State.encRows (s : State) (e c : Nat) (p : EncPic) (y0 n : Nat) : List (List (List Nat)) × Nat × Nat :=
  let sx := s.ctxF e c 16 2
  let sy := s.ctxF e c 18 2
  let w := s.ctxF e c 12 2
  let profile := s.getF (F.SE_CTX_CFG_PROFILE e c)
  let black := s.encBlack e c p
  let row (i : Nat) : List (List Nat) :=
    let y := min (sy + y0 + i) (p.srcH - 1)
    match (p.rows.filter fun r => decide (r.1 ≤ y)).getLast? with
    | some r => r.2
    | none => black
  let geom := (List.range n).filter fun i => decide (p.srcH ≤ sy + y0 + i) || decide (p.srcW < sx + w)
  let missing := (List.range n).filter fun i =>
    decide (sy + y0 + i < p.srcH) && !(p.rows.any fun r => r.1 == sy + y0 + i)
  ((List.range n).map fun i => convertRow p.format profile sx w (row i), geom.length, missing.length)

/-- ENC_CTU_ROW_CODE (R265, R274, R278, R279, R286): the next CTU row of the current picture is coded once its rows have
come. `refCorr` words of the reference cache were corrected, and `refBad` says that a reference word could not be. -/
def State.encRow (s : State) (e : Nat) (errs : List WordErr) (refCorr : Nat) (refBad : Bool) : State :=
  let c := s.getF (F.SE_STATUS_CURRENT e)
  match (s.encCtx e c).pic with
  | none => s
  | some p0 =>
    if !s.ctxLive e c then s
    else
      let rows := s.ctuRows e c
      let h := s.ctxF e c 14 2
      let sy := s.ctxF e c 18 2
      let y0 := p0.row * 64
      let n := min 64 (h - y0)
      let need := min (sy + y0 + n - 1) (p0.srcH - 1)
      let sub := s.getF (F.SE_CTX_CFG_INPUT e c) == 1
      let stop (x : EncCtx) : Bool := x.inbox.any fun l => l.frame != p0.frame || l.last || decide (need ≤ l.line)
      let has := p0.ended || p0.rows.any fun r => decide (need ≤ r.1)
      let s1 := if !sub then s.encPlotReads e c p0.frame (sy + y0) (sy + y0 + n)
        else if has then s else s.encPull e c errs stop 0 (s.encFuel e c)
      let (x1, p1) := if sub then (s1.encCtx e c).gather p0
        else (s1.encCtx e c, s1.encPlotRows e c p0 (sy + y0) (sy + y0 + n))
      let s2 := s1.setEnc e c { x1 with pic := some p1 }
      if !(p1.ended || p1.rows.any fun r => decide (need ≤ r.1)) then s2.setF (F.SE_CTX_STATUS_STATE e c) 2
      else
        let (coded, geom, missing) := s2.encRows e c p1 y0 n
        let s3 := (s2.when (geom != 0) (·.seErr e c 3 (some (4, geom)))).when (missing != 0) fun x =>
          (x.seErr e c 4 (some (4, missing))).encBreak e c
        let s4 := s3.addF (F.SE_CTX_CNT_COUNT e c 7) refCorr
        let s5 := s4.when refBad (·.concede 6 e 6 2 0x0004 c)
        let planes := convertRows (s.getF (F.SE_CTX_CFG_PROFILE e c)) coded
        let p2 := { p1 with
          poison := p1.poison || refBad
          planes := (List.range 3).map fun i => p1.planes.getD i [] ++ planes.getD i [] }
        let stamp := p2.stamps.at p2.stamp (sy + y0)
        let cols := s.ctuCols e c
        let (p3, s6) := s5.encCtus e c (cols * (rows - 1 - p0.row)) stamp p2 cols
        let p4 := { p3 with row := p3.row + 1, rowBytes := p3.rowBytes ++ [p3.used - p2.used] }
        let qmin := s.getF (F.SE_CTX_RC_QP_MIN e c)
        let qmax := s.getF (F.SE_CTX_RC_QP_MAX e c)
        let qp := clampInt qmin qmax ((s6.getF (F.SE_CTX_STATUS_QP e c) : Int) + (s6.free % 5 : Nat) - 2)
        let s7 := (s6.freed.setF (F.SE_CTX_STATUS_QP e c) qp.toNat).setF (F.SE_CTX_STATUS_STATE e c) 1
        let sl := max (s.getF (F.SE_CTX_CFG_SLICE_COUNT e c)) 1
        if p4.row = rows then
          let tail := (if p4.eos then 6 else 0) + s7.free % 27
          let p5 := { p4 with used := p4.used + tail, sliceLen := p4.sliceLen + tail }
          let (p6, s8) := s7.freed.encItem e c p5 p5.starved.isSome true stamp
          s8.encFinish e c p6
        else if p4.starved.isNone ∧ sliceEnd p4.slice rows sl = p0.row then
          let (p5, s8) := s7.encItem e c p4 false false stamp
          s8.setEnc e c { s8.encCtx e c with pic := some p5 }
        else s7.setEnc e c { s7.encCtx e c with pic := some p4 }

/-- A CAP write (R277): at the context's next picture, or ignored below M. -/
def State.capWrite (s : State) (e c : Nat) (v : Word) : State :=
  if !s.up 6 || !s.ctxIs e c 0 then s
  else if v.toNat < s.encM e c then s.seErr e c 8 none
  else s.stage (R.SE_CTX_CAP e c) v

end Sys2Proof.Machine
end

