-- ==== Sys2Proof/Machine/DecRun.lean ====
section
/-!
DEFINITION. Decode contexts in operation: input, NAL units, resynchronisation, concealment and completion
(spec/10_decoder.md, R295 to R308).
-/

namespace Sys2Proof.Machine

/-! ## Concealment (R302, R303) -/

/-- Median of three. -/
def median3 (a b c : Int) : Int := max (min a b) (min (max a b) c)

/-- The vector that a damaged CTU is concealed with. -/
def concealVector (intra : Bool) (cols : Nat) (l : List DecCtu) (a : Nat) : Int × Int :=
  let top (i : Nat) : Option (Int × Int) := match l.getD i .missing with | .decoded t _ => t | _ => none
  let bottom (i : Nat) : Option (Int × Int) := match l.getD i .missing with | .decoded _ b => b | _ => none
  let x := a % cols
  let left := if x = 0 then none else top (a - 1)
  let above := if a < cols then none else bottom (a - cols)
  let right := if a < cols ∨ x + 1 = cols then none else bottom (a - cols + 1)
  if intra then (0, 0)
  else match left, above, right with
    | some u, some v, some w => (median3 u.1 v.1 w.1, median3 u.2 v.2 w.2)
    | some u, _, _ => u
    | none, some v, _ => v
    | none, none, some w => w
    | none, none, none => (0, 0)

/-- A picture with every CTU that has not been decoded concealed from the good picture. -/
def DecPic.conceal (p : DecPic) (good : Option DecPic) : DecPic :=
  let l := p.ctus
  let done := l.zipIdx.map fun (q, a) =>
    match q with
    | .missing =>
      match good with
      | some _ => let (x, y) := concealVector p.intra p.fmt.cols l a; .copied x y
      | none => .fill
    | q => q
  { p with
    ctus := done, concealed := p.concealed + l.count .missing, source := good.map fun g => (g.id, g.fmt) }

/-! ## Completion (R300 to R305) -/

/-- DRIFT no longer follows from the pictures held (R301, R304). -/
def DecCtx.recover (x : DecCtx) : DecCtx :=
  { x with
    drift := false, recovery := none, recoveryAt := none
    dpb := x.dpb.map fun p => { p with drift := false, concealed := 0, errors := 0 } }

/-- STATUS of a decode context. -/
def State.decStatus (s : State) (e c : Nat) (state : Nat) : State :=
  let x := s.decCtx e c
  let drift := x.drift || (match x.cur with | some p => p.drift | none => (x.dpb.getLast?.map (·.drift)).getD false)
  let s1 := ((s.setB (F.DEC_STATUS_DRIFT e c) drift).setB (F.DEC_STATUS_GOOD e c) x.good.isSome).setB
    (F.SE_STATUS_BUSY e) x.cur.isSome
  if s1.getF (F.DEC_STATUS_STATE e c) = 3 then s1 else s1.setF (F.DEC_STATUS_STATE e c) state

/-- CONTEXT_SHED takes effect at a picture boundary (R308). -/
def State.decShed (s : State) (e c : Nat) : State :=
  if (s.decCtx e c).shedDue then
    let s1 := s.decOutputAll e c
    (s1.setDec e c { s1.decCtx e c with shedDue := false }).setF (F.DEC_STATUS_STATE e c) 3
  else s

/-- The picture in progress is completed: what has not been decoded is concealed, the report goes out, and the picture
waits for output and serves as a reference. -/
def State.decComplete (s : State) (e c : Nat) : State :=
  let x := s.decCtx e c
  match x.cur with
  | none => s
  | some p0 =>
    if !p0.fmt.supported then
      ((s.setDec e c { x with cur := none }).decReport e c p0).decStatus e c 1 |>.decShed e c
    else
      let p := p0.conceal x.good
      let bad := decide (0 < p.concealed) || p.errors.testBit 4
      let good := if bad || p.drift then x.good else some p
      let keep := max (s.ctxF e c 6 1) 1
      let dpb := (x.dpb ++ [p]).drop ((x.dpb.length + 1) - keep)
      let y : DecCtx :=
        { x with
          cur := none, good, dpb, waiting := if p.shown then x.waiting ++ [p] else x.waiting
          drift := x.drift || (p.irap && p.errors != 0) }
      let s1 := (s.setDec e c y).decReport e c p
      let s2 := s1.when (decide (0 < p.concealed)) (·.decFlag e c 10 (some (10, p.concealed)))
      (s2.decStatus e c 1).decShed e c

/-! ## Slices (R299 to R304) -/

/-- The parameter sets a slice refers to: none when one is absent; else the format, marked unsupported if any is. -/
def DecCtx.format (x : DecCtx) (pps : Nat) : Option DecSet :=
  match x.sets.at none (34 * 64 + pps) with
  | none => none
  | some p =>
    match x.sets.at none (33 * 64 + p.parent) with
    | none => none
    | some q =>
      match x.sets.at none (32 * 64 + q.parent) with
      | none => none
      | some v => some { q with supported := p.supported && q.supported && v.supported }

/-- A new picture begins. -/
def State.decBegin (s : State) (e c t : Nat) (f : DecSet) (n : NalSeen) : State :=
  let s0 := s.decComplete e c
  let irap := decide (16 ≤ t) && decide (t ≤ 21)
  let x0 := s0.decCtx e c
  let startIrap := irap && (x0.fresh || decide (t < 21) || x0.drift || !x0.started)
  let damaged := x0.drift || !x0.started || x0.fresh
  let x1 := if irap then x0.recover else x0
  let x2 := if startIrap then { x1 with dpb := [], cvs := x1.cvs + 1, dropRasl := decide (t < 21) || damaged, fresh := false }
    else if irap then { x1 with dropRasl := false } else x1
  let at' := match x2.recovery with | some k => some (n.poc + k) | none => x2.recoveryAt
  let x3 := { x2 with recovery := none, recoveryAt := at' }
  let x4 := match at' with
    | some a => if a ≤ n.poc then x3.recover else x3
    | none => x3
  let refs := if irap then [] else n.refs
  let held (p : Int) : Option DecPic := x4.dpb.find? fun d => d.poc == p
  let missing := refs.any fun r => (held r.1).isNone
  let tainted := refs.any fun r => r.2 && (match held r.1 with
    | some d => d.drift || decide (0 < d.concealed) || d.errors.testBit 4
    | none => true)
  let p : DecPic :=
    { number := x4.decoded, id := s0.freeCtr, cvs := x4.cvs, poc := n.poc
      stamp := if x4.stamp.isSome then x4.stamp else x4.descriptor.map (·.2), fmt := f, intra := true, irap
      ctus := List.replicate f.total .missing, concealed := 0, errors := if f.supported then 0 else 512
      drift := x4.drift || tainted, poison := false, hashFail := false, indep := false, indepOk := false, lastAddr := none
      shown := n.shown, mosaic := x4.descriptor.map (·.1), source := none }
  let s1 := (s0.freed).setDec e c { x4 with
    cur := some p, decoded := x4.decoded + 1, descriptor := none, stamp := none, started := true
    dpb := x4.dpb.filter fun d => irap || refs.any fun r => r.1 == d.poc }
  let s2 := s1.when irap (·.unflag (F.DEC_CTL_RESYNC e c))
  s2.when (missing && f.supported) (·.decError e c 5)

/-- The class of the first error of a slice segment, by its address and the picture it belongs to (R299). -/
def sliceError (p : DecPic) (n : NalSeen) : Nat :=
  let beyond := decide (p.fmt.total ≤ n.addr)
  let order := match p.lastAddr with | some a => decide (n.addr ≤ a) | none => false
  if beyond || order || (n.dependent && !p.indep) then 3 else 0

/-- The CTUs of a slice segment are decoded into the picture in progress. -/
def State.decCtus (s : State) (e c : Nat) (n : NalSeen) : State :=
  let x := s.decCtx e c
  match x.cur with
  | none => s
  | some p =>
    let vec (v : Option (Int × Int × Int)) : Option (Int × Int) :=
      match v, x.good with
      | some (mx, my, ref), some g => if g.cvs = p.cvs ∧ g.poc = ref then some (mx, my) else none
      | _, _ => none
    let ctus := n.ctus.foldl (fun (l : List DecCtu) q => l.set q.addr (.decoded (vec q.topRight) (vec q.bottomLeft))) p.ctus
    s.setDec e c { x with cur := some { p with ctus, concealed := p.concealed + (n.ctus.filter (·.missing)).length } }

/-- A slice segment (R299 to R301). `err` is a class already found in its NAL unit, 0 for none. -/
def State.decSlice (s : State) (e c t err : Nat) (n : NalSeen) : State :=
  let x := s.decCtx e c
  let irap := decide (16 ≤ t) && decide (t ≤ 21)
  if (!x.started && !irap) || ((t == 8 || t == 9) && x.dropRasl) then s
  else match x.format n.id with
  | none => (if n.first then s.decComplete e c else s).decError e c (if err = 0 then 2 else err)
  | some f =>
    let fresh := n.first || (match x.cur with | some p => p.poc != n.poc | none => true)
    let s1 := if fresh then s.decBegin e c t f n else s
    match (s1.decCtx e c).cur with
    | none => s1
    | some p =>
      if !p.fmt.supported then s1
      else if n.dependent && p.indep && !p.indepOk then s1
      else
        let k := sliceError p n
        let k1 := if err ≠ 0 then err else if k ≠ 0 then k else if n.refBad then 7 else n.err
        let store := k1 = 0 ∨ (4 ≤ k1 ∧ k1 ≤ 7)
        let p1 := { p with
          intra := p.intra && n.intra, lastAddr := if k = 0 then some n.addr else p.lastAddr
          indep := p.indep || !n.dependent, indepOk := if n.dependent then p.indepOk else k1 == 0 }
        let s2 := s1.setDec e c { s1.decCtx e c with cur := some p1 }
        let s3 := if store then s2.decCtus e c n else s2
        let s4 := s3.when (n.refBad && decide (k1 = 7)) (·.concede 6 e 6 2 0x0004 c)
        s4.when (k1 != 0) fun y => (y.decError e c k1).when (k1 != 5 && k1 != 2) (·.flag (F.DEC_STATUS_SEARCHING e c))

/-! ## Parameter sets and SEI (R295, R301, R306) -/

/-- A parameter set: one with an error of class 2 is discarded and the set its identifier had stays (R301). -/
def State.decParam (s : State) (e c t err : Nat) (n : NalSeen) : State :=
  let x := s.decCtx e c
  let k := if err ≠ 0 then err else n.err
  if k ≠ 0 then s.decError e c k
  else
    let big := t = 33 ∧ (s.ctxF e c 12 2 < n.width ∨ s.ctxF e c 14 2 < n.height)
    let high := s.getF (F.SE_CTX_CFG_PROFILE e c) < n.profile
    let ok := !(decide big || decide (high ∧ t ≠ 34))
    let v : DecSet :=
      { parent := n.parent, supported := ok, width := n.width, height := n.height, cropX := n.cropX, cropY := n.cropY
        cropW := n.cropW, cropH := n.cropH, chroma := n.chroma, depth := n.depth, ctb := max n.ctb 1 }
    (s.setDec e c { x with sets := x.sets.put none (t * 64 + n.id) (some v) }).when (!ok) (·.decError e c 10)

/-- The payload of a NAL unit without its emulation prevention bytes. -/
def unescapeNal : Nat → List Byte → List Byte
  | _, [] => []
  | z, b :: r =>
    if 2 ≤ z ∧ b = 3#8 then unescapeNal 0 r
    else b :: unescapeNal (if b = 0#8 then z + 1 else 0) r

/-- A value coded as 0xFF bytes and a last byte, as SEI payload types and sizes are, and what follows it. -/
def seiValue : List Byte → Nat × List Byte
  | [] => (0, [])
  | b :: r => if b = 255#8 then let (v, t) := seiValue r; (255 + v, t) else (b.toNat, r)

/-- The payloads of an SEI message sequence: type and bytes. -/
def seiPayloads : Nat → List Byte → List (Nat × List Byte)
  | 0, _ => []
  | fuel + 1, l =>
    if l.length ≤ 1 then []
    else
      let (ty, r) := seiValue l
      let (n, q) := seiValue r
      (ty, q.take n) :: seiPayloads fuel (q.drop n)

/-- A big-endian field of a byte list. -/
def beField (l : List Byte) (o n : Nat) : Nat := leNat ((l.drop o).take n).reverse

/-- A user-data payload is a mosaic descriptor (R282, R306). -/
def isDescriptor (p : Nat × List Byte) : Bool :=
  p.1 == 4 && beField p.2 0 1 == 0xFF && beField p.2 1 1 == 0x51 && beField p.2 2 2 == 0x5442 && beField p.2 4 2 == 0x4D44

/-- A descriptor passes its CRC and agrees with the context's record. -/
def State.descriptorOk (s : State) (e c : Nat) (b : List Byte) : Bool :=
  let n := b.length
  let cols := beField b 24 1
  let rows := beField b 25 1
  let col := beField b 26 1
  let row := beField b 27 1
  decide (n = 34 + 2 * cols + 2 * rows) && beField b 6 1 == 1 && beField b 7 1 == n - 8
    && beField b (n - 2) 2 == crc16 (b.take (n - 2))
    && beField b 10 1 == s.ctxF e c 46 1 && col == s.ctxF e c 47 1 % 16 && row == s.ctxF e c 47 1 / 16
    && decide (col < cols) && decide (row < rows)
    && beField b (32 + 2 * col) 2 == s.ctxF e c 16 2 && beField b (32 + 2 * cols + 2 * row) 2 == s.ctxF e c 18 2
    && (beField b 28 2, beField b 30 2) == s.slotSize e c

/-- An SEI NAL unit. -/
def State.decSei (s : State) (e c err : Nat) (l : List Byte) (n : NalSeen) : State :=
  if err ≠ 0 then s.decError e c err
  else
    let body := unescapeNal 0 (l.drop 2)
    let ds := (seiPayloads body.length body).filter isDescriptor
    let s1 : State := if s.ctxF e c 46 1 = 0xFF then s
      else ds.foldl (fun (x : State) d =>
        if x.descriptorOk e c d.2 then
          x.setDec e c { x.decCtx e c with descriptor := some (beField d.2 12 4, beField d.2 16 8) }
        else x.decError e c 9) s
    let s2 : State := match n.recovery with
      | some k => s1.setDec e c { s1.decCtx e c with recovery := some k }
      | none => s1
    if n.hashBad && (s.ctxF e c 27 1).testBit 4 && (s2.decCtx e c).cur.isSome then
      let s3 := s2.decError e c 8
      let x := s3.decCtx e c
      s3.setDec e c { x with cur := x.cur.map fun p => { p with hashFail := true } }
    else s2

/-! ## NAL units (R295, R299, R300) -/

/-- What follows the first start code prefix. -/
def afterStart : List (Byte × Bool) → Option (List (Byte × Bool))
  | a :: b :: d :: t => if a.1 = 0#8 ∧ b.1 = 0#8 ∧ d.1 = 1#8 then some t else afterStart (b :: d :: t)
  | _ => none

/-- The NAL unit at the head of a byte stream, and what follows it from the next start code prefix or zero bytes. -/
def takeNal : List (Byte × Bool) → List (Byte × Bool) × List (Byte × Bool)
  | [] => ([], [])
  | a :: r =>
    let stop : Bool := match r with
      | b :: d :: _ => a.1 == 0#8 && b.1 == 0#8 && (d.1 == 0#8 || d.1 == 1#8)
      | _ => false
    if stop then ([], a :: r) else let (x, y) := takeNal r; (a :: x, y)

/-- Trailing zero bytes are no part of a NAL unit. -/
def trimZeros (l : List (Byte × Bool)) : List (Byte × Bool) := (l.reverse.dropWhile (·.1 == 0#8)).reverse

/-- An emulation-prevention violation: two zero bytes and then 2, or 3 and a byte above 3 (R299). -/
def emulationBad : Nat → List Byte → Bool
  | _, [] => false
  | z, b :: r =>
    if 2 ≤ z ∧ b = 2#8 then true
    else if 2 ≤ z ∧ b = 3#8 then (match r with | d :: _ => decide (3 < d.toNat) | [] => false) || emulationBad 0 r
    else emulationBad (if b = 0#8 then z + 1 else 0) r

/-- A NAL unit is decoded; `cut` says that its item or the ring ended inside it. -/
def State.decNal (s : State) (e c : Nat) (nal : List (Byte × Bool)) (cut : Bool) (n : NalSeen) : State :=
  let l := nal.map (·.1)
  let t := byteAt l 0 / 2 % 64
  let layer := byteAt l 0 % 2 * 32 + byteAt l 1 / 8
  if layer ≠ 0 ∨ 48 ≤ t then s.addF (F.DEC_CNT_COUNT e c 11) 1
  else
    let bad := 128 ≤ byteAt l 0 ∨ byteAt l 1 % 8 = 0 ∨ (22 ≤ t ∧ t ≤ 31) ∨ (41 ≤ t ∧ t ≤ 47) ∨ emulationBad 0 l = true
    let poison := nal.any (·.2)
    let n1 := if nal.all (·.2) then { n with ctus := [] } else n
    let err := if bad then 1 else if poison then 7 else if cut ∧ n.err = 0 then 6 else 0
    let search (x : State) : State := x.when (err != 0) (·.flag (F.DEC_STATUS_SEARCHING e c))
    let begins := (32 ≤ t ∧ t ≤ 37) ∨ t = 39 ∨ (41 ≤ t ∧ t ≤ 44)
    let s1 := if begins ∧ ((s.decCtx e c).cur.any fun p => p.lastAddr.isSome || p.errors != 0) then s.decComplete e c else s
    if err = 1 then search (s1.decError e c 1)
    else if t ≤ 9 ∨ (16 ≤ t ∧ t ≤ 21) then s1.decSlice e c t err n1
    else if 32 ≤ t ∧ t ≤ 34 then search (s1.decParam e c t err n)
    else if t = 36 ∨ t = 37 then s1.setDec e c { s1.decCtx e c with fresh := true }
    else if t = 39 ∨ t = 40 then search (s1.decSei e c err l n)
    else search (s1.when (err != 0) (·.decError e c err))

/-! ## Input (R296) -/

/-- The next bitstream item of the input trug is taken. -/
def State.decPull (s : State) (e c : Nat) (errs : List WordErr) : Option State :=
  let t := s.ctxF e c 8 2
  match headItem (s.trug t).ring with
  | none => none
  | some (ws, _) =>
    let (l, s1) := s.readUnit t errs 0 ws.length
    let all := l.flatMap fun w => w.valid.map fun b => (b, w.tag.getLsbD 7)
    let cut := l.any fun w => w.tag.getLsbD 5 && w.tag.getLsbD 6
    let head := (all.take 32).map (·.1)
    let flags := byteAt head 18
    let n := fieldAt head 20 4
    let body := (all.drop 32).take n
    let poison := flags.testBit 4 || (all.take 32).any (·.2)
    let x := s1.decCtx e c
    some (s1.setDec e c { x with
      buf := if poison then body.map fun q => (q.1, true) else body
      bufCut := cut || decide (body.length < n), bufEnd := flags.testBit 1
      stamp := if flags.testBit 0 then some (fieldAt head 0 8) else x.stamp })

/-- The bytes of the input ring that wait, each with whether its word is poisoned, and the ring's size. -/
def State.decRing (s : State) (e c : Nat) : List (Byte × Bool) × Nat :=
  match s.plot? (s.ctxF e c 8 2) with
  | none => ([], 1)
  | some p =>
    let size := max p.size 1
    let rd := s.getF (F.DEC_RD_OFFSET e c) % size
    let n := (s.getF (F.DEC_WR_OFFSET e c) % size + size - rd) % size
    ((List.range n).map fun i =>
      let a := p.base + (rd + i) % size
      (s.hbm.byte a, s.hbm.bad a), size)

/-- Nothing is left to read. -/
def State.decEmpty (s : State) (e c : Nat) : Bool :=
  if s.getF (F.SE_CTX_CFG_INPUT e c) = 1 then
    (s.decCtx e c).buf.isEmpty && (headItem (s.trug (s.ctxF e c 8 2)).ring).isNone
  else (s.decRing e c).1.isEmpty

/-- The next NAL unit of an input trug, taking items until one holds a NAL unit. -/
def State.decNextItem (s : State) (e c : Nat) (errs : List WordErr) (n : NalSeen) : Nat → Option State
  | 0 => none
  | fuel + 1 =>
    let x := s.decCtx e c
    match afterStart x.buf with
    | some b =>
      let (nal, rest) := takeNal b
      let last := (afterStart rest).isNone
      let s1 := s.setDec e c { x with buf := if last then [] else rest }
      let s2 := (s1.unflag (F.DEC_STATUS_SEARCHING e c)).decNal e c (trimZeros nal) (last && x.bufCut) n
      some (if last && x.bufEnd then s2.decComplete e c else s2)
    | none =>
      match (s.setDec e c { x with buf := [] }).decPull e c errs with
      | some s1 => State.decNextItem s1 e c errs n fuel
      | none => none

/-- The words of the input ring that are read as `left` of the `n` bytes that wait remain (R347). -/
def State.ringRead (s : State) (e c n left : Nat) : State :=
  match s.plot? (s.ctxF e c 8 2) with
  | none => s
  | some p =>
    let size := max p.size 1
    let rd := s.getF (F.DEC_RD_OFFSET e c) % size
    let used := n - left
    if rd + used ≤ size then s.noteRange (p.base + rd) used
    else (s.noteRange (p.base + rd) (size - rd)).noteRange p.base (rd + used - size)

/-- The next NAL unit of an input ring: one that a further start code, or the end of the input, closes. -/
def State.decNextRing (s : State) (e c : Nat) (n : NalSeen) : Option State :=
  let (l, size) := s.decRing e c
  let eos := s.bit (F.DEC_CTL_EOS e c)
  let move (x : State) (left : Nat) : State :=
    x.setF (F.DEC_RD_OFFSET e c) ((x.getF (F.DEC_RD_OFFSET e c) % size + (l.length - left)) % size)
  match afterStart l with
  | none => if l.isEmpty then none else if eos then some (move s 0) else none
  | some b =>
    let (nal, rest) := takeNal b
    if rest.isEmpty && !eos then none
    else some (((move (s.ringRead e c l.length rest.length) rest.length).unflag (F.DEC_STATUS_SEARCHING e c)).decNal e c (trimZeros nal) false n)

/-! ## Flush, resynchronisation, end of stream (R301, R308) -/

/-- A flush: the picture in progress is completed, every picture is output, and the good picture is forgotten. -/
def State.decFlush (s : State) (e c : Nat) : State :=
  let s1 := (s.decComplete e c).decOutputAll e c
  ((s1.setDec e c { s1.decCtx e c with good := none }).decStatus e c (s1.getF (F.DEC_STATUS_STATE e c))).unflag
    (F.DEC_CTL_FLUSH e c)

/-- With EOS set, the decoder flushes once its input is empty. -/
def State.decEosCheck (s : State) (e c : Nat) : State :=
  if s.bit (F.DEC_CTL_EOS e c) && s.decEmpty e c then s.decFlush e c else s

/-- A decode context works. -/
def State.decOn (s : State) (e c : Nat) : Bool := s.ctxLive e c && s.ctxIs e c 1

/-- DEC_NAL_UNIT (R296, R300): the context reads its next NAL unit and decodes it. -/
def State.decNalCmd (s : State) (e c : Nat) (n : NalSeen) (errs : List WordErr) : State :=
  if !s.decOn e c || (s.bit (F.SE_STATUS_BUSY e) && s.getF (F.SE_STATUS_CURRENT e) != c) then s
  else
    let s0 := if (s.decCtx e c).cur.isNone then s.decShed e c else s
    if s0.getF (F.DEC_STATUS_STATE e c) = 3 then s0
    else
      let next := if s0.getF (F.SE_CTX_CFG_INPUT e c) = 1 then
          s0.decNextItem e c errs n ((s0.trug (s0.ctxF e c 8 2)).ring.length + 2)
        else s0.decNextRing e c n
      match next with
      | none => (s0.setF (F.DEC_STATUS_STATE e c) 2).decEosCheck e c
      | some s1 =>
        let used := (List.range 8).any fun k => decide (k ≠ c) && s1.bit (F.SE_CTX_CFG_VALID e k)
        let s2 := s1.when (used && s1.getF (F.SE_STATUS_CURRENT e) != c) (·.bump (F.SE_SWITCHES_COUNT e))
        ((s2.setF (F.SE_STATUS_CURRENT e) c).decStatus e c 1).decEosCheck e c

/-- DEC_PICTURE_OUTPUT (R297, R307): the next picture in output order is written to its slot. -/
def State.decOutputCmd (s : State) (e c : Nat) (late : Bool) : State :=
  if !(s.up 6 && s.ctxIs e c 1) then s
  else
    let done := (s.decCtx e c).cur.any fun p => p.lastAddr.isSome && !p.ctus.contains .missing
    let s1 := if (s.decCtx e c).waiting.isEmpty && done then s.decComplete e c else s
    if (s1.decCtx e c).waiting.isEmpty then s1
    else (s1.decOutput e c).when late fun x => (x.decFlag e c 11 (some (13, 1))).encBreak e c

end Sys2Proof.Machine
end

