-- ==== Sys2Proof/Machine/Decoder.lean ====
section
/-!
DEFINITION. The commands of spec/10_decoder.md.
-/

namespace Sys2Proof.Machine

/-- DEC_NAL_UNIT (R296, R299 to R304). -/
def execDecNalUnit (e c : Nat) (seen : NalSeen) (errs : List WordErr) (mem : List MemErr) (s : State) :
    Host.Outcome State Fault Refusal :=
  .next ((if s.up 6 then s.meet mem else s).decNalCmd e c seen errs)

/-- DEC_PICTURE_OUTPUT (R297, R306, R307). -/
def execDecPictureOutput (e c : Nat) (late : Bool) (s : State) : Host.Outcome State Fault Refusal :=
  .next (s.decOutputCmd e c late)

/-- DEC_WR_WRITE (R296): the host moves the write pointer of an input ring. -/
def execDecWrWrite (e c : Nat) (val : Word) (s : State) : Host.Outcome State Fault Refusal :=
  .next (s.bus 6 fun s => if s.up 6 && s.ctxIs e c 1 then s.wr (R.DEC_WR e c) val else s)

/-- DEC_FLUSH (R308). -/
def execDecFlush (e c : Nat) (s : State) : Host.Outcome State Fault Refusal :=
  .next (s.bus 6 fun s => if s.decOn e c then (s.flag (F.DEC_CTL_FLUSH e c)).decFlush e c else s)

/-- DEC_RESYNC (R301, R308): input is discarded up to the next IRAP picture, and DRIFT marks what follows until it. -/
def execDecResync (e c : Nat) (s : State) : Host.Outcome State Fault Refusal :=
  .next <| s.bus 6 fun s =>
    if s.decOn e c then
      let s1 := (s.flag (F.DEC_CTL_RESYNC e c)).decComplete e c
      (s1.setDec e c { s1.decCtx e c with started := false, drift := true }).decStatus e c
        (s1.getF (F.DEC_STATUS_STATE e c))
    else s

/-- DEC_EOS (R309): the input is complete. -/
def execDecEos (e c : Nat) (s : State) : Host.Outcome State Fault Refusal :=
  .next (s.bus 6 fun s => if s.decOn e c then (s.flag (F.DEC_CTL_EOS e c)).decEosCheck e c else s)

/-- MOSAIC_HEADER_TIMEOUT (R306). -/
def execMosaicHeaderTimeout (e c : Nat) (s : State) : Host.Outcome State Fault Refusal :=
  .next (if s.up 6 && s.ctxIs e c 1 then s.mosClose e c else s)

end Sys2Proof.Machine
end

