-- ==== Sys2Proof/Machine/Encoder.lean ====
section
/-!
DEFINITION. The commands of spec/09_encoder.md.
-/

namespace Sys2Proof.Machine

/-- ENC_PICTURE_START (R283). -/
def execEncPictureStart (e : Nat) (errs : List WordErr) (mem : List MemErr) (s : State) :
    Host.Outcome State Fault Refusal :=
  .next ((if s.up 6 then s.meet mem else s).encStart e errs)

/-- ENC_CTU_ROW_CODE (R274, R279). -/
def execEncCtuRowCode (e : Nat) (errs : List WordErr) (mem : List MemErr) (refCorr : Nat) (refBad : Bool) (s : State) :
    Host.Outcome State Fault Refusal :=
  .next ((if s.up 6 then s.meet mem else s).encRow e errs refCorr refBad)

/-- ENC_KEY_IDR (R269). -/
def execEncKeyIdr (e c : Nat) (s : State) : Host.Outcome State Fault Refusal :=
  .next (s.bus 6 fun s => if s.up 6 then s.keyRequest e c false else s)

/-- ENC_KEY_SWEEP (R269). -/
def execEncKeySweep (e c : Nat) (s : State) : Host.Outcome State Fault Refusal :=
  .next (s.bus 6 fun s => if s.up 6 then s.keyRequest e c true else s)

/-- SE_CAP_WRITE (R277). -/
def execSeCapWrite (e c : Nat) (val : Word) (s : State) : Host.Outcome State Fault Refusal :=
  .next (s.bus 6 fun s => s.capWrite e c val)

end Sys2Proof.Machine
end

