-- ==== Sys2Proof/Machine/Global.lean ====
section
/-!
DEFINITION. The commands of spec/01_organisation.md that touch no other block: register timeouts, BAR2 and the host's
read index of the Gardener log.
-/

namespace Sys2Proof.Machine

/-- REG_ACCESS_TIMEOUT (R28): an access not answered within 10 µs reads 0 or is dropped, and sets REG_TIMEOUT. -/
def execRegAccessTimeout (write : Bool) (s : State) : Host.Outcome State Fault Refusal :=
  let s1 := s.flag F.GLB_ERR_REG_TIMEOUT
  .next (if write then s1 else { s1 with lastRead := [0] })

/-- The plot-space address a BAR2 offset reaches (R29). -/
def State.bar2Addr (s : State) (off : Nat) : Nat := s.getF F.GLB_BAR2_BASE_BASE_GIB * 2 ^ 30 + off

/-- Whether the host may read a plot: HOST_RD, or the log plot; never the reserve (R340, R341). -/
def Plot.hostRd (p : Plot) : Bool := p.kind == 1 || (p.kind == 0 && p.access.testBit 0)

/-- Whether the host may write a plot: HOST_WR of a data plot (R340, R341). -/
def Plot.hostWr (p : Plot) : Bool := p.kind == 0 && p.access.testBit 1

/-- Whether an access lies wholly within one plot of which `ok` holds. -/
def State.inPlot (s : State) (a n : Nat) (ok : Plot → Bool) : Bool :=
  match s.plotAt a with
  | some p => ok p && decide (a + n ≤ p.base + p.size)
  | none => false

/-- BAR2_READ (R29): Unsupported Request outside the plot space or in a plot the host may not read, and a poisoned
completion for data the code cannot correct. A read of no bytes does nothing (R43). -/
def execBar2Read (off len : Nat) (errs : List MemErr) (s : State) : Host.Outcome State Fault Refusal :=
  let a := s.bar2Addr off
  .next <|
    if len = 0 then s
    else if s.variant.plotGiB * 2 ^ 30 < a + len then (s.flag F.GLB_ERR_BAR2_RANGE).emit (.bar2Completion 1 [])
    else if !s.up 8 || !s.inPlot a len Plot.hostRd then s.emit (.bar2Completion 1 [])
    else
      let (d, bad, s1) := s.readWords 8 errs a (wordsTouched a len)
      let bytes := (d.drop (a % 32)).take len
      if bad then (s1.flag F.GLB_ERR_BAR2_POISON).emit (.bar2Completion 2 bytes)
      else { s1.emit (.bar2Completion 0 bytes) with lastRead := [leNat bytes] }

/-- Write a range word by word (R346, R351); a word written in part is read first, with the errors found there. -/
def State.writeWords (s : State) (errs : List MemErr) (a : Nat) : Nat → List Byte → State
  | 0, _ => s
  | fuel + 1, l =>
    if l.isEmpty then s
    else
      let k := min l.length (32 - a % 32)
      State.writeWords (s.writeWord a (l.take k) (errsAt errs a)) errs (a + k) fuel (l.drop k)

/-- BAR2_WRITE (R29): dropped with BAR2_RANGE outside the plot space, or with BAR2_WR_DENY in a plot the host may not
write. -/
def execBar2Write (off : Nat) (data : List Byte) (errs : List MemErr) (s : State) : Host.Outcome State Fault Refusal :=
  let a := s.bar2Addr off
  .next <|
    if data.isEmpty then s
    else if s.variant.plotGiB * 2 ^ 30 < a + data.length then s.flag F.GLB_ERR_BAR2_RANGE
    else if !s.inPlot a data.length Plot.hostWr then s.flag F.GLB_ERR_BAR2_WR_DENY
    else if s.up 8 then s.writeWords errs a data.length data else s

/-- Write the record of an occurrence (R35, R42). -/
def State.occur (s : State) (o : Occurrence) : State :=
  if o.event then s.event o.reason o.block o.inst o.detail
  else s.concede o.block o.inst o.broken o.kept o.reason o.detail

/-- How far an index lies after the host's read index in ring order. -/
def ringDist (n rd i : Nat) : Nat := (i + n - rd) % n

/-- GLB_LOG_RD_WRITE (R40): a value in ring order from RD_INDEX to WR_INDEX is taken, any other ignored with
LOG_RD_BAD. A record that falls due in the same update is written first; the host's value is checked against the
indices as they stood before it, and RD_INDEX takes the later of the two. -/
def execGlbLogRdWrite (val : Word) (meets : Option Occurrence) (s : State) : Host.Outcome State Fault Refusal :=
  let n := s.logSize
  let v := val.toNat % 2 ^ 25
  let rd := s.getF F.GLB_LOG_RD_RD_INDEX
  let ok := decide (v < n) && decide (ringDist n rd v ≤ ringDist n rd (s.getF F.GLB_LOG_WR_WR_INDEX))
  let s1 := match meets with
    | some o => s.occur o
    | none => s
  .next <|
    if ok then
      if ringDist n rd (s1.getF F.GLB_LOG_RD_RD_INDEX) ≤ ringDist n rd v then s1.setF F.GLB_LOG_RD_RD_INDEX v else s1
    else s1.flag F.GLB_ERR_LOG_RD_BAD

end Sys2Proof.Machine
end

