-- ==== Sys2Proof/Machine/Crc.lean ====
section
/-!
DEFINITION. The CRC-32 of IEEE 802.3 (R52, R332).
-/

namespace Sys2Proof.Machine

/-- One bit of the reflected CRC-32. -/
def crc32Bit (c : Nat) : Nat := if c % 2 = 1 then (c / 2) ^^^ 0xEDB88320 else c / 2

/-- One byte of a running CRC-32. -/
def crc32Byte (c : Nat) (b : Byte) : Nat :=
  crc32Bit (crc32Bit (crc32Bit (crc32Bit (crc32Bit (crc32Bit (crc32Bit (crc32Bit (c ^^^ b.toNat))))))))

/-- Feed bytes to a running CRC-32, which starts at 0xFFFF_FFFF. -/
def crc32Feed (c : Nat) (l : List Byte) : Nat := l.foldl crc32Byte c

/-- The CRC-32 of a byte list. -/
def crc32 (l : List Byte) : Nat := crc32Feed 0xFFFFFFFF l ^^^ 0xFFFFFFFF

end Sys2Proof.Machine
end

