-- ==== Sys2Proof/Machine/HeadOps.lean ====
section
/-!
DEFINITION. Scan-out planes and lines: fetch, conversion, blending, CRC rectangles and output items
(spec/11_scanout.md, R318 to R333).
-/

namespace Sys2Proof

/-- Range and matrix of a decoder picture, by the FORMAT of its header: bit 0 narrow range, bit 1 BT.2020, bit 2 coded as
G, B, R. The header does not carry them: a free value. -/
opaque Config.decCoding : Nat → Nat

namespace Machine

/-! ## Source lines (R318, R321) -/

/-- A source line brought to one value of each component a column. -/
structure SrcLine where
  /-- depth, range, matrix and layout of the codes; layout 0 is R'G'B' -/
  enc : BedEnc
  bits : Nat
  comps : List (List Nat)
  /-- 0 to 255 a column; none is 255 everywhere -/
  alpha : Option (List Nat)
  width : Nat
  /-- first column whose data is damaged, and that a plot word of it is (R326, R327) -/
  bad : Option Nat
  word : Bool
  /-- ranges of plot space that the line was read from: address and length -/
  reads : List (Nat × Nat) := []
  deriving DecidableEq, Repr

/-- Chroma at even columns brought to every column (R321 step 2). -/
def upsample (w : Nat) (l : List Nat) : List Nat :=
  let last := l.length - 1
  (List.range w).map fun x =>
    if x % 2 = 0 then l.getD (x / 2) 0
    else (rdiv ((l.getD (x / 2) 0 + l.getD (min (x / 2 + 1) last) 0 : Nat) : Int) 2).toNat

/-- The offset, in a range of plot space, of the first byte of a damaged word. -/
def State.firstBad (s : State) (a n : Nat) : Option Nat := (List.range n).find? fun i => s.hbm.bad (a + i)

/-- The encoding named by a tap's FORMAT and the YCC_2020 flag (R209). -/
def encOfFormat (fmt flags : Nat) : BedEnc :=
  { curve := bitsOf fmt 0 3, depth := bitsOf fmt 3 2, layout := bitsOf fmt 5 2, narrow := fmt.testBit 7
    ycc2020 := flags.testBit 4, pack := flags.testBit 5, pqWhite := 0, hlgGain := 0 }

/-- A BED line item as a source line; `bad` is the offset of its first damaged byte. -/
def bedSrc (b : List Byte) (bad : Option Nat) : SrcLine :=
  let l := encLineOf b false
  let e := encOfFormat l.format l.flags
  let bits := formatBits l.format
  let comps := if e.layout = 2 then l.comps.zipIdx.map fun (c, i) => if i = 0 then c else upsample l.width c else l.comps
  let per := if e.layout = 2 then 2 else 3
  let col (o : Nat) : Nat :=
    if o < 32 then 0 else (if e.pack then (o - 32) * 8 / bits else (o - 32) / 2) / per
  let tag := (tagOf b).poisoned || l.flags.testBit 3
  { enc := e, bits, comps, alpha := none, width := l.width, bad := if tag then some 0 else bad.map col
    word := bad.isSome }

/-- The bed and tap that write a plot (R213). -/
def State.tapOfPlot (s : State) (plot : Nat) : Option (Nat × Nat) :=
  ((List.range 16).flatMap fun n => (List.range 3).map fun t => (n, t)).find? fun (n, t) =>
    s.getF (F.BED_TAP_DEST n t) == 2 && s.getF (F.BED_TAP_TARGET n t) == plot

/-- The decode context that writes a plot (R297). -/
def State.ctxOfPlot (s : State) (plot : Nat) : Option (Nat × Nat) :=
  ((List.range 16).flatMap fun e => (List.range 8).map fun c => (e, c)).find? fun (e, c) =>
    s.ctxIs e c 1 && s.ctxF e c 10 2 == plot

/-- Registers and record bytes of a plane (R312). -/
def State.planeSource (s : State) (h p : Nat) : Nat := s.headF h (64 + 32 * p + 4) 2
def State.planeSlot (s : State) (h p : Nat) : Nat := s.headF h (64 + 32 * p + 6) 1

/-- The address of the picture a plot plane shows: line 0's tag, the slot header, or the first pixel; none when it shows
none (R312, R319). -/
def State.planeAddr (s : State) (h p : Nat) : Option Nat :=
  let src := s.planeSource h p
  let q := (s.head h).planes.at {} p
  if s.bit (F.HEAD_PLANE_CTL_FOLLOW h p) then
    match s.getF (F.HEAD_PLANE_CTL_FORMAT h p), q.shown with
    | 0, some f => match s.tapOfPlot src with
      | some (n, t) => s.tapAddr n (s.planeSlot h p) t f 0
      | none => none
    | 1, some k => match s.ctxOfPlot src with
      | some (e, c) => s.slotAddr e c k
      | none => none
    | _, _ => none
  else (s.plot? src).map fun v => v.base + s.getF (F.HEAD_PLANE_ADDR_OFFSET h p)

/-- Source line `y` of a decoder slot at an address (R297, R298). -/
def State.decSrc (s : State) (e c a y : Nat) : Option SrcLine :=
  let head := s.hbm.read a 32
  let w := fieldAt head 16 2
  let hgt := fieldAt head 18 2
  let fmt := byteAt head 20
  let chroma := fmt % 4
  let bits := bitsOf fmt 2 4
  if hgt ≤ y ∨ !(byteAt head 21).testBit 0 then none
  else
    let (fw, fh) := s.slotSize e c
    let k := Config.decCoding fmt
    let rgb := k.testBit 2 && chroma == 3
    let at' (i : Nat) : Nat := a + planeOffset chroma fw fh i + (if i ≠ 0 ∧ chroma = 1 then y / 2 else y)
      * planeStride (planeSize chroma i fw fh).1
    let n (i : Nat) : Nat := if i ≠ 0 ∧ chroma ≠ 3 then (w + 1) / 2 else w
    let plane (i : Nat) : List Nat :=
      let b := s.hbm.read (at' i) (2 * n i)
      let v := (List.range (n i)).map fun x => fieldAt b (2 * x) 2
      if i ≠ 0 ∧ chroma ≠ 3 then upsample w v else v
    let bad := ((List.range 3).filterMap fun i =>
      (s.firstBad (at' i) (2 * n i)).map fun o => if i ≠ 0 ∧ chroma ≠ 3 then o / 2 * 2 else o / 2).min?
    let all := (List.range 3).map plane
    let enc : BedEnc :=
      { curve := 4, depth := 0, layout := if rgb then 0 else 1, narrow := k.testBit 0, ycc2020 := k.testBit 1, pack := false
        pqWhite := 0, hlgGain := 0 }
    some { enc, bits, comps := if rgb then [all.getD 2 [], all.getD 0 [], all.getD 1 []] else all, alpha := none, width := w
           bad := if s.hbm.badRange a 32 then some 0 else bad, word := true
           reads := (a, 32) :: (List.range 3).map fun i => (at' i, 2 * n i) }

/-- `n` pixels of a packed-pixel source line at an address: R, G, B and A of `b` bytes each (R312). -/
def State.argbSrc (s : State) (a b n : Nat) : SrcLine :=
  let l := s.hbm.read a (4 * b * n)
  let c (i : Nat) : List Nat := (List.range n).map fun x => fieldAt l (4 * b * x + b * i) b
  let alpha := (c 3).map fun (v : Nat) => if b = 1 then v else (rdiv (v : Int) 257).toNat
  { enc := { curve := 4, depth := 0, layout := 0, narrow := false, ycc2020 := false, pack := false, pqWhite := 0, hlgGain := 0 }
    bits := 8 * b, comps := [c 0, c 1, c 2], alpha := some alpha, width := n
    bad := (s.firstBad a (4 * b * n)).map (· / (4 * b)), word := true, reads := [(a, 4 * b * n)] }

/-- Source line `y` of a plot plane (R318); none where it is transparent. -/
def State.plotSrc (s : State) (h p y : Nat) : Option SrcLine :=
  let src := s.planeSource h p
  match s.planeAddr h p with
  | none => none
  | some a =>
    match s.getF (F.HEAD_PLANE_CTL_FORMAT h p) with
    | 0 =>
      match s.tapOfPlot src with
      | none => none
      | some (n, t) =>
        let size := s.tapItemMax n t (s.graftGeom n (s.planeSlot h p)).1
        let at' := a + y * roundUp size 64
        let b := s.hbm.read at' size
        if (s.graftGeom n (s.planeSlot h p)).2 ≤ y ∨ fieldAt b 22 2 ≤ y then none
        else some { bedSrc b (s.firstBad at' size) with reads := [(at', size)] }
    | 1 =>
      match s.ctxOfPlot src with
      | none => none
      | some (e, c) => s.decSrc e c a y
    | f =>
      let n := s.getF (F.HEAD_PLANE_SRC_SRC_X h p) + s.getF (F.HEAD_PLANE_SIZE_WIDTH h p)
      let stride := s.getF (F.HEAD_PLANE_STRIDE_STRIDE h p) / 64 * 64
      let b := if f = 2 then 1 else 2
      some (s.argbSrc (a + y * stride) b (min n (stride / (4 * b))))

/-- The next item of a trug plane that belongs to source line `y` (R320): the item, or that the line underruns. -/
def State.trugSrc (s : State) (h p y : Nat) (errs : List WordErr) : Nat → Nat → Option SrcLine × Bool × State
  | _, 0 => (none, true, s)
  | i, fuel + 1 =>
    let t := s.planeSource h p
    let x := s.head h
    let q := x.planes.at {} p
    let put (z : State) (v : HeadPlane) : State := z.setHead h { z.head h with planes := (z.head h).planes.put {} p v }
    let next : Option ((List Byte × Bool) × Nat × State) :=
      match q.kept with
      | some k => some (k, i, s)
      | none =>
        match headItem (s.trug t).ring with
        | none => none
        | some (ws, _) =>
          let (l, s1) := s.readUnit t errs i ws.length
          some ((l.flatMap TrugWord.valid, l.any (·.tag.getLsbD 7)), i + ws.length, s1)
    match next with
    | none => (none, true, s)
    | some ((b, poison), j, s1) =>
      let tag := tagOf b
      if !q.inFrame && !tag.first then State.trugSrc s1 h p y errs j fuel
      else
        let done (kept : Option (List Byte × Bool)) : State := put s1 { q with kept, inFrame := true }
        if tag.line < y then State.trugSrc (done none) h p y errs j fuel
        else if tag.line = y then (some (bedSrc b (if poison then some 0 else none)), false, done none)
        else (none, true, done (some (b, poison)))

/-! ## Conversion and blending (R321) -/

/-- The output encoding of a head (R311). -/
def State.outEnc (s : State) (h : Nat) : BedEnc :=
  let f := s.headF h 14 1
  { curve := bitsOf f 5 3, depth := bitsOf f 2 1, layout := bitsOf f 0 2, narrow := f.testBit 3, ycc2020 := f.testBit 4
    pack := true, pqWhite := 0, hlgGain := 0 }

/-- A code of `bits` bits as a normalised value in units of 2^-48: R', G', B' or Y', or a colour difference. -/
def normalise (e : BedEnc) (bits : Nat) (chroma : Bool) (v : Nat) : Int :=
  let one : Int := (2 ^ 48 : Nat)
  let top : Int := (2 ^ bits - 1 : Nat)
  let k : Int := (2 ^ (bits - 8) : Nat)
  match e.isNarrow, chroma with
  | false, false => v * one / top
  | false, true => (v - (2 ^ (bits - 1) : Nat)) * one / top
  | true, false => (v - 16 * k) * one / (219 * k)
  | true, true => (v - 128 * k) * one / (224 * k)

/-- R'G'B' of Y'CbCr (R205 step 3 inverted). -/
def BedEnc.unYcc (e : BedEnc) (v : List Int) : List Int :=
  let kr : Int := if e.ycc2020 then 2627 else 2126
  let kb : Int := if e.ycc2020 then 593 else 722
  let y := v.getD 0 0
  let b := y + 2 * (10000 - kb) * v.getD 1 0 / 10000
  let r := y + 2 * (10000 - kr) * v.getD 2 0 / 10000
  [r, (10000 * y - kr * r - kb * b) / (10000 - kr - kb), b]

/-- A source pixel as codes of the output encoding, one a component at full resolution. -/
def convertPixel (out : BedEnc) (l : SrcLine) (x : Nat) : List Nat :=
  let rgbIn := l.enc.layout = 0
  let v := (List.range 3).map fun c => normalise l.enc l.bits (!decide rgbIn && c != 0) ((l.comps.getD c []).getD x 0)
  let conv :=
    if out.layout = 0 then (if rgbIn then v else l.enc.unYcc v)
    else if rgbIn then out.ycc v
    else if l.enc.ycc2020 = out.ycc2020 then v else out.ycc (l.enc.unYcc v)
  conv.zipIdx.map fun (q, c) => if out.layout = 0 ∨ c = 0 then out.luma q else out.chroma (4 * q)

/-- Blend a plane's pixel over what lies below. -/
def blend (a : Nat) (p below : List Nat) : List Nat :=
  (List.range 3).map fun c =>
    (rdiv ((a * p.getD c 0 + (255 - a) * below.getD c 0 : Nat) : Int) 255).toNat

/-- Blend a plane's line over the pixels below: the plane stands at `dx`, `w` wide, from source column `sx`. -/
def blendLine (out : BedEnc) (alpha dx sx w : Nat) (l : SrcLine) (below : List (List Nat)) : List (List Nat) :=
  below.zipIdx.map fun (q, x) =>
    if x < dx ∨ dx + w ≤ x ∨ l.width ≤ sx + x - dx then q
    else
      let i := sx + x - dx
      let al := match l.alpha with | some v => v.getD i 255 | none => 255
      blend (rdiv ((alpha * al : Nat) : Int) 255).toNat (convertPixel out l i) q

/-- Pixels as the component lists that the outputs carry: chroma of LAYOUT 2 decimated (R321 step 6). -/
def outComps (out : BedEnc) (px : List (List Nat)) : List (List Nat) :=
  (List.range 3).map fun c =>
    let l := px.map fun q => q.getD c 0
    if out.layout = 2 ∧ c ≠ 0 then decimateH l else l

/-- The background of a head as codes in output order (R311). -/
def State.background (s : State) (h : Nat) : List Nat := (List.range 3).map fun k => s.getF (F.HEAD_BG_CODE h k)

/-- Background from column `x` to the end of a line (R325, R326). -/
def fillFrom (out : BedEnc) (bg : List Nat) (x : Nat) (comps : List (List Nat)) : List (List Nat) :=
  comps.zipIdx.map fun (l, c) =>
    let x0 := if out.layout = 2 ∧ c ≠ 0 then (x + 1) / 2 else x
    l.zipIdx.map fun (v, i) => if x0 ≤ i then bg.getD c 0 else v

/-! ## Line composition (R318, R325, R326, R335) -/

/-- What a line has met: damage and underrun columns. -/
structure LineFaults where
  bad : Option Nat := none
  under : Option Nat := none
  deriving DecidableEq, Repr

/-- The lower of two columns. -/
def minCol (a b : Option Nat) : Option Nat :=
  match a, b with
  | some x, some y => some (min x y)
  | some x, none => some x
  | none, y => y

/-- Plane `p` of active line `y` is fetched and blended. -/
def State.planeLine (s : State) (h p y : Nat) (errs : List WordErr) (px : List (List Nat)) (f : LineFaults) :
    List (List Nat) × LineFaults × State :=
  let kind := s.getF (F.HEAD_PLANE_CTL_KIND h p)
  let w := s.getF (F.HEAD_PLANE_SIZE_WIDTH h p)
  let hgt := s.getF (F.HEAD_PLANE_SIZE_HEIGHT h p)
  let dx := s.getF (F.HEAD_PLANE_DST_DST_X h p)
  let dy := s.getF (F.HEAD_PLANE_DST_DST_Y h p)
  let sx := s.getF (F.HEAD_PLANE_SRC_SRC_X h p)
  if (kind ≠ 1 ∧ kind ≠ 2) ∨ w = 0 ∨ hgt = 0 ∨ y < dy ∨ dy + hgt ≤ y ∨ s.hActive h ≤ dx then (px, f, s)
  else
    let sy := s.getF (F.HEAD_PLANE_SRC_SRC_Y h p) + y - dy
    let (line, under, s1) := if kind = 2 then s.trugSrc h p sy errs 0 ((s.trug (s.planeSource h p)).ring.length + 2)
      else (s.plotSrc h p sy, false, s)
    match line with
    | none => (px, { f with under := minCol f.under (if under then some dx else none) }, s1)
    | some l =>
      let s1 := l.reads.foldl (fun (x : State) r => x.noteRange r.1 r.2) s1
      let bed := kind = 2 ∨ s.getF (F.HEAD_PLANE_CTL_FORMAT h p) = 0
      let out := s.outEnc h
      let badCol := match l.bad with
        | some i => if sx + w ≤ i ∨ s.hActive h ≤ dx + (i - sx) then none else some (dx + (i - sx))
        | none => none
      let f1 := { f with bad := minCol f.bad badCol }
      let s2 := s1.when (badCol.isSome && kind == 1 && l.word) (·.concede 7 h 5 2 0x0004 p)
      if bed ∧ badCol = some dx then (px, f1, s2)
      else if bed ∧ (l.enc.curve = 0 ∨ 2 ≤ l.enc.depth) then (px, f1, s2.flag (F.HEAD_ERR_FMT_BAD h))
      else
        let s3 := s2.when (decide bed && l.enc.curve != out.curve) (·.flag (F.HEAD_ERR_CURVE_MISMATCH h))
        (blendLine out (s.getF (F.HEAD_PLANE_CTL_ALPHA h p)) dx sx w l px, f1, s3)

/-- Active line `y` of a head is fetched and composed. -/
def State.composeLine (s : State) (h y : Nat) (errs : List WordErr) : State :=
  let out := s.outEnc h
  let bg := s.background h
  let base := List.replicate (s.hActive h) bg
  let (px, f, s1) := if (s.head h).off then (base, {}, s)
    else (List.range 4).foldl (fun (acc : List (List Nat) × LineFaults × State) p =>
      acc.2.2.planeLine h p y errs acc.1 acc.2.1) (base, {}, s)
  let comps := outComps out px
  let comps1 := match minCol f.bad f.under with
    | some x => fillFrom out bg x comps
    | none => comps
  let s2 := s1.when f.bad.isSome fun x => (x.flag (F.HEAD_ERR_POISON h)).bump (F.HEAD_CNT_COUNT h 2)
  let s3 := s2.when f.under.isSome fun x => (x.flag (F.HEAD_ERR_UNDERRUN h)).bump (F.HEAD_CNT_COUNT h 1)
  let z := s3.head h
  s3.setHead h { z with
    active := some { comps := comps1, fill := (minCol f.bad f.under).isSome, under := f.under.isSome }
    activeStamp := patternOf 64 (s3.corrTicks + (s3.pixels h (s3.headF h 26 2) : Nat)) }

/-! ## Outputs of a line (R329 to R333) -/

/-- The codes of columns [x0, x1) in output order. -/
def orderCodes (out : BedEnc) (comps : List (List Nat)) (x0 x1 : Nat) : List Nat :=
  let c (k i : Nat) : Nat := (comps.getD k []).getD i 0
  if out.layout = 2 then
    (List.range ((x1 - x0) / 2)).flatMap fun i =>
      let j := x0 / 2 + i
      [c 1 j, c 0 (2 * j), c 2 j, c 0 (2 * j + 1)]
  else (List.range (x1 - x0)).flatMap fun i => [c 0 (x0 + i), c 1 (x0 + i), c 2 (x0 + i)]

/-- Rectangle `r` takes in active line `y` (R332, R333). -/
def State.crcLine (s : State) (h y : Nat) (comps : List (List Nat)) (r : Nat) : State :=
  let x0 := s.getF (F.HEAD_CRC_XY_X h r)
  let y0 := s.getF (F.HEAD_CRC_XY_Y h r)
  let w := s.getF (F.HEAD_CRC_WH_W h r)
  let hh := s.getF (F.HEAD_CRC_WH_H h r)
  let x1 := min (x0 + w) (s.hActive h)
  let y1 := min (y0 + hh) (s.vActive h)
  if w = 0 ∨ hh = 0 ∨ x1 ≤ x0 ∨ y < y0 ∨ y1 ≤ y then s
  else
    let z := s.head h
    let c0 := if y = y0 then 0xFFFFFFFF else z.crc.at 0xFFFFFFFF r
    let c := crc32Feed c0 ((orderCodes (s.outEnc h) comps x0 x1).flatMap (leBytes 2))
    let s1 := s.setHead h { z with crc := z.crc.put 0xFFFFFFFF r c }
    if y + 1 = y1 then
      let v := c ^^^ 0xFFFFFFFF
      let s2 := s1.setF (F.HEAD_CRC_RESULT_RESULT h r) v
      if v = s.getF (F.HEAD_CRC_EXPECT_EXPECT h r) then s2
      else (((s2.flag ⟨R.HEAD_CRC_FLAGS h, r, 1⟩).flag (F.HEAD_ERR_CRC h)).bump (F.HEAD_CRC_CNT_COUNT h r))
    else s1

/-- The raster Runners of a head, in line order (R331). -/
def State.rasterRunners (s : State) (h : Nat) : List Nat :=
  ((List.range 4).map fun i => s.headF h (8 + i) 1).filter (· != 0xFF)

/-- The raster trug of a Runner: the head produces it and the Runner consumes it (R113, R331). -/
def State.rasterTrug (s : State) (h r : Nat) : Option Nat :=
  let img := s.seed.image
  ((recordOffsets img 0x05).find? fun o =>
    byteAt img (o + 8) == 7 && byteAt img (o + 9) == h && byteAt img (o + 10) == 2 && byteAt img (o + 11) == r).map
      fun o => fieldAt img o 2

/-- The raster item of an active line (R331). -/
def State.rasterItem (s : State) (h y : Nat) (a : HeadActive) (codes : List Nat) : List Byte :=
  let out := s.outEnc h
  let x := s.head h
  let last := y + 1 = s.vActive h
  leBytes 8 x.activeStamp ++ leBytes 4 x.frame ++ leBytes 2 y ++ leBytes 2 (s.hActive h) ++ leBytes 1 h
    ++ leBytes 1 (s.headF h 14 1)
    ++ leBytes 1 (b2n (y == 0) + 2 * b2n (decide last) + 4 * b2n a.fill + 8 * b2n x.slipMark)
    ++ leBytes 1 0 ++ leBytes 2 s.origin ++ List.replicate 10 0#8 ++ packSites out.bits codes

/-- The active line in progress ends: it feeds the CRC rectangles and leaves on every output. -/
def State.headLineEnd (s : State) (h : Nat) : State :=
  let x := s.head h
  match x.active with
  | none => s
  | some a =>
    let y := x.line - s.vStart h
    let w := s.hActive h
    let out := s.outEnc h
    let codes := orderCodes out a.comps 0 w
    let last := decide (y + 1 = s.vActive h)
    let s1 := (List.range 16).foldl (fun z r => z.crcLine h y a.comps r) s
    let o := s.headF h 3 1
    let rs := s.rasterRunners h
    let s2 := if o.testBit 1 ∧ !rs.isEmpty then
        match s.rasterTrug h (rs.getD (y % rs.length) 0) with
        | some t => s1.trugItem t (s.rasterItem h y a codes)
        | none => s1
      else s1
    let s3 := if o.testBit 0 then
        if o.testBit 3 then
          let bottom := decide (s.vActive h / 2 ≤ y)
          let k := if bottom then 2 else 0
          let row := if bottom then y - s.vActive h / 2 else y
          let atEnd := decide (row + 1 = s.vActive h / 2)
          (s2.emit (.headLine h k row 0 atEnd (orderCodes out a.comps 0 (w / 2)))).emit
            (.headLine h (k + 1) row 0 atEnd (orderCodes out a.comps (w / 2) w))
        else s2.emit (.headLine h 0 y 0 last codes)
      else s2
    let s4 := s3.when (o.testBit 2) (·.emit (.headLine h 4 y x.rtp last codes))
    s4.setHead h { s4.head h with active := none, slipMark := false }

/-! ## The commit close point (R319, R323) -/

/-- Followed pictures of a decoder plot: PICTURE and that it is poisoned, of every valid slot (R298, R319). -/
def State.decSlots (s : State) (e c : Nat) : List (Nat × Bool) :=
  (List.range (s.slotCount e c)).filterMap fun k =>
    match s.slotAddr e c k with
    | none => none
    | some a =>
      let b := s.hbm.read a 32
      if (byteAt b 21).testBit 0 then some (fieldAt b 8 4, (byteAt b 21).testBit 3) else none

/-- A followed plane latches its picture (R319). -/
def State.latchPlane (s : State) (h p : Nat) : State :=
  let x := s.head h
  let q := x.planes.at {} p
  let src := s.planeSource h p
  let put (v : HeadPlane) (poison again skip : Nat) : State :=
    (((s.setHead h { x with planes := x.planes.put {} p v }).addF (F.HEAD_CNT_COUNT h 4) poison).addF
      (F.HEAD_CNT_COUNT h 5) again).addF (F.HEAD_CNT_COUNT h 6) skip
  if s.getF (F.HEAD_PLANE_CTL_KIND h p) ≠ 1 ∨ !s.bit (F.HEAD_PLANE_CTL_FOLLOW h p) then s
  else match s.getF (F.HEAD_PLANE_CTL_FORMAT h p) with
  | 0 =>
    match s.tapOfPlot src with
    | none => s
    | some (n, t) =>
      let l := ((s.bed n).done.filter fun d => d.1 == t && d.2.1 == s.planeSlot h p).map (·.2.2)
      match l.head?, q.shown with
      | none, _ => s
      | some f, none => put { q with shown := some f } 0 0 0
      | some f, some old =>
        let newer := l.takeWhile (· != old)
        if f = old then put q 0 1 0 else put { q with shown := some f } 0 0 (newer.length - 1)
  | 1 =>
    match s.ctxOfPlot src with
    | none => s
    | some (e, c) =>
      let later (o : Option Nat) (k : Nat) : Bool := match o with | some v => stampLater 32 k v | none => true
      let all := (s.decSlots e c).filter fun d => later q.shown d.1
      let bad := (all.filter fun d => d.2 && later q.bad d.1).map (·.1)
      let good := (all.filter fun d => !d.2).map (·.1)
      let top (l : List Nat) : Option Nat :=
        l.foldl (fun (acc : Option Nat) k => match acc with | some v => if stampLater 32 k v then some k else acc | none => some k) none
      let b := match top bad with | some v => some v | none => q.bad
      match top good, q.shown with
      | none, none => put { q with bad := b } bad.length 0 0
      | none, some _ => put { q with bad := b } bad.length 1 0
      | some k, none => put { q with shown := some k, bad := b } bad.length 0 0
      | some k, some _ => put { q with shown := some k, bad := b } bad.length 0 (good.length - 1)
  | _ => s

/-- Offsets of a head's staged writes. -/
def State.headStaged (s : State) (h : Nat) : List Nat :=
  (s.staged.map (·.1)).filter fun o => decide (R.HEAD_CTL h ≤ o) && decide (o < R.HEAD_CTL h + 0x1000)

/-- The commit close point of a frame (R319, R323). -/
def State.closePoint (s : State) (h : Nat) : State :=
  let s1 := if s.bit (F.HEAD_COMMIT_REQ h) then
      let a := (s.applyStaged (s.headStaged h)).unflag (F.HEAD_COMMIT_REQ h)
      a.setF (F.HEAD_COMMIT_SEQ h) (a.getF (F.HEAD_COMMIT_SEQ h) + 1)
    else s
  (List.range 4).foldl (fun x p => x.latchPlane h p) (s1.unflag (F.HEAD_STATUS_WINDOW_OPEN h))

/-! ## Lines (R315 to R317) -/

/-- Line 0: a frame starts. -/
def State.headFrame (s : State) (h : Nat) : State :=
  let x := s.head h
  let first := !x.running
  let s1 := s.setHead h { x with
    running := true, line := 0, frame := if first then 0 else (x.frame + 1) % 2 ^ 32, stamp := s.longStamp
    rtp := (s.corrTicks * 9 / 3200000 % (2 ^ 32 : Nat)).toNat, line0 := s.corrTicks, lineAt := s.corrTicks
    total := s.vTotal h, slip := none, slipMark := x.slip.isSome, lead := s.getF (F.HEAD_CTL_COMMIT_LEAD h)
    crc := [], off := x.offDue
    planes := (List.range 4).foldl (fun (m : SMap HeadPlane) p => m.upd {} p fun q => { q with inFrame := false, kept := none })
      x.planes }
  let s2 := (s1.setB (F.HEAD_STATUS_OFF h) x.offDue).when first (·.flag (F.HEAD_STATUS_WINDOW_OPEN h))
  let s3 := s2.when x.slip.isSome (·.flag (F.HEAD_STATUS_LOCKED h))
  s3.when (s3.headFref h).isNone (·.unflag (F.HEAD_STATUS_LOCKED h))

/-- HEAD_LINE: the line in progress ends and the next one starts. -/
def State.headLine (s : State) (h : Nat) (errs : List WordErr) : State :=
  if !s.headOn h then s
  else
    let s0 := s.headLineEnd h
    let x := s0.head h
    let next := x.line + 1
    let frame :=
      if !x.running then true
      else if next < x.total then false
      else match x.slip with
        | some (_, t) => decide (t ≤ s0.corrTicks + (s0.lines h 1 : Nat) / 2)
        | none => true
    let s1 := if frame then s0.headFrame h else s0.setHead h { x with line := next, lineAt := s0.corrTicks }
    let l := (s1.head h).line
    let v0 := s1.vStart h
    let v1 := v0 + s1.vActive h
    let inActive := decide (v0 ≤ l) && decide (l < v1)
    let s2 := (s1.setF (F.HEAD_STATUS_LINE h) l).setB (F.HEAD_STATUS_IN_ACTIVE h) inActive
    let s3 := s2.when (decide (l = v1)) (·.flag (F.HEAD_STATUS_WINDOW_OPEN h))
    let s4 := s3.when (decide (l + (s3.head h).lead = v0)) (·.closePoint h)
    if inActive then s4.composeLine h (l - v0) errs else s4

/-- HEAD_UNDERRUN (R325, R327): a pixel of a plane is missing when it is due. -/
def State.headUnder (s : State) (h p x : Nat) (thermal : Bool) : State :=
  let z := s.head h
  match z.active with
  | none => s
  | some a =>
    if z.off ∨ s.hActive h ≤ x then s
    else
      let comps := fillFrom (s.outEnc h) (s.background h) x a.comps
      let s1 := s.setHead h { z with active := some { a with comps, fill := true, under := true } }
      let s2 := (s1.flag (F.HEAD_ERR_UNDERRUN h)).when (!a.under) (·.bump (F.HEAD_CNT_COUNT h 1))
      if s.getF (F.HEAD_PLANE_CTL_KIND h p) = 2 then s2
      else if thermal then s2.concede 7 h 5 1 2 p else s2.concede 7 h 5 4 1 p

/-- HEAD_COMMIT_REQ (R323). -/
def State.commitReq (s : State) (h : Nat) : State :=
  let s1 := s.flag (F.HEAD_COMMIT_REQ h)
  if s.bit (F.HEAD_STATUS_WINDOW_OPEN h) then s1
  else (s1.flag (F.HEAD_ERR_COMMIT_LATE h)).bump (F.HEAD_CNT_COUNT h 0)

end Machine

end Sys2Proof
end

