-- ==== Sys2Proof/Machine/Heads.lean ====
section
/-!
DEFINITION. The commands of spec/11_scanout.md, and the boundaries of frame references that heads align to.
-/

namespace Sys2Proof.Machine

/-- FREF_BOUNDARY (R91, R317): a reference reaches its boundary, and the heads on it align to it. -/
def execFrefBoundary (n : Nat) (s : State) : Host.Outcome State Fault Refusal :=
  .next <|
    if s.up 1 && decide (n < 16) then
      let mark := (s.fref n).mark
      (s.frefBoundary n).headBoundary n mark
    else s

/-- HEAD_LINE (R315 to R323). -/
def execHeadLine (h : Nat) (errs : List WordErr) (mem : List MemErr) (s : State) : Host.Outcome State Fault Refusal :=
  .next ((if s.headOn h then s.meet mem else s).headLine h errs)

/-- HEAD_UNDERRUN (R325, R327). -/
def execHeadUnderrun (h plane x : Nat) (thermal : Bool) (s : State) : Host.Outcome State Fault Refusal :=
  .next (if s.headOn h then s.headUnder h plane x thermal else s)

/-- HEAD_COMMIT_REQ (R323). -/
def execHeadCommitReq (h : Nat) (s : State) : Host.Outcome State Fault Refusal :=
  .next (s.bus 7 fun s => if s.headOn h then s.commitReq h else s)

/-- HEAD_GROUP_COMMIT_REQ (R324): REQ is set in every member at once. -/
def execHeadGroupCommitReq (g : Nat) (s : State) : Host.Outcome State Fault Refusal :=
  .next <| s.bus 7 fun s =>
    (s.headList.filter fun h => s.headF h 2 1 == g && decide (g < 4) && s.headOn h).foldl (fun x h => x.commitReq h) s

/-- HEAD_STATUS_READ (R334): FRAME and FRAME_STAMP are latched. -/
def execHeadStatusRead (h : Nat) (s : State) : Host.Outcome State Fault Refusal :=
  .next <|
    if s.headOn h then
      let x := s.head h
      let s1 := (s.setF (F.HEAD_FRAME_FRAME h) x.frame).setF (F.HEAD_FRAME_STAMP_STAMP h) x.stamp
      { s1 with lastRead := [(s1.rd (R.HEAD_STATUS h)).toNat] }
    else { s with lastRead := [(s.rd (R.HEAD_STATUS h)).toNat] }

/-- HEAD_CRC_RECT_WRITE (R332): `size` selects WH, else XY. A write that leaves X or W odd under LAYOUT 2 is ignored. -/
def execHeadCrcRectWrite (h r : Nat) (size : Bool) (val : Word) (s : State) : Host.Outcome State Fault Refusal :=
  .next <| s.bus 7 fun s =>
    if !s.headOn h || decide (16 ≤ r) then s
    else if (s.outEnc h).layout = 2 ∧ val.getLsbD 0 then s
    else s.stage (if size then R.HEAD_CRC_WH h r else R.HEAD_CRC_XY h r) val

end Sys2Proof.Machine
end

