-- ==== Sys2Proof/Machine/TwineOps.lean ====
section
/-!
DEFINITION. Twine as shared operations: channels, knots, groups, EVT balls and timers (spec/16_signalling.md).
-/

namespace Sys2Proof.Machine

/-! ## The configuration (R462 to R464) -/

/-- The records of the Twine configuration section: kind and byte offset (R462). -/
def twineWalk (img : List Byte) : Nat → Nat → Nat → List (Nat × Nat)
  | 0, _, _ => []
  | fuel + 1, o, stop =>
    if stop ≤ o then []
    else
      let n := byteAt img (o + 1)
      if n = 0 then [] else (byteAt img o, o) :: twineWalk img fuel (o + n) stop

/-- The records of the running image's Twine configuration. -/
def twineRecords (img : List Byte) : List (Nat × Nat) :=
  match findSection img 0x06 with
  | some k => twineWalk img 400 (fieldAt img (36 + 16 * k) 4) (fieldAt img (36 + 16 * k) 4 + fieldAt img (40 + 16 * k) 4)
  | none => []

/-- The channel record of channel `c` (R462). -/
def State.chanRec (s : State) (c : Nat) : Option Nat :=
  ((twineRecords s.seed.image).find? fun r => r.1 == 1 && fieldAt s.seed.image (r.2 + 2) 2 == c).map (·.2)

/-- The knot record of knot `k` (R463). -/
def State.knotRec (s : State) (k : Nat) : Option Nat :=
  ((twineRecords s.seed.image).find? fun r => r.1 == 2 && byteAt s.seed.image (r.2 + 2) == k).map (·.2)

/-- The knots the configuration defines. -/
def State.knotList (s : State) : List Nat :=
  (twineRecords s.seed.image).filterMap fun r => if r.1 = 2 then some (byteAt s.seed.image (r.2 + 2)) else none

/-- The fork entries of a channel: task and PARAM (R453, R454). -/
def State.forks (s : State) (c : Nat) : List (Nat × Nat) :=
  match s.chanRec c with
  | some r => (List.range (min 8 (byteAt s.seed.image (r + 8)))).map fun i =>
      let w := fieldAt s.seed.image (r + 16 + 2 * i) 2
      (bitsOf w 0 10, bitsOf w 10 6)
  | none => []

/-- Channel `c` is defined (R450). -/
def State.chanValid (s : State) (c : Nat) : Bool := decide (c < 256) && s.bit (F.TWN_CH_CFG_VALID c)

/-- The state of knot `k` beside its registers. -/
def State.knot (s : State) (k : Nat) : Knot := s.twine.knots.at {} k

/-- Replace the state of knot `k`. -/
def State.setKnot (s : State) (k : Nat) (x : Knot) : State :=
  { s with twine := { s.twine with knots := s.twine.knots.put {} k x } }

/-! ## Groups (R460) -/

/-- Group `g` is enabled. -/
def State.groupOn (s : State) (g : Nat) : Bool := (s.getF F.TWN_GROUP_EN).testBit g

/-- Ticks of 1 ns: happenings no further apart coincide (R468). -/
def nsTicks : Nat := 32

/-- A happening at tick `t` coincides with the present tick. -/
def State.coincides (s : State) (t : Option Nat) : Bool :=
  match t with
  | some x => decide ((s.ticks + 2 ^ 64 - x) % 2 ^ 64 ≤ nsTicks)
  | none => false

/-- A channel pulse is high at an input (R458). -/
def State.pulseHigh (s : State) (c : Nat) : Bool := s.twine.pulses.any (·.channel == c)

/-! ## EVT balls (R454, R458) -/

/-- An EVT_OUT task of the configuration drives ball `b`. -/
def State.ballDriven (s : State) (b : Nat) : Bool :=
  (twineRecords s.seed.image).any fun r =>
    r.1 == 1 && (List.range (min 8 (byteAt s.seed.image (r.2 + 8)))).any fun i =>
      bitsOf (fieldAt s.seed.image (r.2 + 16 + 2 * i) 2) 0 10 == b

/-- The level of ball `b`: the driven level where an EVT_OUT task drives it. -/
def State.ballLevel (s : State) (b : Nat) : Bool :=
  if s.ballDriven b then s.twine.evtOut.at false b else s.twine.evtIn.at false b

/-! ## Knots (R458, R459) -/

/-- What a knot input reads (R458, R463). -/
def State.knotInput (s : State) (spec : Nat) : Bool :=
  match bitsOf spec 14 2 with
  | 1 => s.pulseHigh (bitsOf spec 0 8)
  | 2 => s.bit (F.TWN_KNOT_STATE_Q (bitsOf spec 0 7))
  | 3 => s.ballLevel (bitsOf spec 0 5)
  | _ => false

/-- The table output L of a knot before the filter. -/
def State.knotTable (s : State) (r : Nat) : Bool :=
  let i := (List.range 4).foldl (fun a j => a + b2n (s.knotInput (fieldAt s.seed.image (r + 4 + 2 * j) 2)) * 2 ^ j) 0
  (fieldAt s.seed.image (r + 12) 2).testBit i

/-- Place an event on channel `c` now (R450). -/
def State.placeEvent (s : State) (c : Nat) : State :=
  { s with twine := { s.twine with due := s.twine.due ++ [{ channel := c, tick := s.ticks }] } }

/-- Give output O of knot `k` a value (R458, R460, R461): a change counts for the loop guard and places an event on
OUT_CH as OUT_EDGE selects; with OUT_CH's group disabled O stays. -/
def State.knotOut (s : State) (k r : Nat) (o : Bool) : State :=
  let out := s.getF (F.TWN_KNOT_CFG_OUT_CH k)
  if s.bit (F.TWN_KNOT_STATE_O k) = o ∨ s.groupOn (s.getF (F.TWN_CH_CFG_GROUP out)) = false then s
  else
    let edge := bitsOf (byteAt s.seed.image (r + 14)) 1 2
    let s1 := s.setB (F.TWN_KNOT_STATE_O k) o
    let x := s1.knot k
    let s2 := s1.setKnot k { x with
      changes := x.changes.filter (fun t => (s.ticks + 2 ^ 64 - t) % 2 ^ 64 < 32000) ++ [s.ticks] }
    s2.when (edge == 2 || (edge == 0 && o) || (edge == 1 && !o)) (·.placeEvent out)

/-- A filtered change of L passes (R459): without the flip-flop O follows L. -/
def State.knotPass (s : State) (k r : Nat) (l : Bool) : State :=
  let s1 := s.setKnot k { s.knot k with level := l, filtering := none }
  if (byteAt s.seed.image (r + 14)).testBit 0 then s1 else s1.knotOut k r l

/-- An input of knot `k` may have changed: L is evaluated, and a change passes at once without a filter, else waits for
the filter width (R459). -/
def State.knotEval (s : State) (k : Nat) : State :=
  match s.knotRec k with
  | none => s
  | some r =>
    let l := s.knotTable r
    let x := s.knot k
    if l = x.level then s.setKnot k { x with filtering := none }
    else if bitsOf (byteAt s.seed.image (r + 14)) 3 3 = 0 then s.knotPass k r l
    else s.setKnot k { x with filtering := some l }

/-- Evaluate every knot with an input for which `p` holds. -/
def State.evalKnots (s : State) (p : Nat → Bool) : State :=
  let ks := s.knotList.filter fun k => match s.knotRec k with
    | some r => (List.range 4).any fun j => p (fieldAt s.seed.image (r + 4 + 2 * j) 2)
    | none => false
  ks.foldl (fun s' k => s'.knotEval k) s

/-- Inputs that read the flip-flop of a knot, a channel, a ball. -/
def readsQ (ks : List Nat) (spec : Nat) : Bool := bitsOf spec 14 2 == 2 && ks.contains (bitsOf spec 0 7)
def readsChannel (c spec : Nat) : Bool := bitsOf spec 14 2 == 1 && bitsOf spec 0 8 == c
def readsBall (b spec : Nat) : Bool := bitsOf spec 14 2 == 3 && bitsOf spec 0 5 == b

/-- An event clocks the flip-flops on channel `c`: each Q takes the L held before the edge (R458, R468), unless the
group of its output channel is disabled (R460). -/
def State.knotClock (s : State) (c : Nat) : State :=
  let ks := s.knotList.filter fun k => match s.knotRec k with
    | some r => (byteAt s.seed.image (r + 14)).testBit 0 && byteAt s.seed.image (r + 15) == c
        && s.groupOn (s.getF (F.TWN_CH_CFG_GROUP (s.getF (F.TWN_KNOT_CFG_OUT_CH k))))
        && s.bit (F.TWN_KNOT_STATE_Q k) != (s.knot k).level
    | none => false
  let levels := ks.map fun k => (k, (s.knot k).level)
  let s1 := levels.foldl (fun s' (k, l) =>
    let s2 := s'.setB (F.TWN_KNOT_STATE_Q k) l
    match s.knotRec k with
    | some r => s2.knotOut k r l
    | none => s2) s
  s1.evalKnots (readsQ ks)

/-- The pulse of an event on channel `c` rises at the knots' inputs, and falls 4 ns later (R450, R458). -/
def State.pulseRise (s : State) (c : Nat) : State :=
  let s1 := { s with twine := { s.twine with
    pulses := s.twine.pulses.filter (fun (e : TwineEvent) => e.channel != c)
      ++ [({ channel := c, tick := (s.ticks + 4 * nsTicks) % 2 ^ 64 } : TwineEvent)] } }
  s1.evalKnots (readsChannel c)

/-- The pulses whose 4 ns are over fall. -/
def State.pulseFall (s : State) : State :=
  let past (e : TwineEvent) : Bool := decide (stampDiff 64 e.tick s.ticks ≤ 0)
  let gone := s.twine.pulses.filter past
  if gone.isEmpty then s
  else
    let s1 := { s with twine := { s.twine with pulses := s.twine.pulses.filter (fun e => !past e) } }
    gone.foldl (fun s' e => s'.evalKnots (readsChannel e.channel)) s1

/-- Bring TWN_EVT_IN up to date for ball `b` and evaluate the knots that read it. -/
def State.ballChanged (s : State) (b : Nat) : State :=
  (s.setB ⟨R.TWN_EVT_IN, b, 1⟩ (s.ballLevel b)).evalKnots (readsBall b)

/-- An EVT_OUT task drives ball `b` to a level (R454). -/
def State.driveBall (s : State) (b : Nat) (level : Bool) : State :=
  ({ s.emit (.evtOut b level) with twine := { s.twine with evtOut := s.twine.evtOut.put false b level } }).ballChanged b

/-! ## Group changes (R460, R461, R468) -/

/-- Disable group `g`; `hard` marks a disable by a task or a guard. -/
def State.groupDisable (s : State) (g : Nat) (hard : Bool) : State :=
  let s1 := s.unflag ⟨R.TWN_GROUP, g, 1⟩
  { s1 with twine := { s1.twine with
      lastOff := s1.twine.lastOff.put none g (some s.ticks)
      lastDis := if hard then s1.twine.lastDis.put none g (some s.ticks) else s1.twine.lastDis } }

/-- Enable group `g`: the guards of its knots count anew, and their outputs follow again (R460, R461). -/
def State.groupEnable (s : State) (g : Nat) : State :=
  let s1 := s.flag ⟨R.TWN_GROUP, g, 1⟩
  let ks := s.knotList.filter fun k => s.getF (F.TWN_CH_CFG_GROUP (s.getF (F.TWN_KNOT_CFG_OUT_CH k))) == g
  ks.foldl (fun s' k =>
    let s2 := s'.setKnot k { s'.knot k with changes := [] }
    match s.knotRec k with
    | some r => if (byteAt s.seed.image (r + 14)).testBit 0 then s2 else s2.knotOut k r (s2.knot k).level
    | none => s2) s1

/-- GROUP_EN by a task: a disable by task or guard that coincides prevails (R468). -/
def State.groupEnTask (s : State) (g : Nat) : State :=
  if s.coincides (s.twine.lastDis.at none g) then s
  else
    let s1 := if s.groupOn g then s else s.groupEnable g
    { s1 with twine := { s1.twine with lastEn := s1.twine.lastEn.put none g (some s.ticks) } }

/-- A write of TWN_GROUP (R460, R468): a task's change that coincides on a group stands. -/
def State.groupWrite (s : State) (v : Nat) : State :=
  (List.range 16).foldl (fun s' g =>
    if s.coincides (s.twine.lastDis.at none g) || s.coincides (s.twine.lastEn.at none g) then s'
    else if v.testBit g == s'.groupOn g then s'
    else if v.testBit g then s'.groupEnable g else s'.groupDisable g false) s

/-! ## Timers (R467) -/

/-- Timer `k` fires its source, and re-arms by PERIOD or disarms. -/
def State.timerFire (s : State) (k : Nat) : State :=
  let s1 := s.fireSource (160 + k)
  let p := s.getF (F.TWN_TIMER_PERIOD_PERIOD k)
  if p = 0 then s1.unflag (F.TWN_TIMER_CTL_EN k)
  else s1.setF (F.TWN_TIMER_AT_AT k) ((s.getF (F.TWN_TIMER_AT_AT k) + p) % 2 ^ 64)

/-- AT of timer `k` is not later than the counter (R82, R467). -/
def State.timerDue (s : State) (k : Nat) : Bool :=
  decide (stampDiff 64 (s.getF (F.TWN_TIMER_AT_AT k)) s.time.counter.toNat ≤ 0)

/-- A write of AT of timer `k` (R467): an armed timer whose AT is not later than the counter fires at once. -/
def State.timerAt (s : State) (k v : Nat) : State :=
  let s1 := s.setF (F.TWN_TIMER_AT_AT k) (v % 2 ^ 64)
  s1.when (s1.bit (F.TWN_TIMER_CTL_EN k) && s1.timerDue k) (·.timerFire k)

/-! ## Software fires (R460, R466) -/

/-- The events of group `g` are delivered: it is enabled, or a disable coincides (R468). -/
def State.groupOpen (s : State) (g : Nat) : Bool := s.groupOn g || s.coincides (s.twine.lastOff.at none g)

/-- A write of TWN_FIRE[k]: channel 32k + j fires for each bit j; an unused channel ignores it, and one of a disabled
group sets TWN_ERR.FIRE_OFF (R450, R460, R466). -/
def State.fireWrite (s : State) (k : Nat) (v : Word) : State :=
  if !s.twineRuns then s
  else (List.range 32).foldl (fun s' j =>
    let c := 32 * k + j
    if !v.getLsbD j || !s'.chanValid c then s'
    else if s'.groupOpen (s'.getF (F.TWN_CH_CFG_GROUP c)) then s'.placeEvent c
    else s'.flag F.TWN_ERR_FIRE_OFF) s

end Sys2Proof.Machine
end

