-- ==== Sys2Proof/Machine/ImageRates.lean ====
section
/-!
DEFINITION. What the loader derives from an image before it runs: the geometry of ports and beds, the declared rates and
loads (R132, R213, R218, R220, R243, R259, R331), and the Twine configuration's records (R462).
-/

namespace Sys2Proof.Machine

/-! ## Rates as fractions -/

/-- A non-negative rate as a fraction. -/
structure Rate where
  num : Nat
  den : Nat
  deriving DecidableEq, Repr

/-- A fraction of a whole number. -/
def Rate.nat (n : Nat) : Rate := ⟨n, 1⟩

/-- The sum of two rates. -/
def Rate.add (a b : Rate) : Rate := ⟨a.num * b.den + b.num * a.den, a.den * b.den⟩

/-- The sum of a list of rates. -/
def Rate.sum (l : List Rate) : Rate := l.foldl Rate.add ⟨0, 1⟩

/-- A rate exceeds a bound. -/
def Rate.exceeds (a : Rate) (b : Nat) : Bool := decide (b * a.den < a.num)

/-- A rate divided, rounded down. -/
def Rate.floorDiv (a : Rate) (unit : Nat) : Nat := a.num / (a.den * unit)

/-! ## Ports (R149, R160) -/

/-- The records of the sensor ports whose DEST_BED names a bed, in port order: the sensor slots of the bed (R177). -/
def imgSlots (img : List Byte) (n : Nat) : List Nat :=
  sortBy (fun a b => decide (byteAt img a ≤ byteAt img b)) ((recordOffsets img 0x02).filter fun r => byteAt img (r + 29) == n)

/-- Pruned width and height of a port's record (R160). -/
def imgPrunedW (img : List Byte) (r : Nat) : Nat := fieldAt img (r + 4) 2 - 8 * (fieldAt img (r + 48) 2 + fieldAt img (r + 50) 2)
def imgPrunedH (img : List Byte) (r : Nat) : Nat := fieldAt img (r + 6) 2 - 2 * (fieldAt img (r + 52) 2 + fieldAt img (r + 54) 2)

/-- FPS_NUM / FPS_DEN of a port's record, times a factor. -/
def imgFps (img : List Byte) (r k : Nat) : Rate := ⟨k * fieldAt img (r + 8) 4, fieldAt img (r + 12) 4⟩

/-- Lanes per Runner of a port's record. -/
def imgLanes (img : List Byte) (r : Nat) : Nat := 2 ^ bitsOf (byteAt img (r + 3)) 3 2

/-- The declared rate of a port, bits per second (R132). -/
def imgPortRate (img : List Byte) (r : Nat) : Rate :=
  imgFps img r (fieldAt img (r + 4) 2 * fieldAt img (r + 6) 2 * byteAt img (r + 2))

/-! ## Runners (R55, R116, R132) -/

/-- The Runner roles record of a Runner. -/
def imgRunner (img : List Byte) (n : Nat) : Option Nat := findRecord img 0x01 0 1 n

/-- The role a Runner has. -/
def imgRole (img : List Byte) (n : Nat) : Nat := ((imgRunner img n).map fun r => byteAt img (r + 1)).getD 0

/-- MAX_TIER of a Runner. -/
def imgMaxTier (img : List Byte) (n : Nat) : Nat := ((imgRunner img n).map fun r => byteAt img (r + 2)).getD 0

/-- Raw sensor mode of a Runner with eight lanes at a tier, bits per second (R116). -/
def rawData (t : Nat) : Nat := [12800, 25600, 51200].getD t 0 * 1000000

/-- The raster Runners a head's record names, in line order (R331). -/
def imgRasters (img : List Byte) (h : Nat) : List Nat :=
  ((List.range 4).map fun k => byteAt img (h + 8 + k)).filter (· != 0xFF)

/-- Bits of a raster item of a head (R331). -/
def imgRasterBits (img : List Byte) (h : Nat) : Nat :=
  let fmt := byteAt img (h + 14)
  let depth := if fmt.testBit 2 then 12 else 10
  let comps := if fmt % 4 = 2 then 2 else 3
  8 * (32 + (fieldAt img (h + 24) 2 * comps * depth + 7) / 8)

/-- The item rate of a head, bits per second (R331). -/
def imgRasterRate (img : List Byte) (h : Nat) : Rate :=
  ⟨imgRasterBits img h * fieldAt img (h + 16) 4 * 10000, fieldAt img (h + 20) 2 * fieldAt img (h + 22) 2⟩

/-- The sum of RATE over the trugs a consumer reads, bits per second (R113, R132). -/
def imgTrugRates (img : List Byte) (block inst : Nat) : Nat :=
  (((recordOffsets img 0x05).filter fun r => byteAt img (r + 10) == block && byteAt img (r + 11) == inst).map fun r =>
    fieldAt img (r + 12) 2 * 100000000).sum

/-- The declared load of a Runner, bits per second (R132). -/
def imgRunnerLoad (img : List Byte) (n : Nat) : Rate :=
  match imgRole img n with
  | 1 => match (recordOffsets img 0x02).find? fun r => decide (byteAt img r ≤ n) && decide (n < byteAt img r + byteAt img (r + 1)) with
    | some r => let q := imgPortRate img r; ⟨q.num, q.den * byteAt img (r + 1)⟩
    | none => ⟨0, 1⟩
  | 4 => match (recordOffsets img 0x09).find? fun h => (imgRasters img h).contains n with
    | some h => let q := imgRasterRate img h; ⟨q.num, q.den * (imgRasters img h).length⟩
    | none => ⟨0, 1⟩
  | 5 => Rate.nat (imgTrugRates img 2 n)
  | 2 | 3 =>
    let role := imgRole img n
    ⟨imgTrugRates img 10 (role - 2), ((recordOffsets img 0x01).filter fun r => byteAt img (r + 1) == role).length⟩
  | _ => ⟨0, 1⟩

/-- The capacity of a Runner at a tier, as its role measures it. -/
def imgRunnerCap (img : List Byte) (n t : Nat) : Nat :=
  if imgRole img n = 1 then
    match (recordOffsets img 0x02).find? fun r => decide (byteAt img r ≤ n) && decide (n < byteAt img r + byteAt img (r + 1)) with
    | some r => rawData t * imgLanes img r / 8
    | none => rawData t
  else userData t * 10000000

/-- REQ_TIER of a Runner: the lowest tier that carries its load, or 5 where none does (R132). -/
def imgReqTier (img : List Byte) (n : Nat) : Nat :=
  if imgRole img n = 0 then 0
  else ((List.range 5).find? fun t => !(imgRunnerLoad img n).exceeds (imgRunnerCap img n t)).getD 5

/-! ## Beds (R179, R213, R218, R220) -/

/-- The topology record whose group holds a bed. -/
def imgBed (img : List Byte) (n : Nat) : Option Nat :=
  (recordOffsets img 0x03).find? fun r => decide (byteAt img r ≤ n) && decide (n < byteAt img r + max 1 (byteAt img (r + 1)))

/-- A bed is a member of a group and not its lead. -/
def imgIsMember (img : List Byte) (n : Nat) : Bool :=
  (recordOffsets img 0x03).any fun r => decide (byteAt img r < n) && decide (n < byteAt img r + byteAt img (r + 1))

/-- First column of member `k` of a group, for an input width (R218). -/
def imgStripeX (img : List Byte) (r w k : Nat) : Nat :=
  if k = 0 then 0
  else if byteAt img (r + 1) ≤ k then w
  else ((List.range k).map fun i => 64 * fieldAt img (r + 4 + 2 * i) 2).sum

/-- Columns of member `k` with its aprons (R218). -/
def imgStripe (img : List Byte) (r w k : Nat) : Nat :=
  let join := max 1 (byteAt img (r + 1))
  imgStripeX img r w (k + 1) - imgStripeX img r w k + (if 0 < k then 16 else 0) + (if k + 1 < join then 16 else 0)

/-- The declared load of member `k` of a bed's record, sites per second (R220). -/
def imgBedLoad (img : List Byte) (r k : Nat) : Rate :=
  let slots := imgSlots img (byteAt img r)
  Rate.sum (slots.map fun p =>
    (imgFps img p (imgStripe img r (imgPrunedW img p) k * imgPrunedH img p)).add
      (if slots.length ≤ 1 then ⟨0, 1⟩ else imgFps img p (512 * ((imgPrunedH img p + 15) / 16))))

/-- Load of the most loaded member, in thousandths of the capacity at step 0 (R220, R243). -/
def imgLoadThousandths (img : List Byte) (r k : Nat) : Nat := (imgBedLoad img r k).floorDiv 10000000
def imgMaxLoad (img : List Byte) (r : Nat) : Nat :=
  (List.range (max 1 (byteAt img (r + 1)))).foldl (fun m k => max m (imgLoadThousandths img r k)) 0

/-- Line store columns in use in member `k` (R180). -/
def imgColumns (img : List Byte) (r k : Nat) : Nat :=
  ((imgSlots img (byteAt img r)).map fun p => imgStripe img r (imgPrunedW img p) k).sum

/-- The largest item of a tap at a width (R213): 0 raw, 1 developed, 2 proxy. -/
def imgTapItem (img : List Byte) (r t w : Nat) : Nat :=
  if t = 0 then
    match bitsOf (byteAt img (r + 10)) 3 2 with
    | 0 => 32 + 2 * w
    | 1 => 32 + (20 * w + 7) / 8
    | _ => 32 + 3 * w
  else 32 + 6 * w

/-- Whole frame strides in the part of slot `k` of a tap's plot of `size` bytes (R213). -/
def imgTapFrames (img : List Byte) (r t k size : Nat) : Nat :=
  let slots := imgSlots img (byteAt img r)
  match slots[k]? with
  | some p =>
    let line := (imgTapItem img r t (imgPrunedW img p) + 63) / 64 * 64
    let frame := (imgPrunedH img p * line + 4095) / 4096 * 4096
    size / slots.length / 4096 * 4096 / frame
  | none => 0

/-- DEST and target of a tap of a bed's record. -/
def imgTapDest (img : List Byte) (r t : Nat) : Nat := byteAt img (r + 10 + t) % 4
def imgTapTarget (img : List Byte) (r t : Nat) : Nat := fieldAt img (r + 14 + 2 * t) 2

/-- The budget of a kernel, cycles per tile (R243). -/
def imgBudget (img : List Byte) (k : KernelRec) : Nat :=
  match imgBed img (k.splice / 2) with
  | some r => k.engines * 2560 / imgMaxLoad img r
  | none => 0

/-! ## Plots and trugs -/

/-- The record of a plot, and of a trug. -/
def imgPlot (img : List Byte) (i : Nat) : Option Nat := findRecord img 0x07 0 2 i
def imgTrug (img : List Byte) (n : Nat) : Option Nat := findRecord img 0x05 0 2 n

/-- Bytes of a plot; 0 where no record defines it. -/
def imgPlotSize (img : List Byte) (i : Nat) : Nat := ((imgPlot img i).map fun r => fieldAt img (r + 16) 8).getD 0

/-! ## Stream engines (R259, R277, R280, R284, R294) -/

/-- Luma samples per second an engine codes or decodes, by PROFILE (R259). -/
def engineRate (profile : Nat) : Nat := if profile ≤ 4 then 4250000000 else 2830000000

/-- The contexts' records of an engine. -/
def imgContexts (img : List Byte) (e : Nat) : List Nat := (recordOffsets img 0x08).filter fun r => byteAt img r == e

/-- The load of an engine as a fraction of 1 (R259, R294). -/
def imgEngineLoad (img : List Byte) (e : Nat) : Rate :=
  let l := imgContexts img e
  Rate.sum (l.map fun r =>
    let num := fieldAt img (r + 20) 2
    let den := fieldAt img (r + 22) 2
    (Rate.mk (fieldAt img (r + 12) 2 * fieldAt img (r + 14) 2 * num) (den * engineRate (byteAt img (r + 3)))).add
      (if l.length ≤ 1 then ⟨0, 1⟩ else ⟨40 * num, 1000000 * den⟩))

/-- Samples of a picture in a chroma format: 1 4:2:0, 2 4:2:2, 3 4:4:4. -/
def pictureSamples (chroma w h : Nat) : Nat := if chroma = 1 then w * h * 3 / 2 else if chroma = 2 then 2 * w * h else 3 * w * h

/-- Bytes of a context's part of REF_PLOT, rounded up to 4 KiB (R284, R293). -/
def imgRefBytes (img : List Byte) (r : Nat) : Nat :=
  let pic := 2 * pictureSamples (profileChroma (byteAt img (r + 3))) (fieldAt img (r + 12) 2) (fieldAt img (r + 14) 2)
  let b := if byteAt img (r + 2) = 1 then (byteAt img (r + 6) + 1) * pic else ((byteAt img (r + 6) + 2) * pic * 21 + 15) / 16
  (b + 4095) / 4096 * 4096

/-- D and M of the VBV rules (R277). -/
def imgVbvD (img : List Byte) (r : Nat) : Nat := fieldAt img (r + 28) 4 * 125 * fieldAt img (r + 22) 2 / fieldAt img (r + 20) 2
def imgVbvM (img : List Byte) (r : Nat) : Nat :=
  256 + 48 + 32 + 12 * (((fieldAt img (r + 12) 2 + 63) / 64) * ((fieldAt img (r + 14) 2 + 63) / 64))

/-- CpbNalFactor of the profiles in H.265 Annex A: the high-tier bit rate and CPB size of level 6.2 are 800,000 times
this. -/
def cpbFactor (profile : Nat) : Nat := [1100, 1100, 1650, 1833, 2200, 3300].getD profile 1100

/-- The cells of a context's mosaic, of its own DIR; the context alone outside a mosaic (R280, R306). -/
def imgCells (img : List Byte) (r : Nat) : List Nat :=
  if byteAt img (r + 46) = 0xFF then [r]
  else (recordOffsets img 0x08).filter fun q => byteAt img (q + 46) == byteAt img (r + 46) && byteAt img (q + 2) == byteAt img (r + 2)

/-- Frame stride of a decode context's OUT_PLOT (R297, R306). -/
def imgOutStride (img : List Byte) (r : Nat) : Nat :=
  let (w, h) := (imgCells img r).foldl (fun (acc : Nat × Nat) q =>
    (max acc.1 (fieldAt img (q + 16) 2 + fieldAt img (q + 12) 2), max acc.2 (fieldAt img (q + 18) 2 + fieldAt img (q + 14) 2)))
    (0, 0)
  planeOffset (profileChroma (byteAt img (r + 3))) w h 3

/-! ## Twine (R462, R465) -/

/-- Byte offsets of the Twine records of a section, by their LEN; a record without a length ends the walk. -/
def twineScan (img : List Byte) : Nat → Nat → Nat → List Nat
  | 0, _, _ => []
  | fuel + 1, o, stop =>
    if stop ≤ o then []
    else if byteAt img (o + 1) = 0 then [o] else o :: twineScan img fuel (o + byteAt img (o + 1)) stop

/-- The offset and the end of a section; none where it is absent. -/
def sectionSpan (img : List Byte) (t : Nat) : Option (Nat × Nat) :=
  (findSection img t).map fun n => (fieldAt img (36 + 16 * n) 4, fieldAt img (36 + 16 * n) 4 + fieldAt img (40 + 16 * n) 4)

/-- The Twine records of an image of a kind. -/
def imgTwine (img : List Byte) (kind : Nat) : List Nat :=
  match sectionSpan img 0x06 with
  | some (a, b) => (twineScan img 401 a b).filter fun r => byteAt img r == kind
  | none => []

/-- The channel record of a channel. -/
def imgChannel (img : List Byte) (c : Nat) : Option Nat := (imgTwine img 1).find? fun r => fieldAt img (r + 2) 2 == c

/-- The fork entries in use of a channel record: field offset, task and PARAM (R462). -/
def imgForks (img : List Byte) (r : Nat) : List (Nat × Nat × Nat) :=
  (List.range (min 8 (byteAt img (r + 8)))).map fun i =>
    let w := fieldAt img (r + 16 + 2 * i) 2
    (r + 16 + 2 * i, bitsOf w 0 10, bitsOf w 10 6)

/-- The knot inputs: field offset and value. -/
def imgInputs (img : List Byte) (r : Nat) : List (Nat × Nat) := (List.range 4).map fun j => (r + 4 + 2 * j, fieldAt img (r + 4 + 2 * j) 2)

/-- Knot `k`'s output reaches an input of knot `j` (R465): through OUT_CH as an input or clock, or through a ball that an
EVT_OUT task of OUT_CH drives. -/
def knotEdge (img : List Byte) (k j : Nat) : Bool :=
  let out := byteAt img (k + 3)
  let balls := match imgChannel img out with
    | some c => (imgForks img c).filterMap fun (x : Nat × Nat × Nat) => if x.2.1 < 32 then some x.2.1 else none
    | none => []
  ((imgInputs img j).any fun (_, v) => (bitsOf v 14 2 == 1 && v % 256 == out) || (bitsOf v 14 2 == 3 && balls.contains (v % 32)))
    || ((byteAt img (j + 14)).testBit 0 && byteAt img (j + 15) == out)

/-- Knots left when those without a predecessor or without a successor among them are taken away, `n` times. -/
def cyclicCore (img : List Byte) : Nat → List Nat → List Nat
  | 0, l => l
  | n + 1, l => cyclicCore img n (l.filter fun k => l.any (fun j => knotEdge img j k) && l.any (fun j => knotEdge img k j))

/-- The knots without a flip-flop that lie between cycles of such knots (R465). -/
def combLoop (img : List Byte) : List Nat :=
  let l := (imgTwine img 2).filter fun r => !(byteAt img (r + 14)).testBit 0
  cyclicCore img l.length l

end Sys2Proof.Machine
end

