-- ==== Sys2Proof/Machine/LoadRange.lean ====
section
/-!
DEFINITION. The loader's RANGE check: every field of every record within its encoding and its bounds (R51, R56, R57, R58,
R61, R62, R113, R150, R180, R245, R246, R247, R258, R277, R280, R293, R314, R329, R341, R435, R462 to R465, R471).
-/

namespace Sys2Proof.Machine

/-- A failing field (R524): the code of its check, its byte offset and the section that holds it. -/
structure Failing where
  code : Nat
  sec : Nat
  off : Nat
  deriving DecidableEq, Repr

/-- The failing field where a condition holds. -/
def failIf (code sec off : Nat) (c : Bool) : List Failing := if c then [⟨code, sec, off⟩] else []

/-- RANGE at a field where a condition holds. -/
def rangeIf (sec off : Nat) (c : Bool) : List Failing := failIf 0x0B sec off c

/-- RANGE for a field of `n` bytes outside `lo` to `hi`. -/
def bound (img : List Byte) (sec off n lo hi : Nat) : List Failing :=
  rangeIf sec off (decide (fieldAt img off n < lo) || decide (hi < fieldAt img off n))

/-- RANGE for every byte from `a` up to `b` that is not zero. -/
def zeroBytes (img : List Byte) (sec a b : Nat) : List Failing :=
  ((List.range (b - a)).filter fun i => byteAt img (a + i) != 0).map fun i => ⟨0x0B, sec, a + i⟩

/-- Of pairs of a key and an offset, the offsets whose key another pair has at a lower offset. -/
def repeats (l : List (Nat × Nat)) : List Nat :=
  (l.filter fun p => l.any fun q => q.1 == p.1 && decide (q.2 < p.2)).map (·.2)

/-- Failing fields at offsets. -/
def failAt (code sec : Nat) (l : List Nat) : List Failing := l.map fun o => ⟨code, sec, o⟩

/-! ## Header and signature block (R51, R62), directory counts (R54) -/

/-- Records of a section type at most (R54). -/
def recordMax (t : Nat) : Nat :=
  match t with
  | 0x01 | 0x02 | 0x0A => 64
  | 0x03 => 16
  | 0x04 | 0x08 => 128
  | 0x05 => 512
  | 0x06 => 400
  | 0x07 => 1024
  | 0x09 => 8
  | 0x0B => 12
  | 0x0C => 1
  | 0x0D => 256
  | _ => 65535

def rangeHeader (img : List Byte) : List Failing :=
  let n := img.length - 256
  rangeIf 0 6 (decide (8 ≤ byteAt img 6)) ++ rangeIf 0 14 (decide (2 ≤ byteAt img 14)) ++ zeroBytes img 0 15 16
    ++ zeroBytes img 0 24 32 ++ zeroBytes img 0 (n + 5) (n + 8) ++ zeroBytes img 0 (n + 200) (n + 256)
    ++ (List.range (sectionCount img)).flatMap fun i =>
      rangeIf 0 (34 + 16 * i) (decide (recordMax (byteAt img (32 + 16 * i)) < fieldAt img (34 + 16 * i) 2))

/-! ## Runner roles, thermal limits and the degrade plan -/

/-- The key of the resource a BOND_INDEX belongs to: the hedgerow ports, and each egress group. -/
def bondKey (img : List Byte) (r : Nat) : Nat :=
  let role := byteAt img (r + 1)
  if role = 5 then 16 + byteAt img (r + 3) else role

/-- A role whose Runners are bonded. -/
def bonded (role : Nat) : Bool := role == 2 || role == 3 || role == 5

def rangeRunners (img : List Byte) : List Failing :=
  let l := recordOffsets img 0x01
  l.flatMap fun r =>
    let role := byteAt img (r + 1)
    bound img 1 r 1 0 63 ++ bound img 1 (r + 1) 1 0 5 ++ bound img 1 (r + 2) 1 0 (if role = 1 then 2 else 4)
      ++ (if role = 5 then bound img 1 (r + 3) 1 0 15 else bound img 1 (r + 3) 1 0xFF 0xFF)
      ++ bound img 1 (r + 4) 1 0 (if bonded role then 3 else 0) ++ zeroBytes img 1 (r + 5) (r + 8)
      ++ rangeIf 1 (r + 4) (bonded role && (List.range (byteAt img (r + 4))).any fun i =>
        !l.any fun q => bonded (byteAt img (q + 1)) && bondKey img q == bondKey img r && byteAt img (q + 4) == i)

def rangeThermal (img : List Byte) : List Failing :=
  (recordOffsets img 0x0C).flatMap fun r =>
    bound img 12 r 2 4 80 ++ bound img 12 (r + 2) 2 8 160 ++ bound img 12 (r + 4) 2 10 1000 ++ bound img 12 (r + 6) 2 100 10000
      ++ bound img 12 (r + 8) 2 480 760 ++ zeroBytes img 12 (r + 10) (r + 16)
      ++ rangeIf 12 (r + 2) (decide (fieldAt img (r + 2) 2 ≤ fieldAt img r 2))

/-- The triggers an action serves (R59). -/
def actionServes (action trigger : Nat) : Bool :=
  match action with
  | 1 | 2 | 3 | 4 | 5 => decide (1 ≤ trigger) && decide (trigger ≤ 5)
  | 6 => trigger == 2
  | 7 => trigger == 3
  | 8 => trigger == 4 || trigger == 5
  | 9 | 10 => trigger == 6
  | _ => false

/-- Instances of the block an action addresses, on the QC-8816 (R58). -/
def actionCount (action : Nat) : Nat :=
  match action with
  | 1 | 2 | 3 | 4 => 16
  | 5 => 8
  | 6 => 64
  | 7 => 32
  | 8 => 1024
  | _ => 32

def rangePlan (img : List Byte) : List Failing :=
  (recordOffsets img 0x0D).flatMap fun r =>
    let i := fieldAt img (r + 2) 2
    bound img 13 r 1 1 6 ++ rangeIf 13 (r + 1) (!actionServes (byteAt img (r + 1)) (byteAt img r))
      ++ rangeIf 13 (r + 2) (i != 0xFFFF && decide (actionCount (byteAt img (r + 1)) ≤ i)) ++ zeroBytes img 13 (r + 4) (r + 8)

/-! ## Trugs and plots -/

/-- Instances of a block that a trug record may name on the QC-8816, where the block's count bounds them. -/
def blockInstances (b : Nat) : Nat :=
  match b with
  | 2 | 3 => 64
  | 4 | 6 => 16
  | 7 => 8
  | 10 => 2
  | 11 => 12
  | _ => 256

def rangeTrugs (img : List Byte) : List Failing :=
  let l := recordOffsets img 0x05
  (l.flatMap fun r =>
    bound img 5 r 2 0 511 ++ bound img 5 (r + 2) 1 0 3 ++ zeroBytes img 5 (r + 3) (r + 4) ++ bound img 5 (r + 4) 4 4 65536
      ++ bound img 5 (r + 8) 1 0 16 ++ rangeIf 5 (r + 9) (decide (blockInstances (byteAt img (r + 8)) ≤ byteAt img (r + 9)))
      ++ bound img 5 (r + 10) 1 0 16 ++ rangeIf 5 (r + 11) (decide (blockInstances (byteAt img (r + 10)) ≤ byteAt img (r + 11)))
      ++ bound img 5 (r + 12) 2 1 5120 ++ zeroBytes img 5 (r + 14) (r + 16))
  ++ (l.zipIdx.flatMap fun (r, i) =>
    rangeIf 5 (r + 4) (decide (524288 < ((l.take (i + 1)).map fun q => fieldAt img (q + 4) 4).sum)))

def rangePlots (img : List Byte) : List Failing :=
  let l := recordOffsets img 0x07
  let kind (k : Nat) := repeats ((l.filter fun r => byteAt img (r + 2) == k).map fun r => (k, r + 2))
  (l.flatMap fun r =>
    let size := fieldAt img (r + 16) 8
    bound img 7 r 2 0 1023 ++ bound img 7 (r + 2) 1 0 2 ++ bound img 7 (r + 3) 1 0 7 ++ zeroBytes img 7 (r + 4) (r + 8)
      ++ rangeIf 7 (r + 8) (fieldAt img (r + 8) 8 % 4096 != 0) ++ rangeIf 7 (r + 16) (size % 4096 != 0 || size == 0)
      ++ zeroBytes img 7 (r + 24) (r + 32)
      ++ rangeIf 7 (r + 16) (byteAt img (r + 2) == 1 && !(List.range 16).any fun k => size == 32768 * 2 ^ k))
  ++ failAt 0x0B 7 (kind 1 ++ kind 2)

/-! ## Ports and beds -/

def rangePorts (img : List Byte) : List Failing :=
  (recordOffsets img 0x02).flatMap fun r =>
    let top := 2 ^ byteAt img (r + 2) - 1
    let w := fieldAt img (r + 4) 2
    let gang := byteAt img (r + 1)
    let cut (a b : Nat) : Nat := fieldAt img a 2 + fieldAt img b 2
    let mask := fieldAt img (r + 46) 2
    let code (k : Nat) : Nat := fieldAt img (r + 38 + 2 * k) 2 &&& mask
    let tiers := (List.range gang).filterMap fun k => imgRunner img (byteAt img r + k)
    bound img 2 r 1 0 63 ++ bound img 2 (r + 1) 1 1 8 ++ bound img 2 (r + 2) 1 8 16 ++ rangeIf 2 (r + 3) (decide (32 ≤ byteAt img (r + 3)))
      ++ bound img 2 (r + 4) 2 64 32768 ++ bound img 2 (r + 6) 2 16 16384 ++ bound img 2 (r + 8) 4 1 1000000
      ++ bound img 2 (r + 12) 4 1 1000000 ++ bound img 2 (r + 16) 2 50 65535 ++ bound img 2 (r + 18) 2 0 top
      ++ bound img 2 (r + 20) 4 0 10000000 ++ bound img 2 (r + 24) 4 0 1000000
      ++ rangeIf 2 (r + 28) (decide (16 ≤ byteAt img (r + 28)) && byteAt img (r + 28) != 0xFF)
      ++ rangeIf 2 (r + 29) (decide (16 ≤ byteAt img (r + 29)) && byteAt img (r + 29) != 0xFF)
      ++ rangeIf 2 (r + 30) (decide (16 ≤ byteAt img (r + 30)) && byteAt img (r + 30) != 0xFF)
      ++ rangeIf 2 (r + 30) (byteAt img (r + 29) == 0xFF && byteAt img (r + 30) == 0xFF) ++ bound img 2 (r + 31) 1 0 3
      ++ ((List.range 7).flatMap fun k => bound img 2 (r + 32 + 2 * k) 2 0 top) ++ bound img 2 (r + 46) 2 1 top
      ++ rangeIf 2 (r + 56) (fieldAt img (r + 56) 4 == 2 ^ 31) ++ zeroBytes img 2 (r + 60) (r + 128)
      ++ rangeIf 2 (r + 4) (gang != 0 && w % (gang * imgLanes img r) != 0)
      ++ rangeIf 2 (r + 3) (!(byteAt img (r + 3)).testBit 1 && imgMaxTier img (byteAt img r) == 2)
      ++ rangeIf 2 (r + 50) (decide (w < 8 * cut (r + 48) (r + 50) + 64))
      ++ rangeIf 2 (r + 54) (decide (fieldAt img (r + 6) 2 < 2 * cut (r + 52) (r + 54) + 16))
      ++ ((List.range 4).flatMap fun k => rangeIf 2 (r + 38 + 2 * k) ((List.range k).any fun j => code j == code k))
      ++ (tiers.flatMap fun q => rangeIf 1 (q + 2) (tiers.any fun p => decide (p < q) && byteAt img (p + 2) != byteAt img (q + 2)))

def rangeBeds (img : List Byte) : List Failing :=
  (recordOffsets img 0x03).flatMap fun r =>
    let join := byteAt img (r + 1)
    let slots := imgSlots img (byteAt img r)
    let period := if (byteAt img (r + 2)).testBit 0 then 4 else 2
    bound img 3 r 1 0 15 ++ bound img 3 (r + 1) 1 1 4 ++ rangeIf 3 (r + 2) (decide (8 ≤ byteAt img (r + 2))) ++ zeroBytes img 3 (r + 3) (r + 4)
      ++ ((List.range 3).flatMap fun k =>
        let v := fieldAt img (r + 4 + 2 * k) 2
        rangeIf 3 (r + 4 + 2 * k) (if k + 1 < join then decide (64 * v < 256) else v != 0))
      ++ rangeIf 3 (r + 10) (byteAt img (r + 10) % 4 == 3 || bitsOf (byteAt img (r + 10)) 3 2 == 3 || decide (32 ≤ byteAt img (r + 10)))
      ++ bound img 3 (r + 11) 1 0 2 ++ bound img 3 (r + 12) 1 0 2 ++ zeroBytes img 3 (r + 13) (r + 14) ++ zeroBytes img 3 (r + 22) (r + 32)
      ++ (slots.zipIdx.flatMap fun (p, k) =>
        rangeIf 2 (p + 29) (decide (8 ≤ k) || (decide (1 < join) && decide (1 ≤ k)))
          ++ rangeIf (if p + 4 < r + 2 then 3 else 2) (max (p + 4) (r + 2)) (fieldAt img (p + 4) 2 % period != 0)
          ++ rangeIf (if p + 6 < r + 2 then 3 else 2) (max (p + 6) (r + 2)) (fieldAt img (p + 6) 2 % period != 0)
          ++ rangeIf (if p + 50 < r + 2 then 3 else 2) (max (p + 50) (r + 2)) (imgPrunedW img p % period != 0)
          ++ rangeIf (if p + 54 < r + 2 then 3 else 2) (max (p + 54) (r + 2)) (imgPrunedH img p % period != 0)
          ++ rangeIf 3 (r + 4 + 2 * (join - 2)) (decide (1 < join) && decide (imgPrunedW img p ≤ imgStripeX img r (imgPrunedW img p) (join - 1)))
          ++ ((List.range 3).flatMap fun t => match imgPlot img (imgTapTarget img r t) with
            | some q => rangeIf (if r < q then 7 else 3) (max (r + 14 + 2 * t) (q + 16))
                (imgTapDest img r t == 2 && imgTapFrames img r t k (fieldAt img (q + 16) 8) == 0)
            | none => []))
      ++ rangeIf 3 r ((List.range (max 1 join)).any fun k => decide (65536 < imgColumns img r k))

/-! ## Splice kernels (R245 to R247) -/

def rangeKernels (s : State) (img : List Byte) : List Failing :=
  let l := kernelsOf img
  let stop := ((sectionSpan img 0x04).map (·.2)).getD 0
  (l.zipIdx.flatMap fun (k, i) =>
    let o := k.off
    let size := 64 + k.codeBytes + k.constLen + k.dataLen
    let len := fieldAt img o 4
    rangeIf 4 o (len != size || decide (stop < o + len) || (i + 1 == l.length && o + len != stop))
      ++ bound img 4 (o + 4) 1 0 31 ++ bound img 4 (o + 5) 1 0 3 ++ bound img 4 (o + 6) 1 1 8
      ++ rangeIf 4 (o + 7) (k.rows % 2 == 0 || decide (15 < k.rows)) ++ rangeIf 4 (o + 8) (k.cycles == 0)
      ++ bound img 4 (o + 12) 2 1 4096 ++ zeroBytes img 4 (o + 14) (o + 16) ++ rangeIf 4 (o + 16) (k.constLen % 64 != 0)
      ++ rangeIf 4 (o + 20) (k.dataLen % 64 != 0) ++ rangeIf 4 (o + 24) (decide (k.codeLen ≤ k.entry))
      ++ rangeIf 4 (o + 28) (match k.frameEntry with | some e => decide (k.codeLen ≤ e) | none => false)
      ++ zeroBytes img 4 (o + 32) (o + 64) ++ zeroBytes img 4 (o + 64 + 8 * k.codeLen) (o + 64 + k.codeBytes)
      ++ rangeIf 4 (o + 4) (imgIsMember img (k.splice / 2))
      ++ rangeIf 4 (o + 5) ((List.range k.order).any fun j => !l.any fun q => q.splice == k.splice && q.order == j)
      ++ rangeIf 4 (o + 7) (match imgBed img (k.splice / 2) with
        | some r =>
          let wide := ((imgSlots img (byteAt img r)).flatMap fun p =>
            (List.range (max 1 (byteAt img (r + 1)))).map fun m => imgStripe img r (imgPrunedW img p) m).foldl max 0
          decide (2097152 < (k.rows + k.engines + 16) * wide * (if k.splice % 2 = 1 then 3 else 1))
        | none => false)
      ++ rangeIf 4 (o + 6) (decide (s.variant.peBase < ((l.take (i + 1)).map fun q =>
        q.engines * ((imgBed img (q.splice / 2)).map fun r => byteAt img (r + 1)).getD 1).sum)))

/-! ## Stream contexts (R257, R258, R277, R280, R292, R293) -/

/-- Bytes of REF_PLOT that the contexts which name it take, up to and with one (R284). -/
def refUse (img : List Byte) (plot r : Nat) : Nat :=
  (((recordOffsets img 0x08).filter fun q => decide (q ≤ r) && fieldAt img (q + 48) 2 == plot).map (imgRefBytes img)).sum

/-- What encode and decode records share. -/
def rangeContext (s : State) (img : List Byte) (r : Nat) : List Failing :=
  let same := imgContexts img (byteAt img r)
  let alone (q : Nat) : Bool := (byteAt img (q + 2) == 0 && byteAt img (q + 4) == 1) || (byteAt img (q + 2) == 0 && byteAt img (q + 46) != 0xFF)
  bound img 8 r 1 0 15 ++ bound img 8 (r + 1) 1 0 7 ++ bound img 8 (r + 2) 1 0 1 ++ bound img 8 (r + 3) 1 1 5 ++ bound img 8 (r + 4) 1 1 2
    ++ bound img 8 (r + 12) 2 64 8192 ++ rangeIf 8 (r + 12) (fieldAt img (r + 12) 2 % 8 != 0) ++ bound img 8 (r + 14) 2 64 4352
    ++ rangeIf 8 (r + 14) (fieldAt img (r + 14) 2 % 8 != 0) ++ bound img 8 (r + 20) 2 1 65535 ++ bound img 8 (r + 22) 2 1 65535
    ++ rangeIf 8 (r + 46) (decide (16 ≤ byteAt img (r + 46)) && byteAt img (r + 46) != 0xFF)
    ++ rangeIf 8 (r + 47) (decide (4 ≤ byteAt img (r + 47) % 16) || decide (4 ≤ byteAt img (r + 47) / 16))
    ++ rangeIf 8 r ((decide (s.variant.contexts = 1) || same.any alone) && same.any (fun q => decide (q < r)))
    ++ rangeIf 8 (r + 48) ((imgPlot img (fieldAt img (r + 48) 2)).isSome
      && decide (imgPlotSize img (fieldAt img (r + 48) 2) < refUse img (fieldAt img (r + 48) 2) r))
    ++ rangeIf 8 (r + 50) (decide (1 < s.variant.contexts) && (imgPlot img (fieldAt img (r + 50) 2)).isSome
      && decide (imgPlotSize img (fieldAt img (r + 50) 2) < 2 ^ 21 *
        ((recordOffsets img 0x08).filter fun q => decide (q ≤ r) && fieldAt img (q + 50) 2 == fieldAt img (r + 50) 2).length))

/-- The grid of an encode mosaic (R280): cells agree in the common fields, share columns and rows, and abut. -/
def rangeMosaic (img : List Byte) (r : Nat) : List Failing :=
  let cells := imgCells img r
  let col (q : Nat) : Nat := byteAt img (q + 47) % 16
  let row (q : Nat) : Nat := byteAt img (q + 47) / 16
  let cols := (cells.map col).foldl max 0 + 1
  let rows := (cells.map row).foldl max 0 + 1
  let before := cells.filter (· < r)
  if byteAt img (r + 46) = 0xFF then []
  else
    ([(8, 2), (3, 1), (5, 1), (6, 1), (20, 2), (22, 2), (24, 1), (44, 2)].flatMap fun (o, n) =>
      rangeIf 8 (r + o) (before.any fun q => fieldAt img (q + o) n != fieldAt img (r + o) n))
    ++ rangeIf 8 (r + 47) (before.any fun q => byteAt img (q + 47) == byteAt img (r + 47))
    ++ rangeIf 8 (r + 47) (cells.length != cols * rows && !cells.any (r < ·))
    ++ ([(16, 12)].flatMap fun (a, b) =>
      rangeIf 8 (r + a) (before.any fun q => col q == col r && fieldAt img (q + a) 2 != fieldAt img (r + a) 2)
        ++ rangeIf 8 (r + b) (before.any fun q => col q == col r && fieldAt img (q + b) 2 != fieldAt img (r + b) 2))
    ++ ([(18, 14)].flatMap fun (a, b) =>
      rangeIf 8 (r + a) (before.any fun q => row q == row r && fieldAt img (q + a) 2 != fieldAt img (r + a) 2)
        ++ rangeIf 8 (r + b) (before.any fun q => row q == row r && fieldAt img (q + b) 2 != fieldAt img (r + b) 2))
    ++ (cells.flatMap fun q =>
      rangeIf 8 (max r q + 16) (col q + 1 == col r && fieldAt img (q + 16) 2 + fieldAt img (q + 12) 2 != fieldAt img (r + 16) 2)
        ++ rangeIf 8 (max r q + 18) (row q + 1 == row r && fieldAt img (q + 18) 2 + fieldAt img (q + 14) 2 != fieldAt img (r + 18) 2))

/-- An encode record. -/
def rangeEncode (img : List Byte) (r : Nat) : List Failing :=
  let d := imgVbvD img r
  let m := imgVbvM img r
  let size := fieldAt img (r + 32) 4
  let init := fieldAt img (r + 36) 4
  let profile := byteAt img (r + 3)
  let pinned := byteAt img (r + 5) == 2
  bound img 8 (r + 5) 1 0 2 ++ bound img 8 (r + 6) 1 1 4 ++ bound img 8 (r + 10) 2 0 511
    ++ rangeIf 8 (r + 24) (byteAt img (r + 24) == 1 || decide (64 < byteAt img (r + 24))) ++ bound img 8 (r + 25) 1 0 51
    ++ bound img 8 (r + 26) 1 (byteAt img (r + 25)) 51 ++ bound img 8 (r + 27) 1 0 31 ++ bound img 8 (r + 28) 4 1000 3200000
    ++ zeroBytes img 8 (r + 55) (r + 64) ++ rangeIf 8 (r + 14) (decide ((fieldAt img (r + 14) 2 + 63) / 64 < byteAt img (r + 7)))
    ++ rangeIf 8 (r + 5) (pinned && byteAt img (r + 4) == 1) ++ rangeIf 8 (r + 24) (pinned && byteAt img (r + 24) != 0)
    ++ rangeIf 8 (r + 28) (decide (d < m)) ++ rangeIf 8 (r + 40) (decide (fieldAt img (r + 40) 4 < m))
    ++ rangeIf 8 (r + 36) (decide (init < m) || decide (size < init)) ++ rangeIf 8 (r + 32) (decide (size < d))
    ++ rangeIf 8 (r + 32) (decide (800000 * cpbFactor profile < 8 * size)) ++ rangeMosaic img r

/-- The part common to two intervals is not empty. -/
def meetsSpan (a n b m : Nat) : Bool := decide (a < b + m) && decide (b < a + n)

/-- A decode record (R292, R293). -/
def rangeDecode (img : List Byte) (r : Nat) : List Failing :=
  let cells := imgCells img r
  let mos := byteAt img (r + 46) != 0xFF
  let f (q o : Nat) : Nat := fieldAt img (q + o) 2
  let before := cells.filter (· < r)
  let w := (cells.map fun q => f q 16 + f q 12).foldl max 0
  let h := (cells.map fun q => f q 18 + f q 14).foldl max 0
  bound img 8 (r + 6) 1 1 6 ++ bound img 8 (r + 16) 2 0 32767 ++ bound img 8 (r + 18) 2 0 16383
    ++ rangeIf 8 (r + 27) (byteAt img (r + 27) != 0 && byteAt img (r + 27) != 16)
    ++ rangeIf 8 (r + 44) (decide (512 ≤ f r 44) && f r 44 != 0xFFFF)
    ++ ([(5, 6), (7, 8), (24, 27), (28, 44), (52, 64)].flatMap fun (a, b) => zeroBytes img 8 (r + a) (r + b))
    ++ (if mos then [] else zeroBytes img 8 (r + 16) (r + 20))
    ++ rangeIf 8 (r + 10) ((imgPlot img (f r 10)).isSome && decide (imgPlotSize img (f r 10) < 2 * imgOutStride img r))
    ++ (if mos then
      ([(10, 2), (3, 1), (20, 2), (22, 2)].flatMap fun (o, n) =>
        rangeIf 8 (r + o) (before.any fun q => fieldAt img (q + o) n != fieldAt img (r + o) n))
      ++ rangeIf 8 (r + 18) (before.any fun q => meetsSpan (f q 16) (f q 12) (f r 16) (f r 12) && meetsSpan (f q 18) (f q 14) (f r 18) (f r 14))
      ++ rangeIf 8 (r + 18) ((cells.map fun q => f q 12 * f q 14).sum != w * h && !cells.any (r < ·))
    else [])

def rangeStreams (s : State) (img : List Byte) : List Failing :=
  (recordOffsets img 0x08).flatMap fun r =>
    rangeContext s img r ++ (if byteAt img (r + 2) = 1 then rangeDecode img r else rangeEncode img r)

/-! ## Heads (R311 to R314, R329, R330) -/

/-- The raster of a head's record is one of the SDI formats of R329. -/
def sdiFormat (img : List Byte) (r : Nat) : Bool :=
  let f (o : Nat) : Nat := fieldAt img (r + o) 2
  let k := if (byteAt img (r + 3)).testBit 3 then 2 else 1
  let fmt := byteAt img (r + 14)
  let low := fmt % 4 == 2
  let clock (num den : Nat) : Bool := fieldAt img (r + 16) 4 * 10000 * den == num * k * k * f 20
  let rate (fps : Nat) : Bool := f 22 * f 30 * fps == 594000000 * k * k
  let whole := if low then [48, 50, 60] else [24, 25, 30]
  let slow := if low then [48, 60] else [24, 30]
  (f 24 == 3840 * k || f 24 == 4096 * k) && f 32 == 2160 * k && f 30 == 2250 * k && !(low && fmt.testBit 2)
    && ((clock 594000000 1 && whole.any rate) || (clock 594000000000 1001 && slow.any rate))

/-- Frame slots of the plot part a following plane shows; none where it follows no bed or decoder plot (R314). -/
def followSlots (img : List Byte) (p : Nat) : Option Nat :=
  let plot := fieldAt img (p + 4) 2
  match byteAt img (p + 1) with
  | 0 => ((recordOffsets img 0x03).flatMap fun r => (List.range 3).map fun t => (r, t)).findSome? fun (x : Nat × Nat) =>
      if imgTapDest img x.1 x.2 == 2 && imgTapTarget img x.1 x.2 == plot then
        some (imgTapFrames img x.1 x.2 (byteAt img (p + 6)) (imgPlotSize img plot)) else none
  | 1 => ((recordOffsets img 0x08).find? fun r => byteAt img (r + 2) == 1 && fieldAt img (r + 10) 2 == plot).map fun r =>
      imgPlotSize img plot / imgOutStride img r
  | _ => none

/-- The planes of a head's record. -/
def rangePlanes (img : List Byte) (r : Nat) : List Failing :=
  (List.range 4).flatMap fun k =>
    let p := r + 64 + 32 * k
    let kind := byteAt img p
    bound img 9 p 1 0 2 ++ (if kind = 0 then zeroBytes img 9 (p + 1) (p + 32) else []) ++ bound img 9 (p + 1) 1 0 3
      ++ bound img 9 (p + 2) 1 0 1 ++ zeroBytes img 9 (p + 7) (p + 8) ++ zeroBytes img 9 (p + 28) (p + 32)
      ++ rangeIf 9 (p + 12) (decide (2 ≤ byteAt img (p + 1)) && fieldAt img (p + 12) 4 % 64 != 0)
      ++ rangeIf 9 (p + 1) (kind == 2 && byteAt img (p + 1) != 0)
      ++ rangeIf 9 (p + 4) (kind == 1 && byteAt img (p + 2) == 1 && match followSlots img p with
        | some n => decide (n < 3)
        | none => false)

def rangeHeads (img : List Byte) : List Failing :=
  let l := recordOffsets img 0x09
  l.flatMap fun r =>
    let f (o : Nat) : Nat := fieldAt img (r + o) 2
    let out := byteAt img (r + 3)
    let fmt := byteAt img (r + 14)
    let used (k : Nat) : Bool := byteAt img (r + 8 + k) != 0xFF
    let drivers := if !out.testBit 0 then 0 else if out.testBit 3 then 4 else 1
    let clock := fieldAt img (r + 16) 4 * 10000
    bound img 9 r 1 0 7 ++ rangeIf 9 (r + 1) (decide (16 ≤ byteAt img (r + 1)) && byteAt img (r + 1) != 0xFF)
      ++ rangeIf 9 (r + 2) (decide (4 ≤ byteAt img (r + 2)) && byteAt img (r + 2) != 0xFF)
      ++ rangeIf 9 (r + 3) (decide (16 ≤ out) || (out.testBit 3 && !out.testBit 0))
      ++ ((List.range 4).flatMap fun k =>
        let d := byteAt img (r + 4 + k)
        rangeIf 9 (r + 4 + k) (if k < drivers then decide (32 ≤ d) else d != 0xFF))
      ++ ((List.range 4).flatMap fun k => rangeIf 9 (r + 8 + k)
        (used k && (!out.testBit 1 || decide (64 ≤ byteAt img (r + 8 + k)) || (List.range k).any fun j => !used j)))
      ++ rangeIf 9 (r + 8) (out.testBit 1 && !used 0) ++ bound img 9 (r + 12) 1 0 (if out.testBit 2 then 1 else 0)
      ++ bound img 9 (r + 13) 1 2 255 ++ rangeIf 9 (r + 14) (fmt % 4 == 3 || decide (fmt / 32 < 1) || decide (5 < fmt / 32))
      ++ rangeIf 9 (r + 14) (out.testBit 2 && fmt / 32 == 1) ++ zeroBytes img 9 (r + 15) (r + 16)
      ++ rangeIf 9 (r + 16) (decide (clock < 25000000 * f 20) || decide (10000000000 * f 20 < clock)) ++ bound img 9 (r + 20) 2 1 65535
      ++ bound img 9 (r + 22) 2 (f 26 + f 24) 32767 ++ bound img 9 (r + 24) 2 64 16384
      ++ rangeIf 9 (r + 24) (fmt % 4 == 2 && f 24 % 2 != 0) ++ bound img 9 (r + 26) 2 (f 28) 32767 ++ bound img 9 (r + 28) 2 1 65535
      ++ bound img 9 (r + 30) 2 (f 34 + f 32 + 2) 16383 ++ bound img 9 (r + 32) 2 16 8640
      ++ bound img 9 (r + 34) 2 (byteAt img (r + 13) + f 36) 65535 ++ bound img 9 (r + 36) 2 1 65535
      ++ rangeIf 9 (r + 38) (decide (f 30 ≤ f 38))
      ++ ((List.range 3).flatMap fun k => bound img 9 (r + 40 + 2 * k) 2 0 (if fmt.testBit 2 then 4095 else 1023))
      ++ zeroBytes img 9 (r + 46) (r + 64) ++ zeroBytes img 9 (r + 208) (r + 256)
      ++ (if out.testBit 2 then
        bound img 9 (r + 196) 2 1 65535 ++ bound img 9 (r + 198) 2 1 65535 ++ bound img 9 (r + 200) 1 96 127
          ++ bound img 9 (r + 201) 1 0 63 ++ bound img 9 (r + 202) 2 0 4094
        else zeroBytes img 9 (r + 192) (r + 208))
      ++ rangeIf 9 (r + 14) (out.testBit 0 && !sdiFormat img r) ++ rangePlanes img r
      ++ ((l.filter fun q => decide (q < r) && byteAt img (q + 2) == byteAt img (r + 2) && byteAt img (r + 2) != 0xFF).flatMap fun q =>
        [(1, 1), (13, 1), (16, 4), (20, 2), (22, 2), (24, 2), (26, 2), (28, 2), (30, 2), (32, 2), (34, 2), (36, 2), (38, 2)].flatMap
          fun (o, n) => rangeIf 9 (r + o) (fieldAt img (q + o) n != fieldAt img (r + o) n))

/-! ## Mailboxes, audio, Twine and presets -/

/-- Identities that may send, and those that may receive (R470). -/
def maySend (i : Nat) : Bool := decide (1 ≤ i) && decide (i ≤ 8) && i != 7
def mayReceive (i : Nat) : Bool := maySend i || (decide (16 ≤ i) && decide (i < 272))

def rangeMail (img : List Byte) : List Failing :=
  (recordOffsets img 0x0A).flatMap fun r =>
    let a := fieldAt img (r + 2) 2
    let b := fieldAt img (r + 4) 2
    bound img 10 r 1 0 63 ++ bound img 10 (r + 1) 1 0 1 ++ rangeIf 10 (r + 2) (a != 0 && !maySend a)
      ++ rangeIf 10 (r + 2) ((byteAt img (r + 1)).testBit 0 && a != 0 && a != 2)
      ++ rangeIf 10 (r + 4) (b != 0 && (!mayReceive b || a == b)) ++ zeroBytes img 10 (r + 6) (r + 8)

/-- Rate in Hz of a RATE code (R434). -/
def imgHz (code : Nat) : Nat := [44100, 48000, 88200, 96000, 176400, 192000].getD code 0

/-- Channel count of an audio record, and block slots of its ring (R434, R440). -/
def imgAudC (img : List Byte) (r : Nat) : Nat :=
  if byteAt img (r + 2) = 2 then (if byteAt img (r + 3) = 0 then 16 else byteAt img (r + 3)) else 2
def imgAudSlots (img : List Byte) (r : Nat) : Nat :=
  imgPlotSize img (fieldAt img (r + 8) 2) / ((32 + 256 * imgAudC img r + 63) / 64 * 64)

def rangeAudio (img : List Byte) : List Failing :=
  (recordOffsets img 0x0B).flatMap fun r =>
    let aes := decide (8 ≤ byteAt img r)
    let out := byteAt img (r + 1) == 2
    let w := byteAt img (r + 4)
    let hz := imgHz (byteAt img (r + 6))
    bound img 11 r 1 0 11 ++ bound img 11 (r + 1) 1 1 (if aes then 1 else 2) ++ bound img 11 (r + 2) 1 0 (if aes then 0 else 2)
      ++ bound img 11 (r + 3) 1 0 (if byteAt img (r + 2) = 2 then 16 else 0) ++ rangeIf 11 (r + 4) (w != 16 && w != 24 && w != 32)
      ++ bound img 11 (r + 5) 1 0 (if aes then 0 else 1) ++ bound img 11 (r + 6) 1 0 5 ++ bound img 11 (r + 7) 1 0 (if out then 11 else 0)
      ++ rangeIf 11 (r + 8) (out && fieldAt img (r + 8) 2 != 0xFFFF) ++ (if out then [] else zeroBytes img 11 (r + 12) (r + 16))
      ++ rangeIf 11 (r + 6) (decide (49152000 < imgAudC img r * 32 * hz))
      ++ rangeIf 11 (r + 8) (!out && (imgPlot img (fieldAt img (r + 8) 2)).isSome && decide (imgAudSlots img r < 4))
      ++ (if out then match findRecord img 0x0B 0 1 (byteAt img (r + 7)) with
        | some q =>
          rangeIf 11 (max (r + 6) (q + 6)) (byteAt img (q + 6) != byteAt img (r + 6))
            ++ rangeIf 11 (r + 12) (byteAt img (q + 1) == 1
              && decide ((imgAudSlots img q - 2) * 64 * 32000000000 < fieldAt img (r + 12) 4 * hz))
        | none => []
      else [])

/-- A task number of R454. -/
def taskListed (t : Nat) : Bool := decide (t ≤ 128) || (decide (256 ≤ t) && decide (t < 512))

/-- A source number of R451. -/
def sourceListed (n : Nat) : Bool := decide (n ≤ 201) || n == 0xFFFF

/-- A channel record. -/
def rangeChannel (img : List Byte) (r : Nat) : List Failing :=
  let n := byteAt img (r + 8)
  bound img 6 (r + 2) 2 0 255 ++ rangeIf 6 (r + 4) (!sourceListed (fieldAt img (r + 4) 2)) ++ bound img 6 (r + 6) 1 0 15
    ++ rangeIf 6 (r + 7) (decide (8 ≤ byteAt img (r + 7)) || bitsOf (byteAt img (r + 7)) 1 2 == 3) ++ bound img 6 (r + 8) 1 0 8
    ++ zeroBytes img 6 (r + 9) (r + 16) ++ (if n ≤ 8 then zeroBytes img 6 (r + 16 + 2 * n) (r + 32) else [])
    ++ ((imgForks img r).flatMap fun (o, t, p) =>
      rangeIf 6 o (!taskListed t || (decide (32 ≤ t) && p != 0) || (decide (t < 32) && decide (256 < (p / 4 + 1) * 16))))

/-- A knot record. -/
def rangeKnot (img : List Byte) (r : Nat) : List Failing :=
  let mode := byteAt img (r + 14)
  let ff (k : Nat) : Bool := (imgTwine img 2).any fun q => byteAt img (q + 2) == k && (byteAt img (q + 14)).testBit 0
  bound img 6 (r + 2) 1 0 127
    ++ ((imgInputs img r).flatMap fun (o, v) =>
      rangeIf 6 o (match bitsOf v 14 2 with
        | 0 => v != 0
        | 1 => decide (256 ≤ v % 2 ^ 14)
        | 2 => decide (128 ≤ v % 2 ^ 14) || !ff (v % 128)
        | _ => decide (32 ≤ v % 2 ^ 14)))
    ++ rangeIf 6 (r + 14) (decide (64 ≤ mode) || bitsOf mode 1 2 == 3 || decide (4 < bitsOf mode 3 3))
    ++ rangeIf 6 (r + 15) (!mode.testBit 0 && byteAt img (r + 15) != 0) ++ bound img 6 (r + 16) 2 0 1023 ++ zeroBytes img 6 (r + 18) (r + 24)

def rangeTwine (img : List Byte) : List Failing :=
  match sectionSpan img 0x06, findSection img 0x06 with
  | some (a, b), some n =>
    let l := twineScan img 401 a b
    (l.flatMap fun r =>
      let kind := byteAt img r
      bound img 6 r 1 1 3
        ++ rangeIf 6 (r + 1) (byteAt img (r + 1) != (if kind = 1 then 32 else if kind = 2 then 24 else 8) || decide (b < r + byteAt img (r + 1)))
        ++ (match kind with
          | 1 => rangeChannel img r
          | 2 => rangeKnot img r
          | 3 => bound img 6 (r + 2) 1 0 15 ++ bound img 6 (r + 3) 1 0 1 ++ zeroBytes img 6 (r + 4) (r + 8)
          | _ => []))
      ++ rangeIf 6 ((l.getLast?.getD a) + 1) (l.length != fieldAt img (34 + 16 * n) 2)
  | _, _ => []

/-- An offset that a register preset may name (R61). -/
def presetOk (v : Variant) (off : Nat) : Bool :=
  match descAt off with
  | some d => presentAt v off && (d.access.rw ||| d.access.rws ||| d.access.rwc) != 0
  | none => false

def rangePresets (s : State) (img : List Byte) : List Failing :=
  (recordOffsets img 0x0E).flatMap fun r => rangeIf 14 r (!presetOk s.variant (fieldAt img r 4))

/-- Every RANGE failure of an image. -/
def rangeAll (s : State) (img : List Byte) : List Failing :=
  rangeHeader img ++ rangeRunners img ++ rangePorts img ++ rangeBeds img ++ rangeKernels s img ++ rangeTrugs img ++ rangeTwine img
    ++ rangePlots img ++ rangeStreams s img ++ rangeHeads img ++ rangeMail img ++ rangeAudio img ++ rangeThermal img ++ rangePlan img
    ++ rangePresets s img

end Sys2Proof.Machine
end

