-- ==== Sys2Proof/Machine/LoadCheck.lean ====
section
/-!
DEFINITION. The loader's checks of an image (R50 to R66, R524) but RANGE, which has its own file: each check over the whole
image, in the order of R65, and the field that a refusal names.
-/

namespace Sys2Proof

/-- The hash of Tarbor's key in mask ROM (R63), which the spec does not give. -/
opaque Config.tarborHash : List Byte

/-- Whether a firmware slot passes its signature check (R49), whose format the spec does not give. -/
opaque Config.firmwareGood : List Byte → Bool

namespace Machine

/-! ## References to plots and trugs -/

/-- Plots that records name: section, field offset and plot index (R341). -/
def plotRefs (img : List Byte) : List (Nat × Nat × Nat) :=
  ((recordOffsets img 0x03).flatMap fun r => (List.range 3).filterMap fun t =>
    if imgTapDest img r t = 2 then some (3, r + 14 + 2 * t, imgTapTarget img r t) else none)
  ++ ((recordOffsets img 0x08).flatMap fun r =>
    let f (o : Nat) : Nat × Nat × Nat := (8, r + o, fieldAt img (r + o) 2)
    (if byteAt img (r + 4) = 2 then [f 8] else []) ++ (if byteAt img (r + 2) = 1 then [f 10] else []) ++ [f 48, f 50])
  ++ ((recordOffsets img 0x09).flatMap fun r => (List.range 4).filterMap fun p =>
    if byteAt img (r + 64 + 32 * p) = 1 then some (9, r + 68 + 32 * p, fieldAt img (r + 68 + 32 * p) 2) else none)
  ++ ((recordOffsets img 0x0B).filterMap fun r =>
    if byteAt img (r + 1) = 1 then some (11, r + 8, fieldAt img (r + 8) 2) else none)

/-- A reference to a trug: section, field offset, trug, and whether it is an output of the naming block. -/
structure TrugRef where
  sec : Nat
  off : Nat
  trug : Nat
  output : Bool
  /-- byte offset of the naming record -/
  row : Nat
  deriving DecidableEq, Repr

/-- Trugs that records name as an output or an input (R113). -/
def trugRefs (img : List Byte) : List TrugRef :=
  ((recordOffsets img 0x03).flatMap fun r =>
    ((List.range 3).filterMap fun t =>
      if imgTapDest img r t = 1 then some ⟨3, r + 14 + 2 * t, imgTapTarget img r t, true, r⟩ else none)
    ++ (if fieldAt img (r + 20) 2 = 0xFFFF then [] else [⟨3, r + 20, fieldAt img (r + 20) 2, true, r⟩]))
  ++ ((recordOffsets img 0x08).flatMap fun r =>
    (if byteAt img (r + 4) = 1 then [⟨8, r + 8, fieldAt img (r + 8) 2, false, r⟩] else [])
    ++ (if byteAt img (r + 2) = 0 then [⟨8, r + 10, fieldAt img (r + 10) 2, true, r⟩]
      else if fieldAt img (r + 44) 2 = 0xFFFF then [] else [⟨8, r + 44, fieldAt img (r + 44) 2, true, r⟩]))
  ++ ((recordOffsets img 0x09).flatMap fun r => (List.range 4).filterMap fun p =>
    if byteAt img (r + 64 + 32 * p) = 2 then some ⟨9, r + 68 + 32 * p, fieldAt img (r + 68 + 32 * p) 2, false, r⟩ else none)
  ++ ((recordOffsets img 0x0B).filterMap fun r =>
    if byteAt img (r + 1) = 1 ∧ fieldAt img (r + 10) 2 ≠ 0xFFFF then some ⟨11, r + 10, fieldAt img (r + 10) 2, true, r⟩ else none)

/-! ## DIRECTORY and SECTION_CRC (R52, R53) -/

/-- The OFFSET, LENGTH and RECORD_COUNT of directory entry `n`. -/
def dirOff (img : List Byte) (n : Nat) : Nat := fieldAt img (36 + 16 * n) 4
def dirLen (img : List Byte) (n : Nat) : Nat := fieldAt img (40 + 16 * n) 4
def dirCount (img : List Byte) (n : Nat) : Nat := fieldAt img (34 + 16 * n) 2

/-- Byte `i` lies in some section. -/
def inSection (img : List Byte) (i : Nat) : Bool :=
  (List.range (sectionCount img)).any fun n => decide (dirOff img n ≤ i) && decide (i < dirOff img n + dirLen img n)

def failDirectory (img : List Byte) : List Failing :=
  let used := sectionCount img
  let es := List.range used
  let bad (o : Nat) (c : Bool) : List Failing := failIf 0x07 0 o c
  bad 12 (decide (32 < fieldAt img 12 2))
    ++ (es.flatMap fun n =>
      let t := byteAt img (32 + 16 * n)
      let o := dirOff img n
      let l := dirLen img n
      bad (32 + 16 * n) (t == 0 || decide (14 < t) || es.any fun m => decide (m < n) && byteAt img (32 + 16 * m) == t)
        ++ bad (33 + 16 * n) (byteAt img (33 + 16 * n) != 1)
        ++ (if dirCount img n = 0 then bad (36 + 16 * n) (o != 0) ++ bad (40 + 16 * n) (l != 0)
          else
            bad (36 + 16 * n) (o % 256 != 0 || decide (o < 1024) || decide (img.length ≤ o + 256)
              || es.any fun m => decide (dirOff img m < o) && decide (o < dirOff img m + dirLen img m) || (decide (m < n) && dirOff img m == o && l != 0))
            ++ bad (40 + 16 * n) (decide (img.length < o + l + 256)
              || (recordSize t != 0 && l != dirCount img n * recordSize t))))
    ++ (((List.range (img.length - 256)).filter fun i =>
      decide (32 + 16 * used ≤ i) && byteAt img i != 0 && !inSection img i).map fun i => ⟨0x07, 0, i⟩)

def failCrc (img : List Byte) : List Failing :=
  (List.range (sectionCount img)).flatMap fun n =>
    failIf 0x08 (byteAt img (32 + 16 * n)) (44 + 16 * n)
      (crc32 ((img.drop (dirOff img n)).take (dirLen img n)) != fieldAt img (44 + 16 * n) 4)

/-! ## MISSING (R65, R150, R165, R180, R247, R258, R293, R314, R341, R435, R465) -/

/-- The channel a mailbox binding record of an image binds, or of the locked table where the image has none (R66). -/
def boundMail (locked : Option (List Byte)) (img : List Byte) (c : Nat) : Bool :=
  match findSection img 0x0A, locked with
  | some _, _ => (findRecord img 0x0A 0 1 c).isSome
  | none, some t => (List.range (t.length / 8)).any fun i => byteAt t (8 * i) == c
  | none, none => false

/-- MISSING: what a record needs is not defined. A bed, egress group or splice point beyond its bounds names nothing, and
is left to RANGE. -/
def failMissing (s : State) (img : List Byte) : List Failing :=
  let miss (sec o : Nat) (c : Bool) : List Failing := failIf 0x09 sec o c
  let trug (pb pi cb ci : Nat) : Bool := (recordOffsets img 0x05).any fun r =>
    byteAt img (r + 8) == pb && byteAt img (r + 9) == pi && byteAt img (r + 10) == cb && byteAt img (r + 11) == ci
  (if (recordOffsets img 0x07).any fun r => byteAt img (r + 2) == 1 then []
    else [⟨0x09, 7, match findSection img 0x07 with | some n => 36 + 16 * n | none => 12⟩])
  ++ ((plotRefs img).flatMap fun (sec, o, i) => miss sec o (imgPlot img i).isNone)
  ++ ((trugRefs img).flatMap fun t => miss t.sec t.off (imgTrug img t.trug).isNone)
  ++ ((recordOffsets img 0x02).flatMap fun r =>
    let b := byteAt img (r + 29)
    let g := byteAt img (r + 30)
    miss 2 (r + 29) (decide (b < 16) && ((imgBed img b).isNone || !trug 3 (byteAt img r) 3 b))
      ++ miss 2 (r + 30) (decide (g < 16) && !trug 3 (byteAt img r) 3 (16 + g)))
  ++ ((kernelsOf img).flatMap fun k => miss 4 (k.off + 4) (decide (k.splice < 32) && (imgBed img (k.splice / 2)).isNone))
  ++ ((recordOffsets img 0x08).flatMap fun r =>
    miss 8 (r + 8) (byteAt img (r + 2) == 0 && !(recordOffsets img 0x03).any fun b =>
      imgTapDest img b 1 == byteAt img (r + 4) && imgTapTarget img b 1 == fieldAt img (r + 8) 2))
  ++ ((imgTwine img 2).flatMap fun r =>
    ((imgInputs img r).flatMap fun (o, v) => miss 6 o (bitsOf v 14 2 == 1 && (imgChannel img (v % 256)).isNone))
      ++ miss 6 (r + 15) ((byteAt img (r + 14)).testBit 0 && (imgChannel img (byteAt img (r + 15))).isNone))
  ++ ((imgTwine img 1).flatMap fun r => (imgForks img r).flatMap fun (o, t, _) =>
    miss 6 o (decide (64 ≤ t) && decide (t < 128) && !boundMail s.seed.locked img (t - 64))
      ++ miss 6 o (decide (256 ≤ t) && !(recordOffsets img 0x08).any fun q =>
        byteAt img q == (t - 256) / 16 && byteAt img (q + 1) == (t - 256) % 16 / 2))

/-! ## ABSENT_INSTANCE (R4, R58, R65) -/

/-- Instances of a block on a bonding, where the bonding bounds them. -/
def presentCount (v : Variant) (block : Nat) : Nat :=
  match block with
  | 2 | 3 => v.runners
  | 4 | 6 => v.beds
  | 7 => v.heads
  | _ => 65536

/-- Instances of the block an action addresses, on a bonding (R58). -/
def actionPresent (v : Variant) (action : Nat) : Nat :=
  match action with
  | 1 | 2 | 3 | 4 => v.beds
  | 5 => v.heads
  | 6 => v.runners
  | 7 => 2 * v.beds
  | _ => 65536

/-- A Twine source or task of an instance absent from the bonding (R451, R454). -/
def sourceAbsent (v : Variant) (n : Nat) : Bool :=
  (decide (48 ≤ n) && decide (n < 112) && decide (v.runners ≤ n - 48)) || (decide (112 ≤ n) && decide (n < 128) && decide (v.beds ≤ n - 112))
    || (decide (128 ≤ n) && decide (n < 144) && decide (v.beds ≤ n - 128))
def taskAbsent (v : Variant) (t : Nat) : Bool :=
  decide (256 ≤ t) && (decide (v.beds ≤ (t - 256) / 16) || decide (v.contexts ≤ (t - 256) % 16 / 2))

def failAbsent (v : Variant) (img : List Byte) : List Failing :=
  let gone (sec o : Nat) (c : Bool) : List Failing := failIf 0x0A sec o c
  let beyond (x n top : Nat) : Bool := decide (n ≤ x) && decide (x < top)
  ((recordOffsets img 0x01).flatMap fun r => gone 1 r (beyond (byteAt img r) v.runners 64))
  ++ ((recordOffsets img 0x02).flatMap fun r =>
    gone 2 r (beyond (byteAt img r) v.runners 64) ++ gone 2 (r + 1) (beyond (byteAt img r + byteAt img (r + 1) - 1) v.runners 64)
      ++ gone 2 (r + 29) (beyond (byteAt img (r + 29)) v.beds 16))
  ++ ((recordOffsets img 0x03).flatMap fun r =>
    gone 3 r (beyond (byteAt img r) v.beds 16) ++ gone 3 (r + 1) (decide (byteAt img r < v.beds) && decide (v.beds < byteAt img r + byteAt img (r + 1))))
  ++ ((kernelsOf img).flatMap fun k => gone 4 (k.off + 4) (beyond k.splice (2 * v.beds) 32))
  ++ ((recordOffsets img 0x05).flatMap fun r => [8, 10].flatMap fun o =>
    gone 5 (r + o + 1) (beyond (byteAt img (r + o + 1)) (presentCount v (byteAt img (r + o))) (blockInstances (byteAt img (r + o)))
      && !(byteAt img (r + o) == 3 && decide (byteAt img (r + o + 1) < 32))))
  ++ ((imgTwine img 1).flatMap fun r =>
    gone 6 (r + 4) (sourceAbsent v (fieldAt img (r + 4) 2)) ++ (imgForks img r).flatMap fun (o, t, _) => gone 6 o (taskAbsent v t))
  ++ ((recordOffsets img 0x08).flatMap fun r => gone 8 r (beyond (byteAt img r) v.beds 16))
  ++ ((recordOffsets img 0x09).flatMap fun r =>
    gone 9 r (beyond (byteAt img r) v.heads 8) ++ (List.range 4).flatMap fun k =>
      gone 9 (r + 4 + k) (beyond (byteAt img (r + 4 + k)) v.sdi 32) ++ gone 9 (r + 8 + k) (beyond (byteAt img (r + 8 + k)) v.runners 64))
  ++ ((recordOffsets img 0x0A).flatMap fun r => gone 10 (r + 4) (beyond (fieldAt img (r + 4) 2) (16 + 16 * v.beds) 272))
  ++ ((recordOffsets img 0x0D).flatMap fun r =>
    gone 13 (r + 2) (beyond (fieldAt img (r + 2) 2) (actionPresent v (byteAt img (r + 1))) (actionCount (byteAt img (r + 1)))))

/-! ## PLOT_SPACE, RATE, LOOP_COMB, BINDING, KERNEL -/

def failPlotSpace (v : Variant) (img : List Byte) : List Failing :=
  let l := recordOffsets img 0x07
  let base (r : Nat) : Nat := fieldAt img (r + 8) 8
  let size (r : Nat) : Nat := fieldAt img (r + 16) 8
  l.flatMap fun r =>
    failIf 0x0C 7 (r + 8) (l.any fun q => decide (q < r) && meetsSpan (base q) (size q) (base r) (size r))
      ++ failIf 0x0C 7 (r + 16) (decide (v.plotGiB * 2 ^ 30 < base r + size r))

def failRate (v : Variant) (img : List Byte) : List Failing :=
  let late (l : List (Nat × Nat)) : Nat × Nat := l.foldl (fun a b => if a.2 < b.2 then b else a) (0, 0)
  let rate (at_ : Nat × Nat) (c : Bool) : List Failing := failIf 0x0D at_.1 at_.2 c
  ((recordOffsets img 0x01).flatMap fun r =>
    let n := byteAt img r
    let port := (recordOffsets img 0x02).find? fun p => decide (byteAt img p ≤ n) && decide (n < byteAt img p + byteAt img (p + 1))
    rate (match imgRole img n, port with
      | 1, some p => late [(1, r + 2), (2, p + 12)]
      | _, _ => (1, r + 2)) (decide (byteAt img (r + 2) < imgReqTier img n)))
  ++ ((recordOffsets img 0x03).flatMap fun r =>
    rate (late ((3, r + 1) :: (imgSlots img (byteAt img r)).map fun p => (2, p + 12)))
      ((List.range (max 1 (byteAt img (r + 1)))).any fun k => (imgBedLoad img r k).exceeds 10000000000))
  ++ ((kernelsOf img).flatMap fun k => rate (4, k.off + 8) (decide (imgBudget img k < k.cycles)))
  ++ ((recordOffsets img 0x05).flatMap fun r =>
    rate (5, r + 12) (decide (640 * 2 ^ byteAt img (r + 2) < fieldAt img (r + 12) 2)))
  ++ ((recordOffsets img 0x08).flatMap fun r =>
    let fps := (fieldAt img (r + 20) 2, fieldAt img (r + 22) 2)
    let beds := (recordOffsets img 0x03).filter fun b => byteAt img (r + 2) == 0
      && imgTapDest img b 1 == byteAt img (r + 4) && imgTapTarget img b 1 == fieldAt img (r + 8) 2
    rate (8, r + 22) ((imgEngineLoad img (byteAt img r)).exceeds 1 && !(imgContexts img (byteAt img r)).any (r < ·))
      ++ (if byteAt img (r + 2) = 0 then
        rate (8, r + 28) (decide (800 * cpbFactor (byteAt img (r + 3)) < fieldAt img (r + 28) 4))
          ++ rate (8, r + 22) ((Rate.mk (fieldAt img (r + 12) 2 * fieldAt img (r + 14) 2 * fps.1) fps.2).exceeds 4278190080)
          ++ rate (8, r + 22) (beds.any fun b => (imgSlots img (byteAt img b)).any fun p =>
            decide (fps.1 * fieldAt img (p + 12) 4 < fps.2 * fieldAt img (p + 8) 4))
      else []))
  ++ ((recordOffsets img 0x09).flatMap fun r =>
    rate (9, r + 24) ((byteAt img (r + 3)).testBit 1
      && (imgRasterRate img r).exceeds (((imgRasters img r).map fun n => userData (imgMaxTier img n) * 10000000).sum)))
  ++ (if v.beds = 0 then [] else [])

def failLoop (img : List Byte) : List Failing :=
  let core := combLoop img
  let closing := core.flatMap fun j => (imgInputs img j).filterMap fun (x : Nat × Nat) =>
    if core.any fun k => bitsOf x.2 14 2 == 1 && x.2 % 256 == byteAt img (k + 3) then some x.1 else none
  failIf 0x0E 6 ((closing.foldl max 0)) (!core.isEmpty)

/-- The bytes of an image's binding section. -/
def bindingBytes (img : List Byte) : List Byte :=
  match sectionSpan img 0x0A with
  | some (a, b) => (img.drop a).take (b - a)
  | none => []

def failBinding (s : State) (img : List Byte) : List Failing :=
  let base := ((sectionSpan img 0x0A).map (·.1)).getD 0
  ((recordOffsets img 0x0A).flatMap fun r => failIf 0x0F 10 (r + 2) (fieldAt img (r + 2) 2 == 0) ++ failIf 0x0F 10 (r + 4) (fieldAt img (r + 4) 2 == 0))
  ++ (match s.seed.locked, findSection img 0x0A with
    | some t, some _ =>
      let b := bindingBytes img
      failIf 0x0F 10 (base + ((List.range (max b.length t.length)).find? fun i => b[i]? != t[i]?).getD 0) (b != t)
    | _, _ => [])

def failKernel (img : List Byte) : List Failing :=
  (kernelsOf img).flatMap fun k =>
    failIf 0x10 4 (k.off + 20) (decide (262144 < k.constLen + k.dataLen))
      ++ (List.range k.codeLen).flatMap fun i =>
        let (op, o) := peDecode (fieldAt img (k.off + 64 + 8 * i) 8)
        let target : Int := i + o.imm.toInt
        failIf 0x10 4 (k.off + 64 + 8 * i) (!peWordOk k.rows (if k.splice % 2 = 1 then 3 else 1) op o
          || (op == 0x10 && (decide (target < 0) || decide ((k.codeLen : Int) ≤ target))))

/-! ## CONFLICT -/

/-- Runner roles, ports and beds (R56, R150, R180, R401). -/
def conflictPorts (img : List Byte) : List Failing :=
  let roles := recordOffsets img 0x01
  let ports := recordOffsets img 0x02
  let beds := recordOffsets img 0x03
  failAt 0x11 1 (repeats (roles.map fun r => (byteAt img r, r)))
  ++ failAt 0x11 1 (repeats ((roles.filter fun r => bonded (byteAt img (r + 1))).map fun r => (bondKey img r * 256 + byteAt img (r + 4), r + 4)))
  ++ (roles.flatMap fun r =>
    let role := byteAt img (r + 1)
    let first := if role = 2 then 0 else 12
    let n := byteAt img r
    failIf 0x11 1 (r + 1) ((role == 2 || role == 3) && (decide (n < first) || decide (first + 4 ≤ n)))
      ++ failIf 0x11 1 (r + 4) ((role == 2 || role == 3) && decide (first ≤ n) && decide (n < first + 4) && byteAt img (r + 4) != n - first))
  ++ (ports.flatMap fun r =>
    let gang := (List.range (byteAt img (r + 1))).map fun k => byteAt img r + k
    failIf 0x11 2 (r + 1) (gang.any fun n => imgRole img n != 1)
      ++ failIf 0x11 2 r (ports.any fun q => decide (q < r) && meetsSpan (byteAt img q) (byteAt img (q + 1)) (byteAt img r) (byteAt img (r + 1)))
      ++ failIf 0x11 2 (r + 29) (byteAt img (r + 29) != 0xFF && imgIsMember img (byteAt img (r + 29))))
  ++ failAt 0x11 3 (repeats (beds.map fun r => (byteAt img r, r)))
  ++ (beds.flatMap fun r => failIf 0x11 3 r (imgIsMember img (byteAt img r)))

/-- Whether a trug's producer, or consumer, is a block's instance. -/
def trugEnd (img : List Byte) (t o block inst : Nat) : Bool :=
  match imgTrug img t with
  | some r => byteAt img (r + o) == block && byteAt img (r + o + 1) == inst
  | none => true

/-- Trugs and plots (R113, R180, R258, R293, R341, R435). -/
def conflictTrugs (img : List Byte) : List Failing :=
  let l := recordOffsets img 0x05
  let refs := trugRefs img
  let reserve (i : Nat) : Bool := match imgPlot img i with | some r => byteAt img (r + 2) == 2 | none => false
  failAt 0x11 5 (repeats (l.map fun r => (fieldAt img r 2, r)))
  ++ (refs.flatMap fun t => failIf 0x11 t.sec t.off (refs.any fun u =>
    u.trug == t.trug && u.output == t.output && decide (u.off < t.off)
      && !(t.sec == 8 && u.sec == 8 && !t.output && byteAt img (t.row + 46) != 0xFF && byteAt img (t.row + 46) == byteAt img (u.row + 46))))
  ++ (l.flatMap fun r => failIf 0x11 5 r (byteAt img (r + 8) == 3 && byteAt img (r + 10) == 3
    && l.any fun q => decide (q < r) && fieldAt img (q + 8) 4 == fieldAt img (r + 8) 4))
  ++ failAt 0x11 7 (repeats ((recordOffsets img 0x07).map fun r => (fieldAt img r 2, r)))
  ++ ((plotRefs img).flatMap fun (sec, o, i) => failIf 0x11 sec o (reserve i))
  ++ ((recordOffsets img 0x03).flatMap fun r => ((refs.filter fun t => t.row == r && t.sec == 3).flatMap fun t =>
    failIf 0x11 3 t.off (!trugEnd img t.trug 8 4 (byteAt img r))))
  ++ ((recordOffsets img 0x0B).flatMap fun r => ((refs.filter fun t => t.row == r && t.sec == 11).flatMap fun t =>
    failIf 0x11 11 t.off (!trugEnd img t.trug 8 11 (byteAt img r))))

/-- The engine that a context's SOURCE trug must name: that of its mosaic's lead, or its own (R258, R280). -/
def sourceEngine (img : List Byte) (r : Nat) : Nat :=
  if byteAt img (r + 2) = 0 then
    ((imgCells img r).find? fun q => byteAt img (q + 47) == 0).elim (byteAt img r) (byteAt img ·)
  else byteAt img r

/-- Stream contexts (R258, R293). -/
def conflictStreams (img : List Byte) : List Failing :=
  let l := recordOffsets img 0x08
  l.flatMap fun r =>
    let e := byteAt img r
    let dec := byteAt img (r + 2) == 1
    let apart (q : Nat) : Bool := decide (q < r) && byteAt img (q + 2) == byteAt img (r + 2)
      && !(byteAt img (r + 46) != 0xFF && byteAt img (q + 46) == byteAt img (r + 46))
    failIf 0x11 8 (r + 1) (l.any fun q => decide (q < r) && byteAt img q == e && byteAt img (q + 1) == byteAt img (r + 1))
      ++ failIf 0x11 8 (r + 8) (byteAt img (r + 4) == 1 && !trugEnd img (fieldAt img (r + 8) 2) 10 6 (sourceEngine img r))
      ++ (if dec then
        failIf 0x11 8 (r + 44) (fieldAt img (r + 44) 2 != 0xFFFF && !trugEnd img (fieldAt img (r + 44) 2) 8 6 e)
          ++ failIf 0x11 8 (r + 10) (l.any fun q => apart q && fieldAt img (q + 10) 2 == fieldAt img (r + 10) 2)
      else
        failIf 0x11 8 (r + 10) (!trugEnd img (fieldAt img (r + 10) 2) 8 6 e)
          ++ failIf 0x11 8 (r + 8) (l.any fun q => apart q && byteAt img (q + 4) == byteAt img (r + 4)
            && fieldAt img (q + 8) 2 == fieldAt img (r + 8) 2))

/-- Kernels, heads, mailboxes, audio and Twine (R247, R314, R435, R465, R471). -/
def conflictRest (img : List Byte) : List Failing :=
  let heads := recordOffsets img 0x09
  let drivers := heads.flatMap fun r => (List.range 4).filterMap fun k =>
    if byteAt img (r + 4 + k) = 0xFF then none else some (byteAt img (r + 4 + k), r + 4 + k)
  let rasters := heads.flatMap fun r => (List.range 4).filterMap fun k =>
    if byteAt img (r + 8 + k) = 0xFF then none else some (byteAt img (r + 8 + k), r + 8 + k)
  let senders := (heads.filter fun r => (byteAt img (r + 3)).testBit 2).map fun r => (byteAt img (r + 12), r + 12)
  let audio := recordOffsets img 0x0B
  let chans := imgTwine img 1
  let knots := imgTwine img 2
  let evt := chans.flatMap fun r => (imgForks img r).filter fun x => decide (x.2.1 < 32)
  failAt 0x11 4 (repeats ((kernelsOf img).map fun k => (k.splice * 256 + k.order, k.off + 5)))
  ++ failAt 0x11 9 (repeats (heads.map fun r => (byteAt img r, r)) ++ repeats drivers ++ repeats rasters ++ repeats senders)
  ++ (rasters.flatMap fun (n, o) => failIf 0x11 9 o (imgRole img n != 4))
  ++ failAt 0x11 10 (repeats ((recordOffsets img 0x0A).map fun r => (byteAt img r, r))
    ++ repeats (((recordOffsets img 0x0A).filter fun r => (byteAt img (r + 1)).testBit 0).map fun r => (1, r + 1)))
  ++ failAt 0x11 11 (repeats (audio.map fun r => (byteAt img r, r))
    ++ repeats ((audio.filter fun r => byteAt img (r + 1) == 1).map fun r => (fieldAt img (r + 8) 2, r + 8)))
  ++ (audio.flatMap fun r => failIf 0x11 11 (r + 7) (byteAt img (r + 1) == 2
    && !audio.any fun q => byteAt img q == byteAt img (r + 7) && byteAt img (q + 1) == 1))
  ++ failAt 0x11 6 (repeats (chans.map fun r => (fieldAt img (r + 2) 2, r + 2)) ++ repeats (knots.map fun r => (byteAt img (r + 2), r + 2))
    ++ repeats ((imgTwine img 3).map fun r => (byteAt img (r + 2), r + 2)) ++ repeats (knots.map fun r => (byteAt img (r + 3), r + 3)))
  ++ (chans.flatMap fun r => failIf 0x11 6 (max (r + 4) (((knots.find? fun k => byteAt img (k + 3) == fieldAt img (r + 2) 2).map (· + 3)).getD 0))
    (fieldAt img (r + 4) 2 != 0xFFFF && knots.any fun k => byteAt img (k + 3) == fieldAt img (r + 2) 2))
  ++ (evt.flatMap fun (o, t, p) =>
    failIf 0x11 6 (max o (((chans.find? fun r => fieldAt img (r + 4) 2 == t).map (· + 4)).getD 0)) (chans.any fun r => fieldAt img (r + 4) 2 == t)
      ++ failIf 0x11 6 o (evt.any fun x => x.2.1 == t && decide (x.1 < o) && x.2.2 != p))

def failConflict (img : List Byte) : List Failing :=
  conflictPorts img ++ conflictTrugs img ++ conflictStreams img ++ conflictRest img

/-! ## The whole (R65) -/

/-- The failing field at the lowest offset (R524). -/
def lowest (l : List Failing) : Option Failing :=
  l.foldl (fun a f => match a with
    | some g => if f.off < g.off then some f else some g
    | none => some f) none

/-- The first check that fails, in order. -/
def firstFailing (l : List (Unit → List Failing)) : Option Failing := l.findSome? fun f => lowest (f ())

/-- The checks of the sections, in the order of R65, on an image whose signature has passed. -/
def sectionChecks (s : State) (img : List Byte) : Option Failing :=
  firstFailing [fun _ => failDirectory img, fun _ => failCrc img, fun _ => failMissing s img, fun _ => failAbsent s.variant img,
    fun _ => rangeAll s img, fun _ => failPlotSpace s.variant img, fun _ => failRate s.variant img, fun _ => failLoop img,
    fun _ => failBinding s img, fun _ => failKernel img, fun _ => failConflict img]

/-- The state of customer slot `k`, 1 to 4: 0 empty, 1 programmed, 2 revoked (R64). -/
def Fuses.slot (f : Fuses) (k : Nat) : Nat := bitsOf f.slotState.toNat (2 * (k - 1)) 2

/-- A key slot is refused (R64). -/
def Fuses.refuses (f : Fuses) (k : Nat) : Bool := if k = 0 then f.tarborOff else f.slot k != 1

/-- The key hash held for a slot (R63). -/
def Fuses.hash (f : Fuses) (k : Nat) : List Byte := if k = 0 then Config.tarborHash else f.hashes.at [] k

/-- The header checks, which need the first 32 bytes of the image (R65). -/
def headerChecks (s : State) (img : List Byte) (limit : Nat) : Option Failing :=
  let n := fieldAt img 8 4
  let bit := match s.variant with | .qc8804 => 0 | .qc8808 => 1 | .qc8816 => 2
  firstFailing [
    fun _ => failIf 0x01 0 0 (fieldAt img 0 4 != 0x54465247),
    fun _ => failIf 0x02 0 4 (byteAt img 4 != s.getF F.GLB_ID_GRAFT_MAJOR) ++ failIf 0x02 0 5 (decide (s.getF F.GLB_ID_GRAFT_MINOR < byteAt img 5)),
    fun _ => failIf 0x03 0 6 (!(byteAt img 6).testBit bit),
    fun _ => failIf 0x04 0 8 (n % 256 != 0 || decide (n < 1280) || decide (67108864 < n) || decide (limit < n))]

/-- The checks of the signature block and of the key, on an image of its own length (R62 to R65). -/
def signatureChecks (s : State) (img : List Byte) : Option Failing :=
  let n := img.length
  let k := byteAt img 7
  let b := n - 256
  let num (o : Nat) : Nat := beNat ((img.drop (b + o)).take 48).reverse
  firstFailing [
    fun _ => failIf 0x01 0 b (fieldAt img b 4 != 0x4E474953),
    fun _ => failIf 0x05 0 7 (decide (4 < k) || s.fuses.refuses k),
    fun _ => failIf 0x05 0 (b + 4) (byteAt img (b + 4) != k),
    fun _ => failIf 0x05 0 (b + 8) (sha384 ((img.drop (b + 8)).take 96) != s.fuses.hash k),
    fun _ => failIf 0x06 0 (n - 152) (!ecdsaVerify (sha384 (img.take (n - 152))) (num 8) (num 56) (num 104) (num 152))]

/-- Every check of R65 on bytes read from a source that gives up to `limit` bytes, the first unreadable one at `bad`: the
refusal, or the image. A byte that could not be read refuses the image with SOURCE as soon as a check needs it. -/
def State.checkImage (s : State) (raw : List Byte) (limit : Nat) (bad : Option Nat) : Failing ⊕ List Byte :=
  let lost (n : Nat) : Option Failing := match bad with
    | some u => if u < n then some ⟨0x13, 0, u⟩ else none
    | none => none
  let n := fieldAt raw 8 4
  let img := raw.take n ++ List.replicate (n - raw.length) 0xFF#8
  match firstFailing [fun _ => (lost 32).toList, fun _ => (headerChecks s raw limit).toList, fun _ => (lost n).toList,
      fun _ => (signatureChecks s img).toList, fun _ => (sectionChecks s img).toList] with
  | some f => .inl f
  | none => .inr img

end Machine

end Sys2Proof
end

