-- ==== Sys2Proof/Machine/LoadApply.lean ====
section
/-!
DEFINITION. What a graft image sets in the registers, block by block (the fields the chapters give as "from graft"),
and the reserve chunks of retired pseudo-channels under its plot map.
-/

namespace Sys2Proof.Machine

/-- Fold over a list of record offsets. -/
def State.forRecords (s : State) (l : List Nat) (f : State → Nat → State) : State := l.foldl f s

/-- GLB_LOG_BASE and GLB_LOG_CTL.SIZE_LOG2 from the plot of KIND 1 (R341). -/
def State.loadGlb (s : State) : State :=
  match findRecord s.seed.image 0x07 2 1 1 with
  | some r =>
    (s.setF F.GLB_LOG_BASE_ADDR (fieldAt s.seed.image (r + 8) 8 / 32)).setF F.GLB_LOG_CTL_SIZE_LOG2
      (Nat.log2 (fieldAt s.seed.image (r + 16) 8 / 32768))
  | none => s

/-- RUN[n].CTL from the Runner roles (R55, R132), and RUN[n].RAW of the Runners of a gang (R143, R148). -/
def State.loadRunners (s : State) : State :=
  let img := s.seed.image
  let s1 := s.forRecords (recordOffsets img 0x01) fun s' r =>
    let n := byteAt img r
    ((s'.setF (F.RUN_CTL_ROLE n) (byteAt img (r + 1))).setF (F.RUN_CTL_TIER_CAP n) (byteAt img (r + 2))).setF
      (F.RUN_CTL_REQ_TIER n) (imgReqTier img n)
  s1.forRecords (recordOffsets img 0x02) fun s' r =>
    let fl := byteAt img (r + 3)
    ((List.range (byteAt img (r + 1))).map (byteAt img r + ·)).foldl (fun s'' n =>
      ((s''.setF (F.RUN_RAW_DDR n) (bitsOf fl 1 1)).setF (F.RUN_RAW_LANES n) (bitsOf fl 3 2)).setF
        (F.RUN_RAW_MSB_FIRST n) (bitsOf fl 2 1)) s'

/-- An image byte in which 0xFF stands for none, as a five-bit register field in which 31 does. -/
def noneField (b : Nat) : Nat := if b = 0xFF then 31 else b

/-- The sensor ports and the inputs of the espalier mergers (R149, R168). -/
def State.loadIngest (s : State) : State :=
  let img := s.seed.image
  s.forRecords (recordOffsets img 0x02) fun s0 r =>
    let p := byteAt img r
    let s1 := (((s0.setF (F.ING_PORT_CFG_GANG p) (byteAt img (r + 1))).setF (F.ING_PORT_CFG_BPP p) (byteAt img (r + 2))).setF
      (F.ING_PORT_CFG_EOF_USED p) (bitsOf (byteAt img (r + 3)) 0 1)).setF (F.ING_PORT_CFG_FREF p) (noneField (byteAt img (r + 28)))
    let s2 := ((s1.setF (F.ING_PORT_CFG_DEST_BED p) (noneField (byteAt img (r + 29)))).setF (F.ING_PORT_CFG_EGRESS p)
      (noneField (byteAt img (r + 30)))).setF (F.ING_PORT_GEOM_SENSOR_W p) (fieldAt img (r + 4) 2)
    let s3 := ((s2.setF (F.ING_PORT_GEOM_SENSOR_H p) (fieldAt img (r + 6) 2)).setF (F.ING_PORT_PRUNE_H_LEFT p)
      (fieldAt img (r + 48) 2)).setF (F.ING_PORT_PRUNE_H_RIGHT p) (fieldAt img (r + 50) 2)
    let s4 := ((s3.setF (F.ING_PORT_PRUNE_V_TOP p) (fieldAt img (r + 52) 2)).setF (F.ING_PORT_PRUNE_V_BOTTOM p)
      (fieldAt img (r + 54) 2)).setF (F.ING_PORT_PAD_PAD_CODE p) (fieldAt img (r + 18) 2)
    let s5 := ((s4.setF (F.ING_PORT_STAMP_ADJ_ADJ p) (fieldAt img (r + 56) 4)).setF (F.ING_PORT_TIMEOUT_FRAME_TIMEOUT p)
      (fieldAt img (r + 20) 4)).setF (F.ING_PORT_LATE_LATE_LIMIT p) (fieldAt img (r + 24) 4)
    let join (x : State) (m : Nat) : State := x.setF (F.ING_MRG_INPUTS_PORTS m) (x.getF (F.ING_MRG_INPUTS_PORTS m) ||| 2 ^ p)
    let s6 := if byteAt img (r + 29) = 0xFF then s5 else join s5 (byteAt img (r + 29))
    if byteAt img (r + 30) = 0xFF then s6 else join s6 (16 + byteAt img (r + 30))

/-- The beds of a topology record, lead and members (R179, R218, R220). A stripe that ends at the input width is reported
with the width of the widest slot. -/
def State.loadBeds (s : State) : State :=
  let img := s.seed.image
  s.forRecords (recordOffsets img 0x03) fun s0 r =>
    let lead := byteAt img r
    let slots := imgSlots img lead
    let w := (slots.map (imgPrunedW img)).foldl max 0
    (List.range (byteAt img (r + 1))).foldl (fun s1 k =>
      let n := lead + k
      let s2 := (((s1.setF (F.BED_CFG_JOIN n) (byteAt img (r + 1))).setF (F.BED_CFG_MEMBER n) k).setF (F.BED_CFG_LEAD n) lead).setF
        (F.BED_CFG_SLOTS n) slots.length
      let s3 := (s2.setF (F.BED_CFG_QUAD n) (bitsOf (byteAt img (r + 2)) 0 1)).setF (F.BED_CFG_PHASE n)
        (bitsOf (byteAt img (r + 2)) 1 2)
      let s4 := (s3.setF (F.BED_STRIPE_X0 n) (imgStripeX img r w k)).setF (F.BED_STRIPE_WIDTH n)
        (imgStripeX img r w (k + 1) - imgStripeX img r w k)
      let s5 := (s4.setF (F.BED_LOAD_LOAD n) (imgLoadThousandths img r k)).setF (F.BED_LOAD_COLUMNS n) (imgColumns img r k)
      let s6 := (List.range 3).foldl (fun (x : State) t =>
        let x1 := (x.setF (F.BED_TAP_DEST n t) (imgTapDest img r t)).setF (F.BED_TAP_TARGET n t) (imgTapTarget img r t)
        if t = 0 then (x1.setF (F.BED_TAP_FMT n 0) (bitsOf (byteAt img (r + 10)) 3 2)).setF (F.BED_TAP_POINT n 0)
          (bitsOf (byteAt img (r + 10)) 2 1) else x1) s5
      slots.zipIdx.foldl (fun (x : State) (p, i) =>
        (x.setF (F.BED_SENSOR_PORT n i) (byteAt img p)).setF (F.BED_SENSOR_VALID n i) 1) s6) s0

/-- PE_SPLICE[p].STATUS: the kernels of the chain and their budget (R229, R243). -/
def State.loadSplices (s : State) : State :=
  (kernelsOf s.seed.image).foldl (fun s' k =>
    (s'.setF (F.PE_SPLICE_STATUS_KERNELS k.splice) (s'.getF (F.PE_SPLICE_STATUS_KERNELS k.splice) + 1)).setF
      (F.PE_SPLICE_STATUS_BUDGET k.splice) (imgBudget s.seed.image k)) s

/-- The stream contexts (R257) and the load of each engine, with the rate fields that the image sets (R277). -/
def State.loadStreams (s : State) : State :=
  let img := s.seed.image
  let s1 := s.forRecords (recordOffsets img 0x08) fun s0 r =>
    let e := byteAt img r
    let c := byteAt img (r + 1)
    let s2 := (s0.setF (F.SE_STATUS_CONTEXTS e) (s0.getF (F.SE_STATUS_CONTEXTS e) ||| 2 ^ c)).setF (F.SE_CTX_CFG_VALID e c) 1
    let s3 := ((s2.setF (F.SE_CTX_CFG_DIR e c) (byteAt img (r + 2))).setF (F.SE_CTX_CFG_PROFILE e c) (byteAt img (r + 3))).setF
      (F.SE_CTX_CFG_INPUT e c) (byteAt img (r + 4))
    let s4 := ((s3.setF (F.SE_CTX_CFG_STRUCT e c) (byteAt img (r + 5))).setF (F.SE_CTX_CFG_GIR_N e c) (byteAt img (r + 24))).setF
      (F.SE_CTX_CFG_SLICE_COUNT e c) (byteAt img (r + 7))
    let s5 := s4.setF (F.SE_CTX_CFG_MOSAIC e c) (byteAt img (r + 46))
    if byteAt img (r + 2) = 0 then
      ((s5.setF (F.SE_CTX_RC_QP_MIN e c) (byteAt img (r + 25))).setF (F.SE_CTX_RC_QP_MAX e c) (byteAt img (r + 26))).setF
        (F.SE_CTX_CAP_CAP e c) (fieldAt img (r + 40) 4)
    else s5
  (List.range s.variant.beds).foldl (fun s' e => s'.setF (F.SE_LOAD_LOAD e) ((imgEngineLoad img e).floorDiv 1)) s1

/-- The heads (R311, R312). -/
def State.loadHeads (s : State) : State :=
  let img := s.seed.image
  s.forRecords (recordOffsets img 0x09) fun s0 r =>
    let h := byteAt img r
    let s1 := (List.range 3).foldl (fun (x : State) k => x.setF (F.HEAD_BG_CODE h k) (fieldAt img (r + 40 + 2 * k) 2))
      (s0.setF (F.HEAD_CTL_COMMIT_LEAD h) (byteAt img (r + 13)))
    (List.range 4).foldl (fun (x : State) p =>
      let q := r + 64 + 32 * p
      let x1 := (((x.setF (F.HEAD_PLANE_CTL_KIND h p) (byteAt img q)).setF (F.HEAD_PLANE_CTL_FORMAT h p) (byteAt img (q + 1))).setF
        (F.HEAD_PLANE_CTL_FOLLOW h p) (byteAt img (q + 2))).setF (F.HEAD_PLANE_CTL_ALPHA h p) (byteAt img (q + 3))
      let x2 := (x1.setF (F.HEAD_PLANE_ADDR_OFFSET h p) (fieldAt img (q + 8) 4)).setF (F.HEAD_PLANE_STRIDE_STRIDE h p)
        (fieldAt img (q + 12) 4)
      let x3 := (x2.setF (F.HEAD_PLANE_SRC_SRC_X h p) (fieldAt img (q + 16) 2)).setF (F.HEAD_PLANE_SRC_SRC_Y h p)
        (fieldAt img (q + 18) 2)
      let x4 := (x3.setF (F.HEAD_PLANE_SIZE_WIDTH h p) (fieldAt img (q + 20) 2)).setF (F.HEAD_PLANE_SIZE_HEIGHT h p)
        (fieldAt img (q + 22) 2)
      (x4.setF (F.HEAD_PLANE_DST_DST_X h p) (fieldAt img (q + 24) 2)).setF (F.HEAD_PLANE_DST_DST_Y h p)
        (fieldAt img (q + 26) 2)) s1

/-- The audio endpoints (R434). -/
def State.loadAudio (s : State) : State :=
  let img := s.seed.image
  s.forRecords (recordOffsets img 0x0B) fun s0 r =>
    let e := byteAt img r
    let slots := byteAt img (r + 3)
    let c := if byteAt img (r + 2) = 2 then (if slots = 0 then 16 else slots) else 2
    let s1 := ((s0.setF (F.AUD_EP_CFG_MODE e) (byteAt img (r + 1))).setF (F.AUD_EP_CFG_FORMAT e) (byteAt img (r + 2))).setF
      (F.AUD_EP_CFG_CHANNELS e) c
    (((s1.setF (F.AUD_EP_CFG_WORD_BITS e) (byteAt img (r + 4))).setF (F.AUD_EP_CFG_LEADER e) (byteAt img (r + 5))).setF
      (F.AUD_EP_CFG_RATE e) (byteAt img (r + 6))).setF (F.AUD_EP_CFG_SOURCE e) (byteAt img (r + 7))

/-- The Twine configuration (R462 to R464). -/
def State.loadTwine (s : State) : State :=
  let img := s.seed.image
  let s1 := s.forRecords (imgTwine img 1) fun s0 r =>
    let c := fieldAt img (r + 2) 2
    (((s0.setF (F.TWN_CH_CFG_SOURCE c) (fieldAt img (r + 4) 2)).setF (F.TWN_CH_CFG_GROUP c) (byteAt img (r + 6))).setF
      (F.TWN_CH_CFG_VEC c) (bitsOf (byteAt img (r + 7)) 0 1)).setF (F.TWN_CH_CFG_TASKS c) (byteAt img (r + 8))
      |>.setF (F.TWN_CH_CFG_VALID c) 1
  let s2 := s1.forRecords (imgTwine img 2) fun s0 r =>
    let k := byteAt img (r + 2)
    (((s0.setF (F.TWN_KNOT_CFG_TABLE k) (fieldAt img (r + 12) 2)).setF (F.TWN_KNOT_CFG_OUT_CH k) (byteAt img (r + 3))).setF
      (F.TWN_KNOT_CFG_MODE k) (byteAt img (r + 14))).setF (F.TWN_CH_CFG_KNOT (byteAt img (r + 3))) 1
  let off := (imgTwine img 3).foldl (fun m r => if byteAt img (r + 3) = 0 then m - m / 2 ^ byteAt img (r + 2) % 2 * 2 ^ byteAt img (r + 2) else m) 0xFFFF
  s2.setF F.TWN_GROUP_EN off

/-- A consumer of privileged trugs (R109). -/
def State.privileged (img : List Byte) (block inst : Nat) : Bool :=
  block == 6 || block == 9 || block == 10
    || (block == 2 && (imgRole img inst == 5 || imgRole img inst == 2 || imgRole img inst == 3))

/-- The trug table (R113). -/
def State.loadTrugs (s : State) : State :=
  let img := s.seed.image
  s.forRecords (recordOffsets img 0x05) fun s0 r =>
    let t := fieldAt img r 2
    ((s0.setF (F.TRUG_CFG_DEPTH t) (fieldAt img (r + 4) 4)).setF (F.TRUG_CFG_WIDTH t) (byteAt img (r + 2))).setF
      (F.TRUG_CFG_PRIV t) (b2n (State.privileged img (byteAt img (r + 10)) (byteAt img (r + 11))))

/-- The thermal limits, or their defaults (R57). -/
def State.loadThermal (s : State) : State :=
  let l := match recordOffsets s.seed.image 0x0C with
    | r :: _ => (List.range 5).map fun i => fieldAt s.seed.image (r + 2 * i) 2
    | [] => [16, 40, 100, 2000, 680]
  ((((s.setF (F.THM_LIMIT_LOW 0) (l.getD 0 0)).setF (F.THM_LIMIT_HIGH 0) (l.getD 1 0)).setF (F.THM_LIMIT_LOW 1) (l.getD 2 0)).setF
    (F.THM_LIMIT_HIGH 1) (l.getD 3 0)).setF (F.THM_LIMIT_LOW 2) (l.getD 4 0)

/-- SEED_IMAGE_ID and SEED_STATUS.ZERO (R43, R51, R53). -/
def State.loadSeed (s : State) : State :=
  let img := s.seed.image
  (s.setF F.SEED_IMAGE_ID_BUILD_ID (fieldAt img 16 8)).setB F.SEED_STATUS_ZERO
    ((List.range (sectionCount img)).any fun n => fieldAt img (34 + 16 * n) 2 == 0)

/-- Load the fields of class G of a block from the running image (R17). -/
def State.loadBlock (s : State) (b : Nat) : State :=
  match b with
  | 0 => s.loadGlb
  | 2 => s.loadRunners
  | 3 => s.loadIngest
  | 4 => s.loadBeds
  | 5 => s.loadSplices
  | 6 => s.loadStreams
  | 7 => s.loadHeads
  | 11 => s.loadAudio
  | 12 => s.loadTwine
  | 14 => s.loadTrugs
  | 15 => s.loadThermal
  | 16 => s.loadSeed
  | _ => s

/-- Load every block's fields from the running image. -/
def State.loadBlocks (s : State) : State := (List.range 17).foldl State.loadBlock s

/-- A placement of kernel `r`'s share `k` of member `m` goes to the lowest-numbered available engine (R248). One that finds
none is an exhaustion event of trigger 3: a step that frees an engine lets the placement go on, and any other leaves the
splice point bypassed (R250). A bypassed splice point takes no placement. No engine has failed, so the spec names no
INSTANCE for the message: it is a free value. -/
def State.placeShare (s : State) (r : KernelRec) (m k : Nat) : State :=
  if s.bit (F.PE_SPLICE_STATUS_BYPASS r.splice) then s
  else match s.peNext with
    | some e => s.pePlace e r m k 2
    | none =>
      let s1 := s.freed.exhausted 2 5 { trigger := 3, inst := s.free % 65536, splice := some r.splice } fun x =>
        (x.peBypass r.splice, [])
      if s1.bit (F.PE_SPLICE_STATUS_BYPASS r.splice) then s1
      else match s1.peNext with
        | some e => s1.pePlace e r m k 2
        | none => s1.peBypass r.splice

/-- Place the kernels of some splice points (R248): record order, and the share indices in ascending member and k. -/
def State.placeKernels (s : State) (which : Nat → Bool) : State :=
  ((kernelsOf s.seed.image).filter fun r => which r.splice).foldl (fun s0 r =>
    let members := ((imgBed s.seed.image (r.splice / 2)).map fun o => byteAt s.seed.image (o + 1)).getD 1
    ((List.range members).flatMap fun m => (List.range r.engines).map fun k => (m, k)).foldl
      (fun (s1 : State) (x : Nat × Nat) => s1.placeShare r x.1 x.2) s0) s

/-- The reserve chunks of the pseudo-channels retired before, under the plot map of a new image (R74, R360, R364): an
assignment between a needed and a reserve chunk of the new map stays; every other needed chunk takes the next free one,
and is unbacked where none is left. Every chunk of an unbacked pseudo-channel is unbacked. -/
def State.reassign (s : State) : State :=
  let qs := List.range (Variant.pcs s.variant)
  let s0 := { s with hbm := { s.hbm with unbacked := [], dropped := [] } }
  let inKind (x : State) (res : Bool) (c : Nat) : Bool := x.plots.any fun p =>
    (p.kind == 2) == res && decide (p.base / 256 ≤ c) && decide (c < (p.base + p.size) / 256)
  let kept := s0.hbm.moved.filter fun (x : Nat × Nat) => x.2 != 0 && inKind s0 false x.1 && inKind s0 true (x.2 - 1)
  let s1 := { s0 with hbm := { s0.hbm with moved := kept } }
  let s2 := (qs.filter fun q => s1.pcState q == 2).foldl (fun (x : State) q =>
    let needed := (x.neededChunks q).filter fun c => SMap.at 0 x.hbm.moved c == 0
    let free := x.freeChunks
    let moved := (needed.zip free).foldl (fun m (a, b) => SMap.put 0 m a (b + 1)) x.hbm.moved
    { x with hbm := Hbm.unback { x.hbm with moved } (needed.drop free.length) }) s1
  let s3 := (qs.filter fun q => s1.pcState q == 3).foldl (fun (x : State) q =>
    { x with hbm := x.hbm.unback (x.neededChunks q) }) s2
  s3.reportReserve

end Sys2Proof.Machine
end

