-- ==== Sys2Proof/Machine/HedgeOps.lean ====
section
/-!
DEFINITION. The hedgerow as shared operations: ports, link messages, enumeration and bypass limits
(spec/14_hedgerow.md, R401 to R429).
-/

namespace Sys2Proof.Machine

/-! ## Ports (R401, R402) -/

/-- The state of hedgerow port `p` beside its registers: 0 upstream, 1 downstream. -/
def State.hedgePort (s : State) (p : Nat) : HedgePort := s.hedge.ports.at {} p

/-- Replace the state of port `p`. -/
def State.setHedgePort (s : State) (p : Nat) (x : HedgePort) : State :=
  { s with hedge := { s.hedge with ports := s.hedge.ports.put {} p x } }

/-- The Runners of port `p`, by BOND_INDEX (R401). -/
def State.hedgeRunners (s : State) (p : Nat) : List Nat :=
  ((List.range 4).map fun k => 12 * p + k).filter fun r => s.nawen r && s.runRole r == 2 + p

/-- The Runners of port `p` in ACTIVE. -/
def State.hedgeActive (s : State) (p : Nat) : List Nat := (s.hedgeRunners p).filter fun r => s.runState r == 8

/-- The hedgerow port of a Runner. -/
def State.hedgeOf (s : State) (n : Nat) : Option Nat :=
  if s.runRole n = 2 then some 0 else if s.runRole n = 3 then some 1 else none

/-- The device is the head (R403). -/
def State.isHead (s : State) : Bool := s.bit F.HRW_STATUS_HEAD

/-- The address in force: 0 at the head, none while none has been adopted (R403, R416). -/
def State.ownAddr (s : State) : Option Nat :=
  if s.isHead then some 0 else if s.bit F.HRW_ADDR_VALID then some (s.getF F.HRW_ADDR_ADDR) else none

/-- A hedgerow vector, when MSIX_EN is 1 (R432). -/
def State.hedgeVector (s : State) (v : Nat) : State := s.when (s.bit F.HRW_CTL_MSIX_EN) (·.raise v)

/-- An item event with its vector 498, and its counter at a port where it has one (R432). -/
def State.itemFlag (s : State) (f : Field) (cnt : Option (Nat × Nat)) : State :=
  let s1 := s.flag f
  (match cnt with
    | some (p, k) => s1.bump (F.HRW_PORT_CNT_COUNT p k)
    | none => s1).hedgeVector 498

/-- A message discarded and counted in MSG_BAD (R407, R409). -/
def State.msgBad (s : State) (p : Nat) : State := (s.flag F.HRW_ERR_MSG_BAD).bump (F.HRW_PORT_CNT_COUNT p 6)

/-! ## Messages (R407, R408) -/

/-- The transmitter of a Runner leaves L1 when there is something to send (R140). -/
def State.txWake (s : State) (n : Nat) : State := if (s.runner n).l1Tx then s.l1Leave n else s

/-- Send a MESSAGE block on port `p`, on its lowest ACTIVE Runner: TYPE, byte 2 and bytes 3 to 13 (R407). -/
def State.sendMsg (s : State) (p type flags : Nat) (body : List Byte) : State :=
  match (s.hedgeActive p).head? with
  | some r => (s.txWake r).sendBlock r 0x4B (BitVec.ofNat 8 type :: BitVec.ofNat 8 flags :: padTo 11 body)
  | none => s

/-- The port that the device sends its own items and messages by: the one named, or in a ring the other when that one has
no ACTIVE Runner (R410). -/
def State.sendPort (s : State) (p : Nat) : Nat :=
  if (s.hedgeActive p).isEmpty && s.hedge.ring && !(s.hedgeActive (1 - p)).isEmpty then 1 - p else p

/-- Send a routed message of the device's own (R407, R410): UP tells that it leaves upstream, NOADDR that the device has
no address. -/
def State.sendRouted (s : State) (p type : Nat) (bcast : Bool) (dest : Nat) (body : List Byte) : State :=
  let q := s.sendPort p
  let src := s.ownAddr
  let flags := 2 * b2n bcast + 4 * b2n src.isNone + 8 * (1 - q)
  s.sendMsg q type flags (leBytes 3 (dest % 4096 + src.getD 0 * 4096) ++ body)

/-- Send HELLO on port `p` (R408, R419). -/
def State.sendHello (s : State) (p : Nat) : State :=
  let valid := s.bit F.HRW_ADDR_VALID
  s.sendMsg p 0x01 1 (leBytes 2 (s.getF F.HRW_ADDR_ADDR + 32768 * b2n valid) ++ leBytes 1 (b2n s.isHead + 2 * p)
    ++ leBytes 2 (s.getF F.HRW_ADDR_EPOCH))

/-! ## Bypass limits (R419, R420) -/

/-- Compare the cap of every Runner of port `p` with its tier. -/
def State.hedgeCaps (s : State) (p : Nat) : State := (s.hedgeRunners p).foldl (fun s' r => s'.capChanged r) s

/-- Set the hedgerow cap of a port. -/
def State.setCap (s : State) (p cap : Nat) : State := (s.setF (F.HRW_PORT_STATUS_CAP p) cap).hedgeCaps p

/-- The cap that follows from a gap below 5. -/
def gapCap (g : Nat) : Nat :=
  match g with
  | 0 => 7
  | 1 => 2
  | 2 => 1
  | _ => 0

/-- The gap of port `p` (R419). The link that closes a ring is the head's upstream port, and the downstream port whose
peer is the head. -/
def State.gap (s : State) (p : Nat) : Nat :=
  let own := s.ownAddr.getD 0
  let peer := s.getF (F.HRW_PORT_PEER_ADDR p)
  let ownValid := s.bit F.HRW_ADDR_VALID
  if !ownValid || !s.bit (F.HRW_PORT_PEER_VALID p) then 0
  else if s.isHead && p == 0 then s.getF F.HRW_STATUS_COUNT - 1 - peer
  else if s.bit (F.HRW_PORT_PEER_HEAD p) && p == 1 then s.getF F.HRW_STATUS_COUNT - 1 - own
  else (if peer ≤ own then own - peer else peer - own) - 1

/-- Turn every Runner of port `p` off. -/
def State.hedgeOff (s : State) (p : Nat) : State :=
  (s.hedgeRunners p).foldl (fun s' r =>
    (((s'.runTo r 0).setF (F.RUN_STATUS_TIER r) 0).setF (F.RUN_STATUS_LANES r) 0).setRunner r (s'.runner r).fresh) s

/-- Every Runner of port `p` enters DETECT. -/
def State.hedgeDetect (s : State) (p : Nat) : State := (s.hedgeRunners p).foldl (fun s' r => s'.toDetect r) s

/-- Take the gap of port `p` and what follows from it. -/
def State.takeGap (s : State) (p : Nat) : State :=
  let g := s.gap p
  let s1 := s.setF (F.HRW_PORT_STATUS_GAP p) (min g 15)
  if 5 ≤ g then
    let s2 := (s1.flag (F.HRW_PORT_STATUS_BROKEN p)).flag F.HRW_ERR_BROKEN
    let s3 := (s2.hedgeVector 495).hedgeOff p
    s3.setHedgePort p { s3.hedgePort p with brokenOff := true }
  else (s1.unflag (F.HRW_PORT_STATUS_BROKEN p)).setCap p (gapCap g)

/-! ## Enumeration (R416, R417) -/

/-- Send the token downstream, with the pending address (R416). -/
def State.sendToken (s : State) : State :=
  match s.hedge.pend with
  | some (a, e) =>
    let s1 := (s.sendMsg 1 0x02 1 (leBytes 2 a ++ leBytes 2 e)).setF F.HRW_STATUS_ENUM_STATE 2
    { s1 with hedge := { s1.hedge with tokenOut := true, tokenDue := false } }
  | none => s

/-- HOLD_T0 clears on both ports (R416). -/
def State.holdClear (s : State) : State :=
  (s.hedgeRunners 0 ++ s.hedgeRunners 1).foldl (fun s' r => (s'.unflag (F.RUN_CTL_HOLD_T0 r)).capChanged r) s

/-- The device adopts an address at the end of an enumeration (R416, R417, R432). -/
def State.adopt (s : State) (a e count : Nat) (ring : Bool) : State :=
  let changed := s.bit F.HRW_ADDR_VALID && s.getF F.HRW_ADDR_ADDR != a
  let s1 := (((s.setF F.HRW_ADDR_ADDR a).flag F.HRW_ADDR_VALID).setF F.HRW_ADDR_EPOCH e).setF F.HRW_STATUS_COUNT count
  let s2 := (s1.setB F.HRW_STATUS_RING ring).setF F.HRW_STATUS_ENUM_STATE 3
  let s3 := s2.when changed (·.flag F.HRW_ERR_ADDR_CHANGED)
  let s4 := { s3 with hedge := { s3.hedge with
    epoch := e, pend := none, tokenOut := false, tokenDue := false, ring := ring } }
  s4.holdClear.hedgeVector 492

/-- The head ends an enumeration (R416 steps 5 and 6, R417). -/
def State.enumFinish (s : State) (count : Nat) (ring : Bool) : State :=
  let e := s.hedge.epoch
  let s1 := (s.adopt 0 e count ring).unflag F.HRW_CTL_ENUM
  let x := s1.getF F.HRW_CTL_EXPECT
  let s2 := s1.when (x != 0 && decide (count < x)) fun y => (y.flag F.HRW_ERR_SHORT).hedgeVector 499
  s2.sendRouted 1 0x11 true 0 (leBytes 2 count ++ leBytes 2 e ++ leBytes 1 (b2n ring))

/-- The device is the end of a chain (R416 step 4): it sends ENUM_END; the head alone ends the enumeration itself. -/
def State.chainEnd (s : State) : State :=
  let s1 := { s with hedge := { s.hedge with tokenOut := false, tokenDue := false } }
  match s.hedge.pend with
  | some (a, e) =>
    if s.isHead then s1.enumFinish 1 false
    else (s1.setF F.HRW_STATUS_ENUM_STATE 2).sendRouted 0 0x10 false 0 (leBytes 2 (a + 1) ++ leBytes 2 e)
  | none => s1

/-- A Runner of port `p` is retraining (R430). -/
def State.hedgeTraining (s : State) (p : Nat) : Bool :=
  (s.hedgeRunners p).any fun r => decide (2 ≤ s.runState r) && decide (s.runState r ≤ 7)

/-- Pass the token on: now, when the downstream port next reaches ACTIVE, or not at all (R416, R430). -/
def State.tokenOn (s : State) : State :=
  if !(s.hedgeActive 1).isEmpty then s.sendToken
  else if s.hedgeTraining 1 then
    let s1 := s.setF F.HRW_STATUS_ENUM_STATE 1
    { s1 with hedge := { s1.hedge with tokenDue := true, tokenOut := false } }
  else s.chainEnd

/-- The head starts an enumeration (R416 step 1). -/
def State.enumStart (s : State) : State :=
  let e := (s.hedge.epoch + 1) % 65536
  ({ s with hedge := { s.hedge with
    epoch := e, pend := some (0, e), tokenOut := false, tokenDue := false, again := false, started := true
    headUp := s.hedge.headUp || !(s.hedgeActive 1).isEmpty } }).tokenOn

/-- A JOIN that came during the enumeration just ended starts a further one (R430). -/
def State.enumAgain (s : State) : State :=
  if s.hedge.again && s.hedge.pend.isNone then s.enumStart else s

/-- An enumeration is in progress at this device. -/
def State.enumerating (s : State) : Bool := s.hedge.pend.isSome

/-! ## Links up and down (R419, R428) -/

/-- Port `p` reaches ACTIVE: vector 493 or 494, the hedgerow cap T0 until the peer's HELLO, the device's own HELLO, and
downstream a token that waits or the head's enumeration (R416, R419, R430, R432). -/
def State.linkUp (s : State) (p : Nat) : State :=
  let s1 := (s.setHedgePort p { s.hedgePort p with up := true, helloSeen := false }).hedgeVector (493 + p)
  let s2 := (s1.setCap p 0).sendHello p
  if p = 1 ∧ s2.hedge.tokenDue = true then s2.tokenOn
  else if p = 1 ∧ s2.isHead = true ∧ s2.hedge.started = true ∧ s2.hedge.headUp = false then s2.enumStart.enumAgain
  else s2

/-- Port `p` loses its last ACTIVE Runner (R428): LINK_LOST, the vector, the head's ring opens, and a device before the
break ends an enumeration in progress (R430). Until the next HELLO the port's cap is T0 (R419). -/
def State.linkDown (s : State) (p : Nat) : State :=
  let s1 := (s.setHedgePort p { s.hedgePort p with up := false, helloSeen := false }).flag F.HRW_ERR_LINK_LOST
  let s2 := ((s1.bump (F.HRW_PORT_CNT_COUNT p 7)).hedgeVector (493 + p)).setF (F.HRW_PORT_STATUS_CAP p) 0
  let s3 := s2.when s2.isHead (·.unflag F.HRW_STATUS_RING)
  if p = 1 ∧ s3.enumerating = true then s3.chainEnd.enumAgain else s3

/-- Bring LINKS and VERSION of port `p` up to date, and note that the port has gained its first or lost its last ACTIVE
Runner (R419, R428). -/
def State.hedgeSync (s : State) (p : Nat) : State :=
  let act := s.hedgeActive p
  let links := act.foldl (fun a r => a + 2 ^ (r - 12 * p)) 0
  let s1 := s.setF (F.HRW_PORT_STATUS_LINKS p) links
  let s2 := match act.head? with
    | some r => s1.setF (F.HRW_PORT_STATUS_VERSION p) (s1.getF (F.RUN_STATUS_VERSION r))
    | none => s1
  match links == 0, (s.hedgePort p).up with
  | false, false => s2.linkUp p
  | true, true => s2.linkDown p
  | _, _ => s2

/-- What follows for the hedgerow from a change at Runner `n`. A port that comes up may retrain at once under its new
cap, so the port is looked at twice. -/
def State.hedgeHook (s : State) (n : Nat) : State :=
  if s.up 10 then
    match s.hedgeOf n with
    | some p => (s.hedgeSync p).hedgeSync p
    | none => s
  else s

/-! ## Routes and sends (R415) -/

/-- A write of HRW_ROUTE[k] (R415): accepted only when it names a trug whose producer is block 10. -/
def State.routeWrite (s : State) (k : Nat) (v : Word) : State :=
  if (s.trugProducer (bitsOf v.toNat 21 9)).1 = 10 then s.wr (R.HRW_ROUTE k) (v &&& 0x7fffffff#32) else s.flag F.HRW_ERR_SETUP_BAD

/-- A write of HRW_SEND[k] (R415): accepted only when it names a trug whose consumer is block 10 with the instance of the
port, and a KIND of 1, 2, 3 or 5. -/
def State.sendWrite (s : State) (k : Nat) (low high : Word) : State :=
  let v := low.toNat
  let kind := bitsOf v 11 3
  if s.trugConsumer (bitsOf v 0 9) = (10, bitsOf v 9 1) ∧ (kind = 1 ∨ kind = 2 ∨ kind = 3 ∨ kind = 5) then
    (s.wr (R.HRW_SEND k) (low &&& 0x00ff7fff#32)).wr (R.HRW_SEND k + 4) (high &&& 0xfff#32)
  else s.flag F.HRW_ERR_SETUP_BAD

end Sys2Proof.Machine
end

