-- ==== Sys2Proof/Machine/Ingest.lean ====
section
/-!
DEFINITION. The commands of the sensor ports (spec/06_sensor_ingest.md).
-/

namespace Sys2Proof.Machine

/-- SOF_CODE (R152, R153, R525). -/
def execSofCode (c : SyncCode) (s : State) : Host.Outcome State Fault Refusal := .next (s.codeCmd c .sof).mrgRefresh

/-- EOF_CODE (R152, R153, R161). -/
def execEofCode (c : SyncCode) (s : State) : Host.Outcome State Fault Refusal := .next (s.codeCmd c .eof).mrgRefresh

/-- SOL_CODE (R152, R153, R154). -/
def execSolCode (c : SyncCode) (s : State) : Host.Outcome State Fault Refusal := .next (s.codeCmd c .sol).mrgRefresh

/-- EOL_CODE (R152, R153, R154). -/
def execEolCode (c : SyncCode) (s : State) : Host.Outcome State Fault Refusal := .next (s.codeCmd c .eol).mrgRefresh

/-- A port works: present in the image, and ingest is not in reset. -/
def State.portOn (s : State) (p : Nat) : Bool := s.up 3 && decide (p < 64) && s.gang p != 0

/-- SEGMENT_WINDOW_EXPIRE (R154): a segment that has not begun is absent from the oldest line that waits for one. -/
def execSegmentWindowExpire (p : Nat) (s : State) : Host.Outcome State Fault Refusal :=
  let waits (l : IngLine) : Bool := !l.closed && l.segs.any (·.state == 0)
  let close (l : IngLine) : IngLine :=
    { l with closed := true, segs := l.segs.map fun q => if q.state = 0 then { q with state := 3 } else q }
  let rec go : List IngLine → List IngLine
    | [] => []
    | l :: r => if waits l then close l :: r else l :: go r
  let x := s.ingPort p
  .next (if s.portOn p then (s.setPort p { x with lines := go x.lines }).ingDrain p else s).mrgRefresh

/-- SOF_WINDOW_EXPIRE (R525): segments of the frame before the boundary that are still open end, their lines count as
short, and that frame is closed. -/
def execSofWindowExpire (p : Nat) (lanes : List (List (List Nat))) (s : State) : Host.Outcome State Fault Refusal :=
  .next (if s.portOn p then (s.forceLines p lanes (·.old)).settle p else s).mrgRefresh

/-- FRAME_TIMEOUT (R161, R163): a frame of fewer than SENSOR_H lines is closed and padded; with a timeout of 0 the
function is off (R44). -/
def execFrameTimeout (p : Nat) (lanes : List (List (List Nat))) (s : State) : Host.Outcome State Fault Refusal :=
  .next <|
    match (s.ingPort p).frame with
    | some f =>
      if s.portOn p && f.timeout != 0 && decide (f.lines < s.getF (F.ING_PORT_GEOM_SENSOR_H p)) then
        (s.endFrame p lanes true).mrgRefresh
      else s
    | none => s

/-- CUT_MARKER_WRITE (R166): the pending cut run of an input trug is written as a marker once the trug has a free
word. -/
def execCutMarkerWrite (trug : Nat) (s : State) : Host.Outcome State Fault Refusal :=
  let s1 := s.writeMarker trug
  let p := (s.trugProducer trug).2
  .next (if s.up 3 && decide (trug < 512) then s1.when (decide (p < 64)) (·.portStatus p) else s).mrgRefresh

/-- Pruning beyond what R160 allows: larger than the graft image's result, or below 64 columns or 16 rows. -/
def State.pruneBad (s : State) (p : Nat) (vertical : Bool) (val : Word) : Bool :=
  let full := if vertical then s.getF (F.ING_PORT_GEOM_SENSOR_H p) else s.getF (F.ING_PORT_GEOM_SENSOR_W p)
  let w := if vertical then 13 else 12
  let step := if vertical then 2 else 8
  let cut := step * (bitsOf val.toNat 0 w + bitsOf val.toNat 16 w)
  let graft := step * (if vertical then s.portRec p 52 2 + s.portRec p 54 2 else s.portRec p 48 2 + s.portRec p 50 2)
  decide (cut < graft) || decide (full < cut + (if vertical then 16 else 64))

/-- A write of PRUNE_H or PRUNE_V (R160): shadowed for the next SOF, or ignored with PRUNE_BAD set. -/
def State.pruneWrite (s : State) (p : Nat) (vertical : Bool) (val : Word) : State :=
  if s.pruneBad p vertical val then s.ingFlag p 9
  else
    let m := if vertical then 0x1fff1fff#32 else 0x0fff0fff#32
    s.stage (if vertical then R.ING_PORT_PRUNE_V p else R.ING_PORT_PRUNE_H p) (val &&& m)

/-- ING_PRUNE_WRITE (R160). -/
def execIngPruneWrite (p : Nat) (vertical : Bool) (val : Word) (s : State) : Host.Outcome State Fault Refusal :=
  .next (s.bus 3 fun s => if s.portOn p then s.pruneWrite p vertical val else s)

end Sys2Proof.Machine
end

