-- ==== Sys2Proof/Machine/Mem.lean ====
section
/-!
DEFINITION. The commands of the HBM controller that need no spare pool (spec/12_hbm_memory.md): requests, issue, drain,
power-down, refresh, retraining, scrubbing and the watermarks.
-/

namespace Sys2Proof.Machine

/-- MEM_REQUEST (R348 to R352): a port presents a read or a write of one word. -/
def execMemRequest (op : MemOp) (s : State) : Host.Outcome State Fault Refusal :=
  let write := !op.data.isEmpty
  let rt := decide (4 ≤ op.cls) && decide (op.cls < 7)
  let k := portKey true op.block op.inst
  .next <|
    if !s.up 8 || (op.data.isEmpty && op.len == 0) then s
    else
      let s1 := if rt then s.portLevel op.cls op.block op.inst op.level write else s
      if !write then s1.queueRead op
      else if rt then
        let s2 := if op.first then { s1 with hbm := { s1.hbm with discard := s1.hbm.discard.put false k false } } else s1
        if s2.hbm.discard.at false k then
          { s2 with hbm := { s2.hbm with discard := s2.hbm.discard.put false k (!op.last) } }
        else if 16 ≤ op.level then s2.portDrop op
        else s2.queueWrite op
      else s1.queueWrite op

/-- Take a request out of a pseudo-channel's queues and open its row; the drain ends at MEM_WM.LOW (R350). -/
def State.dequeue (s : State) (q : Nat) (r : MemReq) : State :=
  let p := s.pc q
  let pl := hbmPlace s.variant r.addr
  let ws := p.writes.filter (·.age != r.age)
  let stop := decide (ws.length ≤ s.getF F.MEM_WM_LOW)
  s.setPc q { p with
    reads := p.reads.filter (·.age != r.age), writes := ws
    openRow := p.openRow.put none pl.bankKey (some pl.row)
    drain := p.drain && !stop, drainIdle := p.drainIdle && !stop }

/-- Serve a request: a read delivers its bytes through the code, a write stores them (R346, R347, R351). -/
def State.serve (s : State) (r : MemReq) (errs : List SymErr) : State :=
  if r.len = 0 then s.writeWord r.addr r.data errs
  else
    let (d, bad, s1) := s.readWord r.addr errs
    s1.emit (.memData r.block r.inst r.addr ((d.drop (r.addr % 32)).take r.len) bad)

/-- MEM_ISSUE (R350): a refresh at its limit first, then the request the scheduling order gives. -/
def execMemIssue (pc : Nat) (errs : List MemErr) (s : State) : Host.Outcome State Fault Refusal :=
  let p := s.pc pc
  .next <|
    if !s.up 8 then s
    else match p.refreshLimit with
      | some b => s.setPc pc { p with postponed := p.postponed.put 0 b 0, openRow := p.openRow.put none b none }
      | none => match s.nextReq p with
        | some r => (s.dequeue pc r).serve r (errsAt errs r.addr)
        | none => s

/-- MEM_DRAIN_IDLE_TIMEOUT (R350): no read has waited for 1 µs and a write is queued. -/
def execMemDrainIdleTimeout (pc : Nat) (s : State) : Host.Outcome State Fault Refusal :=
  let p := s.pc pc
  .next (if s.up 8 && p.reads.isEmpty && !p.writes.isEmpty && !p.drain && s.getF F.MEM_WM_HIGH != 0 then
    s.setPc pc { p with drain := true, drainIdle := true } else s)

/-- MEM_IDLE_POWERDOWN (R353): a stack-ID group with no bank accessed for IDLE_NS enters power-down; an IDLE_NS of 0
turns power-down off (R44). -/
def execMemIdlePowerdown (pc sid : Nat) (s : State) : Host.Outcome State Fault Refusal :=
  let p := s.pc pc
  let wanted := p.all.any fun r => (hbmPlace s.variant r.addr).sid == sid
  .next (if s.up 8 && s.getF F.MEM_CTL_IDLE_NS != 0 && !wanted && decide (sid < 3) then
    s.setPc pc { p with down := p.down.put false sid true } else s)

/-- MEM_REFRESH (R354): a bank's refresh falls due; it is postponed while requests wait, up to 8 intervals, and done
otherwise. -/
def execMemRefresh (pc bank : Nat) (s : State) : Host.Outcome State Fault Refusal :=
  let p := s.pc pc
  let n := p.postponed.at 0 bank
  .next <|
    if !s.up 8 || decide (s.pcState pc = 2) then s
    else if !p.all.isEmpty && decide (n < 8) then s.setPc pc { p with postponed := p.postponed.put 0 bank (n + 1) }
    else s.setPc pc { p with postponed := p.postponed.put 0 bank 0, openRow := p.openRow.put none bank none }

/-- A retraining runs (R355): a failure sets TRAIN_FAIL, and two in succession make retirement due (R360). -/
def State.retrain (s : State) (pc : Nat) (ok : Bool) : State :=
  let p := s.pc pc
  if ok then s.setPc pc { p with trainFails := 0 }
  else
    ((s.setPc pc { p with
        trainFails := p.trainFails + 1, retireDue := p.retireDue || decide (1 ≤ p.trainFails)
        cause := if p.retireDue then p.cause else 2 }).flag
      (F.MEM_STK_ERR_TRAIN_FAIL (pc / 32))).memVector (pc / 32)

/-- MEM_RETRAIN (R355): the 100 ms retraining runs only when none of the pseudo-channel's ports is in panic. -/
def execMemRetrain (pc : Nat) (ok : Bool) (s : State) : Host.Outcome State Fault Refusal :=
  .next (if !s.up 8 || (s.pc pc).all.any s.inPanic || decide (s.pcState pc = 2) then s else s.retrain pc ok)

/-- MEM_RETRAIN_FORCED (R355): a retraining that has waited 200 ms runs at once. -/
def execMemRetrainForced (pc : Nat) (ok : Bool) (s : State) : Host.Outcome State Fault Refusal :=
  .next (if !s.up 8 || decide (s.pcState pc = 2) then s else s.retrain pc ok)

/-- MEM_SCRUB (R356): the scrubber reads one word, writes a correction back and marks an uncorrectable word with the
poison pattern; its finds count in the pseudo-channel's counters. A SCRUB_HOURS of 0 turns it off. -/
def execMemScrub (addr : Nat) (errs : List SymErr) (s : State) : Host.Outcome State Fault Refusal :=
  .next <|
    if !s.up 8 || s.getF F.MEM_CTL_SCRUB_HOURS == 0 || s.hbm.unbacked.at false (addr / 256) then s
    else
      let w := addr / 32 * 32
      let pl := hbmPlace s.variant w
      let (d, v) := qorethRead (s.hbm.read w 32) (s.hbm.poison.at false (w / 32)) errs
      let s1 := s.noteWord w v
      match v with
      | .clean | .poisoned => s1
      | .corrected _ => { s1 with hbm := s1.hbm.write w d }.bump (F.MEM_PC_SCRUB_COUNT pl.stack pl.pc)
      | .uncorrectable => { s1 with hbm := (s1.hbm.write w d).mark w }.bump (F.MEM_PC_SCRUB_COUNT pl.stack pl.pc)

/-- MEM_WM_WRITE (R350): both watermarks are taken together, or the write is ignored whole. -/
def execMemWmWrite (val : Word) (s : State) : Host.Outcome State Fault Refusal :=
  let high := bitsOf val.toNat 0 7
  let low := bitsOf val.toNat 8 7
  .next <| s.bus 8 fun s =>
    if 64 < high ∨ (high ≠ 0 ∧ high ≤ low) ∨ (high = 0 ∧ 63 < low) then s
    else (s.setF F.MEM_WM_HIGH high).setF F.MEM_WM_LOW low

end Sys2Proof.Machine
end

