-- ==== Sys2Proof/Machine/RecMedia.lean ====
section
/-!
DEFINITION. The Tarbor clip layout on a drive: superblocks, descriptors, extents, records and clip streams
(spec/13_recording_queue.md, R392 to R397).
-/

namespace Sys2Proof.Machine

/-! ## Media bytes -/

/-- `n` bytes of a drive's media. -/
def RecDrive.read (d : RecDrive) (a : Nat) : Nat → List Byte
  | 0 => []
  | n + 1 => SMap.at 0#8 d.media a :: RecDrive.read d (a + 1) n

/-- Media with a range zeroed. -/
def mediaZero (m : List Host.Cell) (a n : Nat) : List Host.Cell := m.filter fun c => decide (c.1 < a) || decide (a + n ≤ c.1)

/-- Media with bytes written. -/
def mediaWrite (m : List Host.Cell) (a : Nat) : List Byte → List Host.Cell
  | [] => m
  | b :: r => mediaWrite (SMap.put 0#8 m a b) (a + 1) r

/-- Apply an NVMe command that has completed. -/
def RecDrive.apply (d : RecDrive) : NvmeKind → RecDrive
  | .write a l => { d with media := mediaWrite d.media a l, written := d.written + l.length }
  | .zero a n => { d with media := mediaZero d.media a n, written := d.written + n }
  | .dealloc a n => { d with media := mediaZero d.media a n }
  | .flush => d
  | .read => d

/-- A 4 KiB block with its CRC in the last four bytes (R392, R393). -/
def sealBlock (l : List Byte) : List Byte :=
  let b := padTo 4092 l
  b ++ leBytes 4 (crc32 b)

/-- A block whose CRC is right. -/
def sealedBlock (l : List Byte) : Bool := fieldAt l 4092 4 == crc32 (l.take 4092)

/-! ## Superblocks (R392) -/

/-- A superblock's fields. -/
structure RecLayout where
  formatting : Bool
  generation : Nat
  setId : Nat
  member : Nat
  count : Nat
  origin : Nat
  alloc : Nat
  blocks : Nat
  descCount : Nat
  extentStart : Nat
  units : Nat
  dataStart : Nat
  stamp : Nat
  deriving DecidableEq, Repr

/-- A superblock copy. -/
def RecLayout.block (y : RecLayout) : List Byte :=
  sealBlock (leBytes 4 0x504C4354 ++ leBytes 2 0x0100 ++ leBytes 2 (b2n y.formatting) ++ leBytes 8 y.generation
    ++ leBytes 8 y.setId ++ leBytes 1 y.member ++ leBytes 1 y.count ++ leBytes 2 y.origin ++ leBytes 4 y.alloc
    ++ leBytes 8 y.blocks ++ leBytes 8 2 ++ leBytes 4 y.descCount ++ leBytes 4 0 ++ leBytes 8 y.extentStart
    ++ leBytes 8 y.units ++ leBytes 8 y.dataStart ++ leBytes 8 y.stamp)

/-- The superblock a block holds, if its CRC, MAGIC and VERSION are valid. -/
def superAt (l : List Byte) : Option RecLayout :=
  if sealedBlock l && fieldAt l 0 4 == 0x504C4354 && fieldAt l 4 2 == 0x0100 then
    some
      { formatting := (byteAt l 6).testBit 0, generation := fieldAt l 8 8, setId := fieldAt l 16 8, member := byteAt l 24
        count := byteAt l 25, origin := fieldAt l 26 2, alloc := fieldAt l 28 4, blocks := fieldAt l 32 8
        descCount := fieldAt l 48 4, extentStart := fieldAt l 56 8, units := fieldAt l 64 8, dataStart := fieldAt l 72 8
        stamp := fieldAt l 80 8 }
  else none

/-- The superblock copy in use: the valid one of higher GENERATION. -/
def RecDrive.super (d : RecDrive) : Option RecLayout :=
  match superAt (d.read 0 4096), superAt (d.read 4096 4096) with
  | some a, some b => if a.generation < b.generation then some b else some a
  | some a, none => some a
  | none, o => o

/-- The layout of a drive; none without a valid superblock, or while it is FORMATTING. -/
def RecDrive.layout (d : RecDrive) : Option RecLayout := d.super.filter fun y => !y.formatting

/-! ## Descriptors and extents (R393, R394) -/

/-- Byte address of the descriptor of clip `c`. -/
def descAddr (c : Nat) : Nat := (2 + c - 1) * 4096

/-- STATE of a clip's descriptor on a drive. -/
def RecDrive.clipState (d : RecDrive) (c : Nat) : Nat := byteAt (d.read (descAddr c + 8) 1) 0

/-- Byte address of the extent entry of unit `u`. -/
def RecLayout.extentAddr (y : RecLayout) (u : Nat) : Nat := y.extentStart * 4096 + 32 * u

/-- Byte address and size of unit `u`. -/
def RecLayout.unitAddr (y : RecLayout) (u : Nat) : Nat := (y.dataStart + u * y.alloc) * 4096
def RecLayout.unitBytes (y : RecLayout) : Nat := y.alloc * 4096

/-- Owning clip of a unit: 0 while it is free. -/
def RecDrive.unitClip (d : RecDrive) (y : RecLayout) (u : Nat) : Nat := fieldAt (d.read (y.extentAddr u) 4) 0 4

/-- The first unit of a drive that is free and not among those taken. -/
def RecDrive.freeUnit (d : RecDrive) (y : RecLayout) (taken : List Nat) : Option Nat :=
  (List.range y.units).find? fun u => d.unitClip y u == 0 && !taken.contains u

/-- Units of a drive that a clip owns. -/
def RecDrive.clipUnits (d : RecDrive) (y : RecLayout) (c : Nat) : List Nat :=
  (List.range y.units).filter fun u => d.unitClip y u == c

/-- The extent entry of a unit of a clip. -/
def RecUnit.entry (u : RecUnit) (clip : Nat) : List Byte :=
  leBytes 4 clip ++ leBytes 4 u.seq ++ leBytes 4 u.used ++ leBytes 4 0 ++ leBytes 8 u.first ++ leBytes 8 u.last

/-- A stream's clip descriptor (R393). -/
def RecStream.descriptor (x : RecStream) (clip stream state origin : Nat) : List Byte :=
  let marks := x.marks.flatMap fun m => leBytes 8 m.stamp ++ leBytes 1 m.type ++ List.replicate 7 0#8 ++ padTo 16 m.label
  sealBlock (leBytes 4 0x50494C43 ++ leBytes 4 clip ++ leBytes 1 state ++ leBytes 1 stream ++ leBytes 1 x.srcKind
    ++ leBytes 1 x.slot ++ leBytes 2 x.source ++ leBytes 2 origin ++ leBytes 8 x.firstStamp ++ leBytes 8 x.lastStamp
    ++ leBytes 8 x.records ++ leBytes 8 x.bytes ++ leBytes 4 x.units.length ++ leBytes 4 x.gaps ++ leBytes 4 x.marks.length
    ++ leBytes 4 x.flags ++ padTo 16 x.name ++ leBytes 8 x.checkpoints ++ List.replicate 104 0#8 ++ marks)

/-! ## Records (R395) -/

/-- Bytes that a record of a payload takes. -/
def recordLen (payload : Nat) : Nat := 32 + (payload + 31) / 32 * 32

/-- A record as it stands in a unit; `seq` is its number in the clip. -/
def RecItem.record (i : RecItem) (seq : Nat) : List Byte :=
  let gap := i.cause ≠ 0
  let payload := if gap then [] else i.bytes
  let flags := if gap then 16 * i.cause else b2n i.poison + 2 * b2n i.starved
  let head := leBytes 2 0x5243 ++ leBytes 1 (if gap then 2 else 1) ++ leBytes 1 flags ++ leBytes 4 payload.length
    ++ leBytes 8 i.stamp ++ leBytes 4 seq ++ leBytes 4 (if gap then 0 else crc32 payload) ++ leBytes 4 (if gap then i.lost else 0)
  head ++ leBytes 4 (crc32 head) ++ padTo ((payload.length + 31) / 32 * 32) payload

/-- Bytes an item takes in the pre-roll plot and on media. -/
def RecItem.size (i : RecItem) : Nat := if i.cause ≠ 0 then 32 else recordLen i.bytes.length

/-! ## Clip streams (R397) -/

/-- The records of a unit's bytes up to `stop`: each one whose header is right and whose stamp is not later than
END_STAMP, and whether it is bad. -/
def unitRecords (stop : Nat) : Nat → List Byte → List (List Byte × Bool)
  | 0, _ => []
  | fuel + 1, l =>
    if l.length < 32 ∨ fieldAt l 28 4 ≠ crc32 (l.take 28) ∨ stampLater 64 (fieldAt l 8 8) stop = true then []
    else
      let n := fieldAt l 4 4
      let size := recordLen n
      let bad := byteAt l 2 == 1 && ((byteAt l 3).testBit 0 || fieldAt l 20 4 != crc32 ((l.drop 32).take n))
      (l.take size, bad) :: unitRecords stop fuel (l.drop size)

/-- The records of clip `c` over the members of its set. -/
def clipRecords (members : List RecDrive) (c : Nat) : List (List Byte × Bool) :=
  let stop := match members.head? with
    | some d => fieldAt (d.read (descAddr c) 32) 24 8
    | none => 0
  let units := members.flatMap fun d =>
    match d.layout with
    | none => []
    | some y => (d.clipUnits y c).map fun u =>
      let e := d.read (y.extentAddr u) 32
      (fieldAt e 4 4, d.read (y.unitAddr u) (min (fieldAt e 8 4) y.unitBytes))
  (sortBy (fun a b => decide (a.1 ≤ b.1)) units).flatMap fun u => unitRecords stop u.2.length u.2

/-- Bytes [o, o + n) of a record stream, and whether a record they touch is bad. -/
def clipBytes (l : List (List Byte × Bool)) (o n : Nat) : List Byte × Bool :=
  let all := l.flatMap (·.1)
  let (_, bad) := l.foldl (fun (acc : Nat × Bool) r =>
    (acc.1 + r.1.length, acc.2 || (r.2 && decide (acc.1 < o + n) && decide (o < acc.1 + r.1.length)))) (0, false)
  ((all.drop o).take n, bad)

end Sys2Proof.Machine
end

