-- ==== Sys2Proof/Machine/RecOps.lean ====
section
/-!
DEFINITION. The recording engine as shared operations: queues, completions, events, NVMe jobs, streams, checkpoints and
resets (spec/13_recording_queue.md).
-/

namespace Sys2Proof.Machine

/-! ## Records -/

/-- A recording stream, and a drive. -/
def State.recStream (s : State) (k : Nat) : RecStream := s.recorder.streams.at {} k
def State.setRec (s : State) (k : Nat) (x : RecStream) : State :=
  let fill := ((x.ring.filter (·.issued.isNone)).map RecItem.size).sum
  { s with recorder := { s.recorder with streams := s.recorder.streams.put {} k x } }.setF (F.REC_STREAM_FILL_FILL k)
    (fill / 2 ^ 20)
def State.recDrive (s : State) (d : Nat) : RecDrive := s.recorder.drives.at {} d
def State.setDrive (s : State) (d : Nat) (x : RecDrive) : State :=
  { s with recorder := { s.recorder with drives := s.recorder.drives.put {} d x } }

/-- STATE of a stream: 0 IDLE, 1 ARMED, 2 RECORDING, 3 STOPPING. -/
def State.recState (s : State) (k : Nat) : Nat := s.getF (F.REC_STREAM_STATUS_STATE k)

/-- A drive that commands may use, or the status code they complete with (R373, R386, R387). -/
def State.driveCode (s : State) (d : Nat) : Option Nat :=
  if !s.bit (F.REC_DRIVE_STATUS_PRESENT d) || s.bit (F.REC_DRIVE_STATUS_FAILED d) then some 3
  else if s.bit (F.REC_DRIVE_STATUS_UNSUPPORTED d) then some 5
  else none

/-- The first code among drives. -/
def State.drivesCode (s : State) (ds : List Nat) : Option Nat := ds.findSome? s.driveCode

/-- Some drive is interlocked (R388). -/
def State.interlocked (s : State) (ds : List Nat) : Bool := ds.any fun d => s.bit (F.REC_DRIVE_STATUS_INTERLOCK d)

/-- Drives of a mask. -/
def maskDrives (m : Nat) : List Nat := (List.range 4).filter m.testBit

/-- The layout of a drive in use. -/
def State.layoutOf (s : State) (d : Nat) : Option RecLayout := if (s.driveCode d).isSome then none else (s.recDrive d).layout

/-- The complete set a drive belongs to, in SET_MEMBER order; none without a layout or with a member missing. -/
def State.setOf (s : State) (d : Nat) : Option (List Nat) :=
  match s.layoutOf d with
  | none => none
  | some y =>
    let l := (List.range y.count).filterMap fun m => (List.range 4).find? fun e =>
      match s.layoutOf e with
      | some z => z.setId == y.setId && z.member == m && z.count == y.count
      | none => false
    if l.length = y.count ∧ l.contains d = true then some l else none

/-! ## Completions and events (R367, R372, R373) -/

/-- Completion queue `n` has room. -/
def State.cqRoom (s : State) (n : Nat) : Bool :=
  let size := s.getF (F.REC_CQ_CTL_SIZE n)
  size != 0 && (s.getF (F.REC_CQ_TAIL_TAIL n) + 1) % size != s.recorder.cqHead.at 0 n

/-- Write an entry at the tail of completion queue `n`: its 14 bytes before STATUS, and STATUS without PHASE. -/
def State.cqWrite (s : State) (n : Nat) (body : List Byte) (status : Nat) : State :=
  let t := s.getF (F.REC_CQ_TAIL_TAIL n)
  let phase := s.getF (F.REC_CQ_TAIL_PHASE n)
  let size := s.getF (F.REC_CQ_CTL_SIZE n)
  let a := s.getF (F.REC_CQ_BASE_ADDR n) * 4096 + 16 * t
  let s1 := s.emit (.hostWrite a (body ++ leBytes 2 (status + phase)))
  let s2 := s1.setF (F.REC_CQ_TAIL_TAIL n) (if t + 1 = size then 0 else t + 1)
  let s3 := if t + 1 = size then s2.setF (F.REC_CQ_TAIL_PHASE n) (1 - phase) else s2
  s3.when (s3.bit (F.REC_CQ_CTL_VEC_EN n)) (·.raise n)

/-- An event of the engine (R373): it stands in REC_EVENT, and goes to completion queue 0 when events are enabled. -/
def State.recEvent (s : State) (code inst : Nat) : State :=
  let r := code + 256 * inst + 65536 * s.shortStamp
  let s1 := s.setF F.REC_EVENT_EVENT r
  if !s1.bit F.REC_CTL_EVENTS_EN then s1
  else if s1.cqRoom 0 then
    (s1.cqWrite 0 (leBytes 8 r ++ leBytes 2 s1.free ++ leBytes 2 0xFFFF ++ leBytes 2 0xFFFF) 0).freed
  else s1.flag F.REC_ERR_EVENTS_LOST

/-- A command completes with a status code. -/
def State.complete (s : State) (e : RecEntry) (code : Nat) (zero : Bool) (result : Nat) : State :=
  let d : RecDone :=
    { cq := s.getF (F.REC_SQ_CTL_CQ e.sq), sq := e.sq, head := e.head, cid := fieldAt e.bytes 2 2, code, zero, result }
  { s with recorder := { s.recorder with done := s.recorder.done ++ [d] } }

/-- A command that may have been ended otherwise completes. -/
def State.completeOpt (s : State) (e : Option RecEntry) (code result : Nat) : State :=
  match e with
  | some x => s.complete x code false result
  | none => s

/-! ## NVMe commands (R386) -/

/-- Issue an NVMe command. -/
def State.nvmeIssue (s : State) (d : Nat) (kind : NvmeKind) (job stream record : Nat) : State :=
  let c : NvmeCmd := { id := s.recorder.nextId, drive := d, kind, job, stream, record }
  { s with recorder := { s.recorder with nvme := s.recorder.nvme ++ [c], nextId := s.recorder.nextId + 1 } }

/-- Replace a job, or drop it. -/
def State.putJob (s : State) (j : RecJob) : State :=
  { s with recorder := { s.recorder with jobs := s.recorder.jobs.map fun x => if x.id = j.id then j else x } }
def State.dropJob (s : State) (id : Nat) : State :=
  { s with recorder := { s.recorder with jobs := s.recorder.jobs.filter (·.id != id) } }

/-! ## The end of jobs and streams -/

/-- A stream returns to IDLE or ARMED. -/
def State.streamRest (s : State) (k st : Nat) : State :=
  let x := s.recStream k
  let y : RecStream := if st = 0 then {} else
    { srcKind := x.srcKind, source := x.source, slot := x.slot, preroll := x.preroll, passed := x.passed, frame := x.frame
      ring := x.ring.filter fun i => i.cause == 0 && i.issued.isNone }
  let s1 := ((s.setRec k y).setF (F.REC_STREAM_STATUS_STATE k) st).setF (F.REC_STREAM_CLIP_CLIP k) 0
  if st = 0 then ((s1.setF (F.REC_STREAM_STATUS_OWNER k) 0).setF (F.REC_STREAM_STATUS_CLASS k) 0).setF
    (F.REC_STREAM_STATUS_DRIVES k) 0 else s1.setF (F.REC_STREAM_STATUS_DRIVES k) 0

/-- What follows a job (R375, R396). -/
def State.jobEnd (s : State) (j : RecJob) : State :=
  let fail (code : Nat) : State :=
    match j.after with
    | .started k => ((s.completeOpt j.entry code 0).streamRest k 0).when (s.recStream k).resetting (·.recEvent 7 k)
    | .formatted ds _ =>
      (ds.foldl (fun (x : State) d => x.setB (F.REC_DRIVE_STATUS_LAYOUT d) (x.layoutOf d).isSome) s).completeOpt j.entry code 0
    | .checkpoint k f =>
      let x := s.recStream k
      if f = some 3 then ((s.streamRest k 0).recEvent 7 k) else s.setRec k { x with checking := false }
    | .deliver data _ =>
      if code = 12 then
        (s.when (!data.isEmpty) fun y => y.emit (.hostWrite ((j.entry.map fun e => fieldAt e.bytes 8 8).getD 0) data)).completeOpt
          j.entry 13 data.length
      else s.completeOpt j.entry code 0
    | _ => s.completeOpt j.entry code 0
  match j.error with
  | some c => fail c
  | none =>
    match j.after with
    | .none => s.completeOpt j.entry 0 0
    | .complete r => s.completeOpt j.entry 0 r
    | .formatted ds r =>
      (ds.foldl (fun (x : State) d => x.setB (F.REC_DRIVE_STATUS_LAYOUT d) (x.recDrive d).layout.isSome) s).completeOpt j.entry 0 r
    | .deliver data bad =>
      let s1 := s.when (!data.isEmpty) fun y =>
        y.emit (.hostWrite ((j.entry.map fun e => fieldAt e.bytes 8 8).getD 0) data)
      s1.completeOpt j.entry (if bad then 13 else 0) data.length
    | .started k => s.completeOpt j.entry 0 (s.getF (F.REC_STREAM_CLIP_CLIP k))
    | .checkpoint k f =>
      let x := s.recStream k
      let y := { x with
        checking := false, checkpoints := x.checkpoints + 1, units := x.units.map fun u => { u with dirty := false } }
      let s1 := s.setRec k y
      match f with
      | none => s1
      | some 3 => (s1.streamRest k 0).recEvent 7 k
      | some _ =>
        let s2 := s1.completeOpt x.stopEntry 0 x.bytes
        (s2.streamRest k (if x.disarm then 0 else 1)).when x.stopLate (·.recEvent 7 k)

/-- An NVMe command writes: the temperature interlock holds it back (R388, R398). -/
def NvmeKind.writes : NvmeKind → Bool
  | .write _ _ | .zero _ _ | .dealloc _ _ => true
  | .flush | .read => false

/-- Issue the phases of job `j` in turn: the next that has commands, or the job ends. A phase that writes waits while a
drive it writes to is interlocked (R398). -/
def State.jobPhase (s : State) (j : RecJob) : Nat → State
  | 0 => (s.dropJob j.id).jobEnd j
  | fuel + 1 =>
    match j.error, j.phases with
    | some _, _ | _, [] => (s.dropJob j.id).jobEnd j
    | none, [] :: r => State.jobPhase s { j with phases := r } fuel
    | none, p :: r =>
      if p.any fun (d, k) => k.writes && s.interlocked [d] then s.putJob { j with waiting := 0 }
      else
      let s1 := p.foldl (fun (x : State) (d, k) => x.nvmeIssue d k j.id 0 0) s
      s1.putJob { j with phases := r, waiting := p.length }

/-- Start a job. -/
def State.jobStart (s : State) (entry : Option RecEntry) (phases : List (List (Nat × NvmeKind))) (after : RecAfter) : State :=
  let j : RecJob := { id := s.recorder.nextId, entry, phases, waiting := 0, error := none, after }
  let s1 := { s with recorder := { s.recorder with jobs := s.recorder.jobs ++ [j], nextId := s.recorder.nextId + 1 } }
  s1.jobPhase j (phases.length + 1)

/-- One command of a job has ended, with an error code if it failed. -/
def State.jobStep (s : State) (id : Nat) (code : Option Nat) : State :=
  match s.recorder.jobs.find? (·.id == id) with
  | none => s
  | some j =>
    let j1 := { j with waiting := j.waiting - 1, error := j.error.orElse fun _ => code }
    if j1.waiting = 0 then (s.putJob j1).jobPhase j1 (j1.phases.length + 1) else s.putJob j1

/-! ## Checkpoints (R396) -/

/-- The members a stream may still write: all while none is lost; at a queue reset the rest. -/
def State.recMembers (s : State) (k : Nat) : List Nat :=
  let x := s.recStream k
  if x.resetting then x.members.filter fun d => (s.driveCode d).isNone && !s.interlocked [d] else x.members

/-- A checkpoint of stream `k` starts; `final` closes the clip with a STATE. -/
def State.checkpoint (s : State) (k : Nat) (final : Option Nat) : State :=
  let x := s.recStream k
  let ms := s.recMembers k
  let clip := s.getF (F.REC_STREAM_CLIP_CLIP k)
  let extents := (x.units.filter fun u => u.dirty && ms.contains u.drive).filterMap fun u =>
    (s.layoutOf u.drive).map fun y => (u.drive, NvmeKind.write (y.extentAddr u.unit) (u.entry clip))
  let y := { x with checkpoints := x.checkpoints + 1 }
  let desc := ms.map fun d => (d, NvmeKind.write (descAddr clip) (y.descriptor clip k (final.getD 1) s.origin))
  (s.setRec k { x with checking := true }).jobStart none [ms.map fun d => (d, .flush), extents, desc] (.checkpoint k final)

/-- Records of a stream are being written. -/
def State.recWriting (s : State) (k : Nat) : Bool := s.recorder.nvme.any fun c => c.job == 0 && c.stream == k

/-- A RECORD_START of stream `k` waits for its OPEN descriptor. -/
def State.recStarting (s : State) (k : Nat) : Bool := s.recorder.jobs.any fun j => j.after == .started k

/-- A stream that ends goes on as far as it can: a queue reset to its final checkpoint, a stop to its closing one, or to
NO_DRIVE when a member is lost (R387, R389, R390). -/
def State.streamStep (s : State) (k : Nat) : State :=
  let x := s.recStream k
  if x.checking || s.recWriting k || s.recStarting k then s
  else if x.resetting then
    if s.getF (F.REC_STREAM_CLIP_CLIP k) = 0 ∨ (s.recMembers k).isEmpty then
      (s.streamRest k 0).recEvent 7 k
    else s.checkpoint k (some 3)
  else if s.recState k ≠ 3 then s
  else if x.lost then (s.completeOpt x.stopEntry 3 0).streamRest k (if x.disarm then 0 else 1)
  else if x.ended && x.ring.isEmpty && !s.interlocked x.members then s.checkpoint k (some 2)
  else s

/-! ## Queue resets (R390) -/

/-- A queue reset that has nothing left to wait for ends (R390 step 6). -/
def State.resetCheck (s : State) : State :=
  let busy (n : Nat) : Bool :=
    s.recorder.jobs.any (fun j => (j.entry.map (·.sq)) == some n)
      || (List.range 32).any fun k => s.recState k != 0 && s.getF (F.REC_STREAM_STATUS_OWNER k) == n && (s.recStream k).resetting
  let ended := s.recorder.resets.filter fun n => !busy n
  let s1 := ended.foldl (fun (x : State) n =>
    let y := ((x.setF (F.REC_SQ_HEAD_HEAD n) 0).unflag (F.REC_SQ_CTL_RESET n))
    { y with recorder := { y.recorder with
        sqTail := y.recorder.sqTail.put 0 n 0, resets := y.recorder.resets.filter (· != n) } }) s
  if s1.recorder.resetAll && s1.recorder.resets.isEmpty then
    { s1 with recorder := { s1.recorder with resetAll := false } }.unflag F.REC_CTL_RESET_ALL
  else s1

/-- A stream owned by a queue that is reset stops taking input; what is not yet written is discarded (R390 step 2). -/
def State.streamReset (s : State) (k : Nat) : State :=
  let x := s.recStream k
  let s1 := if x.srcKind = 1 then s.trugFlush x.source else s
  s1.setRec k { x with resetting := true, ended := true, ring := x.ring.filter (·.issued.isSome), stopEntry := none }

/-- Reset of submission queue `n` (R390). -/
def State.queueReset (s : State) (n : Nat) : State :=
  let owned := (List.range 32).filter fun k => s.recState k != 0 && s.getF (F.REC_STREAM_STATUS_OWNER k) == n
  let stops := owned.filterMap fun k => (s.recStream k).stopEntry
  let s1 := owned.foldl State.streamReset (s.flag (F.REC_SQ_CTL_RESET n))
  let mine (j : RecJob) : Bool := (j.entry.map (·.sq)) == some n && (match j.after with | .formatted _ _ => false | _ => true)
  let kept (j : RecJob) : Bool := match j.after with | .started _ => true | _ => false
  let aborted := (s1.recorder.fetched.filter (·.sq == n)) ++ (s1.recorder.jobs.filter mine).filterMap (·.entry)
    ++ stops.filter (·.sq == n)
  let s2 := { s1 with recorder := { s1.recorder with
    fetched := s1.recorder.fetched.filter (·.sq != n)
    jobs := (s1.recorder.jobs.filter fun j => !mine j || kept j).map fun j => if mine j then { j with entry := none } else j
    resets := if s1.recorder.resets.contains n then s1.recorder.resets else s1.recorder.resets ++ [n] } }
  let s3 := aborted.foldl (fun (x : State) e => x.complete e 14 false 0) s2
  (owned.foldl State.streamStep s3).resetCheck

/-- Every submission queue is reset (R390). -/
def State.queueResetAll (s : State) : State :=
  let s1 := { s with recorder := { s.recorder with resetAll := true } }.flag F.REC_CTL_RESET_ALL
  ((List.range 64).foldl State.queueReset s1).resetCheck

/-! ## Drives (R387) -/

/-- A drive is lost: its commands are abandoned, and streams that record to it write nothing more. -/
def State.driveLost (s : State) (d : Nat) : State :=
  let gone := s.recorder.nvme.filter (·.drive == d)
  let s1 := { s with recorder := { s.recorder with nvme := s.recorder.nvme.filter (·.drive != d) } }
  let s2 := (((s1.flag (F.REC_DRIVE_STATUS_FAILED d)).unflag (F.REC_DRIVE_STATUS_PRESENT d)).unflag
    (F.REC_DRIVE_STATUS_LAYOUT d)).recEvent 2 d
  let hit := (List.range 32).filter fun k => s2.recState k != 0 && (s2.recStream k).members.contains d
  let s3 := hit.foldl (fun (x : State) k =>
    let y := x.recStream k
    (x.setRec k { y with
      lost := true
      ring := if gone.any (fun c => c.job == 0 && c.stream == k) then y.ring.map fun i => { i with issued := none } else y.ring
      }).flag (F.REC_STREAM_ERR_DRIVE_LOST k)) s2
  let s4 := gone.foldl (fun (x : State) c => if c.job = 0 then x else x.jobStep c.job (some 3)) s3
  (hit.foldl State.streamStep s4).resetCheck

end Sys2Proof.Machine
end

