-- ==== Sys2Proof/Machine/RecRun.lean ====
section
/-!
DEFINITION. The recording engine in operation: queue enables, arbitration, the checks of an entry, the commands, item
intake with the pre-roll plot, media writes, the interlock and drive attachment (spec/13_recording_queue.md).
-/

namespace Sys2Proof.Machine

/-! ## Interface and queues (R366 to R370) -/

/-- Drop the engine's not-ready writes: a queue enable that is ignored (R369, R370). -/
def State.notReady (s : State) : State := s.flag F.REC_ERR_NOT_READY

/-- IFACE_MAJOR and IFACE_MINOR are written (R369). -/
def State.ifaceWrite (s : State) (major minor : Nat) : State :=
  let s1 := (s.setF F.REC_CTL_IFACE_MAJOR major).setF F.REC_CTL_IFACE_MINOR minor
  if major % 16 = 1 then
    (((s1.flag F.REC_STATUS_READY).unflag F.REC_STATUS_VER_BAD).setF F.REC_STATUS_MAJOR 1).setF F.REC_STATUS_MINOR 0
  else (s1.flag F.REC_STATUS_VER_BAD).unflag F.REC_STATUS_READY

/-- Completion queue `n` is enabled. -/
def State.cqOn (s : State) (n : Nat) : Bool := s.getF (F.REC_CQ_CTL_SIZE n) != 0
def State.sqOn (s : State) (n : Nat) : Bool := s.getF (F.REC_SQ_CTL_SIZE n) != 0

/-- SIZE, CQ and CLASS of submission queue `n` are written (R370). -/
def State.sqSize (s : State) (n size cq cls : Nat) : State :=
  let put (x : State) : State :=
    ((x.setF (F.REC_SQ_CTL_SIZE n) size).setF (F.REC_SQ_CTL_CQ n) cq).setF (F.REC_SQ_CTL_CLASS n) cls
  if 64 ≤ n ∨ 4096 < size then s
  else if size = 0 then if s.sqOn n then (put s).queueReset n else put s
  else if !s.bit F.REC_STATUS_READY || !s.cqOn (cq % 64) then s.notReady
  else if s.sqOn n then put s
  else
    let s1 := (put s).setF (F.REC_SQ_HEAD_HEAD n) 0
    { s1 with recorder := { s1.recorder with sqTail := s1.recorder.sqTail.put 0 n 0 } }

/-- SIZE and VEC_EN of completion queue `n` are written (R370). -/
def State.cqSize (s : State) (n size : Nat) (vecEn : Bool) : State :=
  let put (x : State) : State := (x.setF (F.REC_CQ_CTL_SIZE n) size).setB (F.REC_CQ_CTL_VEC_EN n) vecEn
  if 64 ≤ n ∨ size = 1 ∨ 4096 < size then s
  else if size = 0 then
    if (List.range 64).any fun q => s.sqOn q && s.getF (F.REC_SQ_CTL_CQ q) == n then s else put s
  else if !s.bit F.REC_STATUS_READY then s.notReady
  else if s.cqOn n then put s
  else
    let s1 := ((put s).setF (F.REC_CQ_TAIL_TAIL n) 0).setF (F.REC_CQ_TAIL_PHASE n) 1
    { s1 with recorder := { s1.recorder with cqHead := s1.recorder.cqHead.put 0 n 0 } }

/-- A doorbell of a submission queue (R367). -/
def State.sqDoorbell (s : State) (n tail : Nat) : State :=
  if tail < s.getF (F.REC_SQ_CTL_SIZE n) then
    { s with recorder := { s.recorder with sqTail := s.recorder.sqTail.put 0 n tail } }
  else s

/-- A doorbell of a completion queue (R367). -/
def State.cqDoorbell (s : State) (n head : Nat) : State :=
  if head < s.getF (F.REC_CQ_CTL_SIZE n) then
    { s with recorder := { s.recorder with cqHead := s.recorder.cqHead.put 0 n head } }
  else s

/-- The oldest completion of queue `cq` is written once the queue has room (R367, R368, R372). -/
def State.completionPost (s : State) (cq : Nat) : State :=
  match s.recorder.done.find? fun d => d.cq == cq with
  | none => s
  | some d =>
    if !s.cqRoom cq then s
    else
      let s1 := { s with recorder := { s.recorder with done := s.recorder.done.erase d } }
      s1.cqWrite cq (leBytes 8 d.result ++ leBytes 2 d.head ++ leBytes 2 d.sq ++ leBytes 2 d.cid)
        (2 * b2n d.zero + 256 * d.code)

/-! ## Arbitration (R377) -/

/-- Submission queue `n` holds an unfetched entry. -/
def State.sqWaits (s : State) (n : Nat) : Bool :=
  s.sqOn n && !s.recorder.resets.contains n && s.getF (F.REC_SQ_HEAD_HEAD n) != s.recorder.sqTail.at 0 n

/-- The next queue of a class in turn. -/
def State.nextOf (s : State) (cls : Nat) : Option Nat :=
  let last := s.recorder.served.getD cls 63
  ((List.range 64).map fun i => (last + 1 + i) % 64).find? fun n => s.getF (F.REC_SQ_CTL_CLASS n) == cls && s.sqWaits n

/-- Turns of a class in a round. -/
def State.weight (s : State) (cls : Nat) : Nat :=
  match cls with
  | 1 => s.getF F.REC_ARB_W_HIGH
  | 2 => s.getF F.REC_ARB_W_MED
  | _ => s.getF F.REC_ARB_W_LOW

/-- The queue that a round serves next, with the class and turns left after it. -/
def State.roundNext (s : State) (cls turns : Nat) : Nat → Option (Nat × Nat × Nat)
  | 0 => none
  | fuel + 1 =>
    match (if turns = 0 then none else s.nextOf cls) with
    | some n => some (n, cls, turns - 1)
    | none =>
      let c := if cls = 3 then 1 else cls + 1
      State.roundNext s c (s.weight c) fuel

/-- The queue fetched from next: an Urgent queue first, else by rounds. -/
def State.arbitrate (s : State) : Option (Nat × State) :=
  let serve (x : State) (n cls : Nat) : State :=
    { x with recorder := { x.recorder with served := x.recorder.served.set cls n } }
  match s.nextOf 0 with
  | some n => some (n, serve s n 0)
  | none =>
    match s.roundNext s.recorder.roundClass s.recorder.turns 4 with
    | none => none
    | some (n, c, t) =>
      some (n, serve { s with recorder := { s.recorder with roundClass := c, turns := t } } n c)

/-! ## Checks of an entry (R371, R374, R376) -/

/-- The bytes that a command uses, beyond 0, 2 and 3; none for an opcode that R374 does not list. -/
def usedBytes (op : Nat) : Option (List Nat) :=
  let r (a b : Nat) : List Nat := (List.range (b + 1 - a)).map (a + ·)
  match op with
  | 0x01 => some (r 8 15)
  | 0x02 => some (4 :: r 8 15)
  | 0x03 => some (16 :: r 18 27)
  | 0x04 => some (4 :: r 16 19)
  | 0x05 => some [16]
  | 0x10 => some (1 :: r 16 55)
  | 0x11 => some (1 :: 16 :: r 24 31)
  | 0x12 => some (16 :: 17 :: (r 24 31 ++ r 32 47))
  | 0x20 => some (4 :: (r 8 15 ++ r 16 19 ++ r 24 35))
  | _ => none

/-- A power of two. -/
def powerOfTwo (n : Nat) : Bool := (List.range 64).any fun k => n == 2 ^ k

/-- Every field of a command lies within its bounds (R374). -/
def State.fieldsOk (s : State) (b : List Byte) : Bool :=
  let op := byteAt b 0
  let host := decide (fieldAt b 8 8 % 64 = 0)
  let drive := decide (byteAt b 4 < 4)
  match op with
  | 0x01 => host
  | 0x02 => host && drive
  | 0x03 => decide (byteAt b 16 < 16) && fieldAt b 18 2 == 0x5EED && decide (fieldAt b 20 4 ≤ 1048576)
      && decide (256 ≤ fieldAt b 24 4) && decide (fieldAt b 24 4 ≤ 65536) && powerOfTwo (fieldAt b 24 4)
  | 0x04 => drive
  | 0x05 => decide (byteAt b 16 < 16)
  | 0x10 =>
    let kind := byteAt b 17
    let room := match s.plot? (fieldAt b 22 2) with | some p => decide (2 ^ 26 ≤ p.size) | none => false
    decide (byteAt b 1 ≤ 1) && decide (byteAt b 16 < 32) && (kind == 1 || kind == 2) && (kind == 2 || byteAt b 20 == 0)
      && decide (byteAt b 20 < 8) && decide (byteAt b 21 < 16) && room
  | 0x11 => decide (byteAt b 1 ≤ 1) && decide (byteAt b 16 < 32)
  | 0x12 => decide (byteAt b 16 < 32)
  | _ => host && drive && decide (fieldAt b 32 4 ≤ 67108864)

/-- A command with a zero length, count or mask (R376). -/
def zeroCommand (b : List Byte) : Bool :=
  match byteAt b 0 with
  | 0x03 => byteAt b 16 == 0 || fieldAt b 20 4 == 0
  | 0x05 => byteAt b 16 == 0
  | 0x10 => byteAt b 1 == 0 && byteAt b 21 == 0
  | 0x20 => fieldAt b 32 4 == 0
  | _ => false

/-- An entry is fetched from queue `n`: it waits for its command, or completes at once (R371, R373, R376). -/
def State.fetchEntry (s : State) (n : Nat) (b : List Byte) : State :=
  let size := s.getF (F.REC_SQ_CTL_SIZE n)
  let h := (s.getF (F.REC_SQ_HEAD_HEAD n) + 1) % size
  let e : RecEntry := { sq := n, head := h, bytes := b }
  let s1 := s.setF (F.REC_SQ_HEAD_HEAD n) h
  match usedBytes (byteAt b 0) with
  | none => s1.complete e 1 false 0
  | some used =>
    let clean := (List.range 64).all fun i => i == 0 || i == 2 || i == 3 || used.contains i || byteAt b i == 0
    if !clean || !s1.fieldsOk b then s1.complete e 2 false 0
    else if zeroCommand b then s1.complete e 0 true 0
    else { s1 with recorder := { s1.recorder with fetched := s1.recorder.fetched ++ [e] } }

/-- Run a command on the oldest fetched entry of its opcode. -/
def State.withEntry (s : State) (op : Nat) (f : State → RecEntry → State) : State :=
  match s.recorder.fetched.find? fun e => byteAt e.bytes 0 == op with
  | none => s
  | some e => f { s with recorder := { s.recorder with fetched := s.recorder.fetched.erase e } } e

/-! ## Identify and media information (R375) -/

/-- IDENTIFY. -/
def State.identify (s : State) (ok : Bool) (e : RecEntry) : State :=
  let present := ((List.range 4).map fun d => b2n (s.bit (F.REC_DRIVE_STATUS_PRESENT d)) * 2 ^ d).sum
  let data := leBytes 2 0x0100 ++ leBytes 1 (s.getF F.REC_STATUS_MINOR) ++ leBytes 1 (s.getF F.REC_STATUS_MAJOR)
    ++ leBytes 1 (s.getF F.GLB_ID_VARIANT) ++ leBytes 1 present ++ leBytes 1 64 ++ leBytes 1 64 ++ leBytes 2 4096
    ++ leBytes 1 32 ++ leBytes 1 0x10 ++ leBytes 4 0 ++ leBytes 8 (s.getF F.SEED_IMAGE_ID_BUILD_ID)
  if ok then (s.emit (.hostWrite (fieldAt e.bytes 8 8) (padTo 4096 data))).complete e 0 false 0
  else s.complete e 15 false 0

/-- MEDIA_INFO: the layout fields are zero on a drive without a layout. -/
def State.mediaInfo (s : State) (ok : Bool) (e : RecEntry) : State :=
  let d := byteAt e.bytes 4
  match s.driveCode d with
  | some c => s.complete e c false 0
  | none =>
    let v := s.recDrive d
    let lay := match s.layoutOf d with
      | none => List.replicate 30 0#8
      | some y =>
        let free := ((List.range y.units).filter fun u => v.unitClip y u == 0).length
        let clips := ((List.range y.descCount).filter fun c => v.clipState (c + 1) != 0).length
        leBytes 8 y.blocks ++ leBytes 8 free ++ leBytes 4 clips ++ leBytes 8 y.setId ++ leBytes 1 y.member ++ leBytes 1 y.count
    let temp := patternOf 16 (s.getS (F.REC_DRIVE_STATUS_TEMP d))
    let data := padTo 40 v.model ++ padTo 20 v.serial ++ lay ++ leBytes 2 temp ++ leBytes 1 (s.getF (F.REC_DRIVE_TEMP_WIN_LO d))
      ++ leBytes 1 (s.getF (F.REC_DRIVE_TEMP_WIN_HI d)) ++ leBytes 1 ((s.rd (R.REC_DRIVE_STATUS d)).toNat % 256)
    if ok then (s.emit (.hostWrite (fieldAt e.bytes 8 8) (padTo 512 data))).complete e 0 false 0
    else s.complete e 15 false 0

/-! ## Format, trim and flush (R375, R396) -/

/-- A stream that records to a drive. -/
def State.recordsTo (s : State) (d : Nat) : Bool :=
  (List.range 32).any fun k => s.recState k != 0 && (s.recStream k).members.contains d

/-- The layout that MEDIA_FORMAT gives member `m` of `count`. -/
def State.newLayout (s : State) (d m count clips alloc : Nat) : RecLayout :=
  let v := s.recDrive d
  let extents := 2 + clips
  let data := roundUp (extents + (32 * (v.blocks / alloc) + 4095) / 4096) alloc
  { formatting := true, generation := (v.super.map (·.generation)).getD 0, setId := s.longStamp, member := m, count
    origin := s.origin, alloc, blocks := v.blocks, descCount := clips, extentStart := extents
    units := (v.blocks - data) / alloc, dataStart := data, stamp := s.longStamp }

/-- MEDIA_FORMAT. -/
def State.mediaFormat (s : State) (e : RecEntry) : State :=
  let ds := maskDrives (byteAt e.bytes 16)
  let clips := fieldAt e.bytes 20 4
  let alloc := fieldAt e.bytes 24 4
  match s.drivesCode ds with
  | some c => s.complete e c false 0
  | none =>
    if s.interlocked ds then s.complete e 6 false 0
    else if ds.any s.recordsTo then s.complete e 9 false 0
    else
      let lays := ds.zipIdx.map fun (d, m) => (d, s.newLayout d m ds.length clips alloc)
      let copy (y : RecLayout) (n : Nat) (fmt : Bool) : List Byte :=
        { y with generation := y.generation + n, formatting := fmt }.block
      let phases : List (List (Nat × NvmeKind)) :=
        [lays.flatMap fun (d, y) => [(d, .write 0 (copy y 1 true)), (d, .write 4096 (copy y 2 true))],
         lays.flatMap fun (d, y) => [(d, .zero 8192 (4096 * clips)),
           (d, .zero (4096 * y.extentStart) (4096 * (y.dataStart - y.extentStart)))],
         lays.map fun (d, y) => (d, .write 4096 (copy y 3 false)),
         lays.map fun (d, y) => (d, .write 0 (copy y 4 false))]
      let smallest := ((lays.map fun (_, y) => y.blocks).min?).getD 0
      let s1 := ds.foldl (fun (x : State) d => x.unflag (F.REC_DRIVE_STATUS_LAYOUT d)) s
      s1.jobStart (some e) phases (.formatted ds smallest)

/-- A stream records clip `c` to a drive. -/
def State.clipBusy (s : State) (c : Nat) (ds : List Nat) : Bool :=
  (List.range 32).any fun k =>
    s.getF (F.REC_STREAM_CLIP_CLIP k) == c && ds.any (s.recStream k).members.contains

/-- A clip stands on a member of a set. -/
def State.clipFound (s : State) (c : Nat) (ds : List Nat) : Bool :=
  ds.any fun d => match s.layoutOf d with
    | some y => decide (1 ≤ c) && decide (c ≤ y.descCount) && (s.recDrive d).clipState c != 0
    | none => false

/-- MEDIA_TRIM. -/
def State.mediaTrim (s : State) (e : RecEntry) : State :=
  let d := byteAt e.bytes 4
  let c := fieldAt e.bytes 16 4
  match s.driveCode d, s.setOf d with
  | some k, _ => s.complete e k false 0
  | none, none => s.complete e 4 false 0
  | none, some ds =>
    if s.interlocked ds then s.complete e 6 false 0
    else if !s.clipFound c ds then s.complete e 8 false 0
    else if s.clipBusy c ds then s.complete e 9 false 0
    else
      let units := ds.flatMap fun d => match s.layoutOf d with
        | some y => ((s.recDrive d).clipUnits y c).map fun u => (d, y, u)
        | none => []
      s.jobStart (some e)
        [ds.map fun d => (d, .zero (descAddr c) 4096),
         units.map fun (d, y, u) => (d, .zero (y.extentAddr u) 32),
         units.map fun (d, y, u) => (d, .dealloc (y.unitAddr u) y.unitBytes)] (.complete units.length)

/-- Writes to a drive are pending: issued, or held for one of its streams or jobs. -/
def State.writesPending (s : State) (d : Nat) : Bool :=
  (s.recorder.nvme.any fun c => c.drive == d && c.kind.writes)
    || (s.recorder.jobs.any fun j => j.phases.any fun p => p.any fun (a, k) => a == d && k.writes)
    || (List.range 32).any fun k =>
      let x := s.recStream k
      x.members.contains d && (!x.ring.isEmpty || x.units.any fun u => u.drive == d && u.dirty)

/-- MEDIA_FLUSH. -/
def State.mediaFlush (s : State) (e : RecEntry) : State :=
  let ds := maskDrives (byteAt e.bytes 16)
  match s.drivesCode ds with
  | some c => s.complete e c false 0
  | none =>
    if ds.any fun d => s.interlocked [d] && s.writesPending d then s.complete e 6 false 0
    else s.jobStart (some e) [ds.map fun d => (d, .flush)] (.complete 0)

/-! ## Streams (R379 to R381) -/

/-- The source of a stream is bound to the engine (R380). -/
def State.sourceOk (s : State) (kind source slot : Nat) : Bool :=
  if kind = 1 then decide (source < 512) && (s.trugConsumer source).1 == 9
  else (List.range 16).any fun n => s.getF (F.BED_CFG_JOIN n) != 0 && decide (slot < s.getF (F.BED_CFG_SLOTS n))
    && (List.range 2).any fun t => s.getF (F.BED_TAP_DEST n t) == 2 && s.getF (F.BED_TAP_TARGET n t) == source

/-- The lowest clip number free on every member (R393). -/
def State.freeClip (s : State) (ds : List Nat) : Option Nat :=
  let counts := ds.filterMap fun d => (s.layoutOf d).map (·.descCount)
  ((List.range ((counts.min?).getD 0)).map (· + 1)).find? fun c => !s.clipFound c ds && !s.clipBusy c ds

/-- The stamp from which a take keeps items; none until its first item (R381). -/
def RecStream.keepFrom (x : RecStream) : Option Nat := x.start.map fun t => (t + 2 ^ 64 - x.reach % 2 ^ 64) % 2 ^ 64

/-- An item larger than an allocation unit less 32 bytes becomes a gap (R384). -/
def RecItem.fit (i : RecItem) (unit : Nat) : RecItem :=
  if i.cause = 0 ∧ unit - 32 < i.size then { i with bytes := [], poison := false, starved := false, cause := 3, lost := 1 }
  else i

/-- Bytes of an allocation unit of a stream's set. -/
def State.unitOf (s : State) (x : RecStream) : Nat :=
  ((x.members.filterMap fun d => (s.layoutOf d).map RecLayout.unitBytes).min?).getD 0

/-- Drop what lies before the take. -/
def RecStream.trim (x : RecStream) : RecStream :=
  match x.keepFrom with
  | none => x
  | some t => { x with ring := x.ring.filter fun i => !stampLater 64 t i.stamp }

/-- Frames of tap plots complete by now. -/
def State.framesDone (s : State) (x : RecStream) : List Nat :=
  match (List.range 16).find? fun n => (List.range 2).any fun t =>
      s.getF (F.BED_TAP_DEST n t) == 2 && s.getF (F.BED_TAP_TARGET n t) == x.source with
  | none => []
  | some n =>
    let t := if s.getF (F.BED_TAP_DEST n 0) = 2 ∧ s.getF (F.BED_TAP_TARGET n 0) = x.source then 0 else 1
    ((s.bed n).done.filter fun (a, k, _) => a == t && k == x.slot).map (·.2.2)

/-- RECORD_START. -/
def State.recordStart (s : State) (e : RecEntry) : State :=
  let b := e.bytes
  let k := byteAt b 16
  let arm := byteAt b 1 == 1
  let x := s.recStream k
  let st := s.recState k
  let ds := maskDrives (byteAt b 21)
  let code : Option Nat :=
    if arm then none
    else match s.drivesCode ds with
      | some c => some c
      | none => if (ds.head?.bind s.setOf) == none || (ds.head?.bind s.setOf).any (fun l => l.length != ds.length
          || !ds.all l.contains) then some 4
        else if s.interlocked ds then some 6 else none
  let sameSource := x.srcKind == byteAt b 17 && x.source == fieldAt b 18 2 && x.slot == byteAt b 20
    && x.preroll == fieldAt b 22 2
  let newOne : RecStream :=
    let y : RecStream := { srcKind := byteAt b 17, source := fieldAt b 18 2, slot := byteAt b 20, preroll := fieldAt b 22 2 }
    { y with passed := s.framesDone y }
  match code with
  | some c => s.complete e c false 0
  | none =>
    if st ≥ 2 || (arm && st != 0) || x.resetting then s.complete e 10 false 0
    else if !s.sourceOk (byteAt b 17) (fieldAt b 18 2) (byteAt b 20) || (st == 1 && !sameSource) then s.complete e 11 false 0
    else
      let own (z : State) : State :=
        if st = 0 then (z.setF (F.REC_STREAM_STATUS_OWNER k) e.sq).setF (F.REC_STREAM_STATUS_CLASS k)
          (z.getF (F.REC_SQ_CTL_CLASS e.sq))
        else z
      let y := if st = 0 then newOne else x
      if arm then ((own (s.setRec k y)).setF (F.REC_STREAM_STATUS_STATE k) 1).complete e 0 false 0
      else
        let members := (ds.head?.bind s.setOf).getD []
        match s.freeClip members with
        | none => (s.flag (F.REC_STREAM_ERR_MEDIA_FULL k)).complete e 7 false 0
        | some c =>
          let start := fieldAt b 24 8
          let z0 : RecStream := { y with
            start := if start = 0 then none else some start
            reach := fieldAt b 32 8
            name := (b.drop 40).take 16
            members := members }
          let z := z0.trim
          let z1 := { z with ring := z.ring.map (RecItem.fit · (s.unitOf z)) }
          let s1 := ((((own s).setRec k z1).setF (F.REC_STREAM_STATUS_STATE k) 2).setF (F.REC_STREAM_STATUS_DRIVES k)
            (byteAt b 21)).setF (F.REC_STREAM_CLIP_CLIP k) c
          let open' := z1.descriptor c k 1 s.origin
          (s1.jobStart (some e) [members.map fun d => (d, .write (descAddr c) open')] (.started k)).fireSource (170 + k)

/-- A stamp of a command: 0 is now. -/
def State.stampOr (s : State) (t : Nat) : Nat := if t = 0 then s.longStamp else t

/-- RECORD_STOP: items at or after STOP_STAMP already taken are discarded, and a stop that the interlock holds up with
STOP_WAIT 0 completes at once (R381, R389, R398). -/
def State.recordStop (s : State) (e : RecEntry) : State :=
  let k := byteAt e.bytes 16
  if s.recState k ≠ 2 then s.complete e 10 false 0
  else
    let x := s.recStream k
    let t := s.stampOr (fieldAt e.bytes 24 8)
    let after (a : Nat) : Bool := !stampLater 64 t a
    let written := x.records != 0 && after x.lastStamp
    let y := { x with
      stop := some t, disarm := (byteAt e.bytes 1) == 1, stopEntry := some e
      ended := written || x.ring.any fun i => after i.stamp
      lastStamp := if written then (t + 2 ^ 64 - 1) % 2 ^ 64 else x.lastStamp
      ring := x.ring.filter fun i => i.issued.isSome || !after i.stamp }
    let s1 := (s.setRec k y).setF (F.REC_STREAM_STATUS_STATE k) 3
    let s2 := if s.interlocked x.members && s.getF F.REC_TIMING_STOP_WAIT == 0 && !x.lost then
        (s1.setRec k { y with stopEntry := none, stopLate := true }).complete e 6 false 0
      else s1
    s2.streamStep k

/-- CLIP_MARK. -/
def State.clipMark (s : State) (e : RecEntry) : State :=
  let k := byteAt e.bytes 16
  let x := s.recStream k
  let t := s.stampOr (fieldAt e.bytes 24 8)
  let first := if x.records ≠ 0 then some x.firstStamp else (x.ring.head?).map (·.stamp)
  if s.recState k < 2 then s.complete e 10 false 0
  else if (first.any fun a => stampLater 64 a t) || x.stop.any (fun a => !stampLater 64 a t) then s.complete e 2 false 0
  else if 120 ≤ x.marks.length then s.complete e 16 false 0
  else
    let m : RecMark := { stamp := t, type := byteAt e.bytes 17, label := (e.bytes.drop 32).take 16 }
    (s.setRec k { x with marks := x.marks ++ [m] }).complete e 0 false x.marks.length

/-- CLIP_READ. -/
def State.clipRead (s : State) (ok : Bool) (e : RecEntry) : State :=
  let d := byteAt e.bytes 4
  let c := fieldAt e.bytes 16 4
  match s.driveCode d, s.setOf d with
  | some k, _ => s.complete e k false 0
  | none, none => s.complete e 4 false 0
  | none, some ds =>
    if !s.clipFound c ds then s.complete e 8 false 0
    else if !ok then s.complete e 15 false 0
    else
      let (data, bad) := clipBytes (clipRecords (ds.map s.recDrive) c) (fieldAt e.bytes 24 8) (fieldAt e.bytes 32 4)
      s.jobStart (some e) [ds.map fun d => (d, .read)] (.deliver data bad)

/-! ## Items (R380 to R384) -/

/-- KEPT and REASON where higher-ranked traffic or thermal enforcement kept the engine from draining a plot (R383). -/
def State.recHold (s : State) : Option (Nat × Nat) :=
  if !s.power.steps.isEmpty then some (1, 2)
  else
    let ranks := s.hbm.panic.filterMap fun (k, p) =>
      if p then (if k / 131072 = 7 then some 5 else if k / 131072 = 6 then some 6 else some 4) else none
    (ranks.min?).map fun r => (r, 1)

/-- A drive causes the loss: the interlock, a lost member or a full set (R383). -/
def State.driveCaused (s : State) (k : Nat) : Bool :=
  let x := s.recStream k
  x.lost || s.interlocked x.members || s.bit (F.REC_STREAM_ERR_MEDIA_FULL k)

/-- Items of stream `k` are lost under an action (R382, R383); `fresh` where a run begins. -/
def State.prerollLoss (s : State) (k action n : Nat) (fresh : Bool) : State :=
  let s1 := (s.flag (F.REC_STREAM_ERR_PREROLL_LOSS k)).addF (F.REC_STREAM_CNT_COUNT k 2) n
  let s2 := s1.when fresh (·.recEvent 5 k)
  match (if s2.driveCaused k then none else s2.recHold) with
  | some (kept, reason) =>
    s2.concede 9 k (if s2.getF (F.REC_STREAM_STATUS_CLASS k) = 0 then 7 else 8) kept reason
      (s2.getF (F.REC_STREAM_STATUS_DRIVES k) + 256 * action)
  | none => s2

/-- Bytes of items in a ring: gap records need no item's room. -/
def ringBytes (l : List RecItem) : Nat := ((l.filter fun i => i.cause == 0 || i.cause == 3).map RecItem.size).sum

/-- Overwrite the oldest items until `need` bytes fit in `cap`: an ARMED stream's ring (R381). -/
def dropOldest (cap need : Nat) : List RecItem → List RecItem
  | [] => []
  | i :: r => if ringBytes (i :: r) + need ≤ cap then i :: r else dropOldest cap need r

/-- Overwrite the oldest unwritten item: it joins the WRAP gap before it, or leaves one in its place (R382). None where
every item has been issued. -/
def wrapOne : List RecItem → Option (List RecItem)
  | [] => none
  | i :: r =>
    if i.cause = 2 ∧ i.issued.isNone then
      match r with
      | j :: q => if j.issued.isNone ∧ j.cause = 0 then some ({ i with lost := i.lost + 1 } :: q) else (wrapOne r).map (i :: ·)
      | [] => none
    else if i.issued.isNone ∧ i.cause = 0 then
      some ({ i with bytes := [], poison := false, starved := false, cause := 2, lost := 1 } :: r)
    else (wrapOne r).map (i :: ·)

/-- Overwrite until `need` bytes fit: the ring, and the items lost. -/
def wrapUntil (cap need : Nat) : Nat → List RecItem → List RecItem × Nat
  | 0, l => (l, 0)
  | fuel + 1, l =>
    if ringBytes l + need ≤ cap then (l, 0)
    else match wrapOne l with
      | none => (l, 0)
      | some l1 => let (m, n) := wrapUntil cap need fuel l1; (m, n + 1)

/-- A refused item joins the HOLD gap at the end of the ring, or begins one. -/
def holdGap (i : RecItem) (cause : Nat) (l : List RecItem) : List RecItem × Bool :=
  match l.getLast? with
  | some g =>
    if g.cause = cause ∧ g.issued.isNone then (l.dropLast ++ [{ g with lost := g.lost + 1 }], false)
    else (l ++ [{ i with bytes := [], poison := false, starved := false, cause, lost := 1 }], true)
  | none => ([{ i with bytes := [], poison := false, starved := false, cause, lost := 1 }], true)

/-- The action that governs a full pre-roll plot (R60, R382): that in force, else the next step of trigger 6. -/
def State.fullAction (s : State) (k : Nat) : Nat × State :=
  let x := s.recStream k
  if x.mode ≠ 0 then (x.mode, s)
  else match s.planLeft 6 with
    | [] => (9, s)
    | p :: _ => (if p.inst = 0xFFFF ∨ p.inst = k then p.action else 9, s.planUse p.index)

/-- A take's item enters its ring (R381, R382). -/
def State.ringTake (s : State) (k cap : Nat) (i : RecItem) : State :=
  let x := s.recStream k
  if i.cause ≠ 0 then
    let (l, _) := holdGap i i.cause x.ring
    s.setRec k { x with ring := l }
  else if ringBytes x.ring + i.size ≤ cap then s.setRec k { x with ring := x.ring ++ [i], mode := 0 }
  else
    let (action, s1) := s.fullAction k
    let wrapped := if action = 10 then wrapUntil cap i.size x.ring.length x.ring else (x.ring, 0)
    if action = 10 ∧ ringBytes wrapped.1 + i.size ≤ cap then
      (s1.setRec k { x with ring := wrapped.1 ++ [i], mode := 10 }).prerollLoss k 10 wrapped.2 (x.mode == 0)
    else
      let (l, fresh) := holdGap i (if action = 10 then 2 else 1) wrapped.1
      (s1.setRec k { x with ring := l, mode := action }).prerollLoss k action (wrapped.2 + 1) fresh

/-- A stream takes an item (R381): into the ring while ARMED, into the take while it runs; an item at or after STOP_STAMP
ends it. -/
def State.streamTake (s : State) (k : Nat) (i0 : RecItem) : State :=
  let x := s.recStream k
  let cap := match s.plot? x.preroll with | some p => p.size | none => 0
  match s.recState k with
  | 1 =>
    if i0.cause ≠ 0 ∨ cap < i0.size then s
    else s.setRec k { x with ring := dropOldest cap i0.size x.ring ++ [i0] }
  | 2 | 3 =>
    let x1 := match x.start with
      | some _ => x
      | none => RecStream.trim { x with start := some i0.stamp }
    let s1 := s.setRec k x1
    if x.ended || x1.keepFrom.any fun t => stampLater 64 t i0.stamp then s1
    else if x1.stop.any fun t => !stampLater 64 t i0.stamp then (s1.setRec k { x1 with ended := true }).streamStep k
    else s1.ringTake k cap (i0.fit (s.unitOf x1))
  | _ => s

/-- The item that a source's bytes make (R275, R209, R384, R395). -/
def State.itemOf (s : State) (coded : Bool) (b : List Byte) (poison cut : Bool) : RecItem :=
  let stamp := if coded then fieldAt b 0 8 else s.nearStamp (fieldAt b 0 6)
  if cut then { stamp, bytes := [], poison := false, starved := false, cause := 4, lost := 1, issued := none }
  else
    let flagged := if coded then (byteAt b 18).testBit 4 else (tagOf b).poisoned || (byteAt b 19).testBit 3
    { stamp, bytes := b, poison := poison || flagged, starved := coded && (byteAt b 18).testBit 3, cause := 0, lost := 0
      issued := none }

/-- The next line that a stream takes from its tap plot: frame, line, address, bytes, poison and whether it is the frame's last
(R380). -/
def State.tapNext (s : State) (k : Nat) : Option (Nat × Nat × Nat × List Byte × Bool × Bool) :=
  let x := s.recStream k
  match (List.range 16).find? fun n => (List.range 2).any fun t =>
      s.getF (F.BED_TAP_DEST n t) == 2 && s.getF (F.BED_TAP_TARGET n t) == x.source with
  | none => none
  | some n =>
    let t := if s.getF (F.BED_TAP_DEST n 0) = 2 ∧ s.getF (F.BED_TAP_TARGET n 0) = x.source then 0 else 1
    let next := match x.frame with
      | some p => some p
      | none => (((s.framesDone x).filter fun f => !x.passed.contains f).getLast?).map fun f => (f, 0)
    match next with
    | none => none
    | some (f, y) =>
      match s.tapAddr n x.slot t f y with
      | none => none
      | some a =>
        let head := (s.plotRead a 32).1
        let w := fieldAt head 20 2
        let h := fieldAt head 22 2
        let values := if t = 0 then (w * [16, 20, 24].getD (byteAt head 18) 24 + 7) / 8
          else
            let layout := bitsOf (byteAt head 18) 5 2
            let comps := if layout = 2 then 2 * w else 3 * w
            let packed := (byteAt head 19).testBit 5 && bitsOf (byteAt head 18) 0 3 != 0
            (comps * (if packed then formatBits (byteAt head 18) else 16) + 7) / 8
        let (b, bad) := s.plotRead a (32 + values)
        some (f, y, a, b, bad, decide (h ≤ y + 1))

/-- A stream takes the next item of its source (R380). -/
def State.itemTake (s : State) (k : Nat) (errs : List WordErr) : State :=
  let x := s.recStream k
  if s.recState k = 0 ∨ x.resetting then s
  else if x.srcKind = 1 then
    match headItem (s.trug x.source).ring with
    | none => s
    | some (ws, _) =>
      let (l, s1) := s.readUnit x.source errs 0 ws.length
      let b := l.flatMap TrugWord.valid
      let cut := l.any fun w => w.tag.getLsbD 5 && w.tag.getLsbD 6
      s1.streamTake k (s1.itemOf ((s.trugProducer x.source).1 == 6) b (l.any (·.tag.getLsbD 7)) cut)
  else
    match s.tapNext k with
    | none => s
    | some (f, y, a, b, bad, last) =>
      let s := (s.readWords 7 [] a (wordsTouched a b.length)).2.2
      let x1 := { x with
        frame := if last then none else some (f, y + 1), passed := if last then (f :: x.passed).take 128 else x.passed }
      (s.setRec k x1).streamTake k (s.itemOf false b bad false)

/-! ## Media writes (R378, R394, R395) -/

/-- The unwritten item of earliest stamp. -/
def firstItem (l : List RecItem) : Option RecItem :=
  (l.filter (·.issued.isNone)).foldl (fun (acc : Option RecItem) i =>
    match acc with
    | none => some i
    | some j => if stampLater 64 j.stamp i.stamp then some i else acc) none

/-- A stream's next record may be written. -/
def State.canWrite (s : State) (k : Nat) : Bool :=
  let x := s.recStream k
  decide (2 ≤ s.recState k) && x.start.isSome && !x.lost && !x.resetting && !s.interlocked x.members && !s.recWriting k
    && !s.recStarting k && (firstItem x.ring).isSome

/-- Units of a drive that streams have taken. -/
def State.unitsTaken (s : State) (d : Nat) : List Nat :=
  (List.range 32).flatMap fun k => ((s.recStream k).units.filter (·.drive == d)).map (·.unit)

/-- Mark the first entry equal to an item as issued. -/
def markIssued (i : RecItem) (n : Nat) : List RecItem → List RecItem
  | [] => []
  | j :: r => if j = i then { j with issued := some n } :: r else j :: markIssued i n r

/-- The engine issues the write of the next record of stream `k` (R395): into the last unit, or a new unit of the member
whose turn it is (R394). -/
def State.mediaWrite (s : State) (k : Nat) : State :=
  let x := s.recStream k
  let urgent (j : Nat) : Bool := s.getF (F.REC_STREAM_STATUS_CLASS j) == 0
  if !s.canWrite k || (!urgent k && (List.range 32).any fun j => urgent j && s.canWrite j) then s
  else
    match firstItem x.ring with
    | none => s
    | some i =>
      let unit := s.unitOf x
      let room := match x.units.getLast? with
        | some u => if u.used + i.size ≤ unit then some (u, false) else none
        | none => none
      let fresh : Option (RecUnit × Bool) := (x.members[x.units.length % x.members.length]?).bind fun d =>
        (s.layoutOf d).bind fun y => ((s.recDrive d).freeUnit y (s.unitsTaken d)).map fun u =>
          ({ seq := x.units.length, drive := d, unit := u, used := 0, first := 0, last := 0, dirty := true }, true)
      match room.orElse fun _ => fresh with
      | none =>
        if s.bit (F.REC_STREAM_ERR_MEDIA_FULL k) then s else (s.flag (F.REC_STREAM_ERR_MEDIA_FULL k)).recEvent 6 k
      | some (u, new) =>
        match s.layoutOf u.drive with
        | none => s
        | some y =>
          let s1 := s.setRec k { x with
            units := if new then x.units ++ [u] else x.units, ring := markIssued i x.records x.ring }
          s1.nvmeIssue u.drive (.write (y.unitAddr u.unit + u.used) (i.record x.records)) 0 k x.records

/-- The write of a record of stream `k` has completed (R395). -/
def State.recordDone (s : State) (k : Nat) (c : NvmeCmd) (ok : Bool) : State :=
  let x := s.recStream k
  match x.ring.find? fun i => i.issued == some c.record with
  | none => s
  | some i =>
    if !ok then
      s.setRec k { x with ring := if x.resetting then x.ring.erase i else x.ring.map fun j =>
        if j = i then { j with issued := none } else j }
    else
      let gap := i.cause ≠ 0
      let units := match x.units.getLast? with
        | some u => x.units.dropLast ++ [{ u with
            used := u.used + i.size, first := if u.used = 0 then i.stamp else u.first, last := i.stamp, dirty := true }]
        | none => []
      let y := { x with
        ring := x.ring.erase i, units, records := x.records + 1, bytes := x.bytes + i.size
        gaps := x.gaps + b2n (decide gap), firstStamp := if x.records = 0 then i.stamp else x.firstStamp, lastStamp := i.stamp
        flags := x.flags ||| (b2n i.poison + 2 * b2n i.starved) }
      let s1 := (s.setRec k y).bump (F.REC_STREAM_CNT_COUNT k 0)
      let s2 := s1.when (decide gap) fun z => (z.bump (F.REC_STREAM_CNT_COUNT k 1)).flag (F.REC_STREAM_ERR_GAP k)
      s2.when i.poison (·.flag (F.REC_STREAM_ERR_POISON k))

/-- Streams that wait for something go on, and resets that have nothing left to wait for end. -/
def State.recGoOn (s : State) : State :=
  (((List.range 32).filter fun k => s.recState k != 0).foldl State.streamStep s).resetCheck

/-- An NVMe command ends. -/
def State.nvmeDone (s : State) (id : Nat) (ok : Bool) : State :=
  match s.recorder.nvme.find? fun c => c.id == id with
  | none => s
  | some c =>
    let d := c.drive
    let s1 := { s with recorder := { s.recorder with nvme := s.recorder.nvme.filter (·.id != id) } }
    let s2 := if ok then
        let v := (s1.recDrive d).apply c.kind
        (s1.setDrive d v).setF (F.REC_DRIVE_CNT_COUNT d 3) (min (v.written / 2 ^ 30) (2 ^ 32 - 1))
      else s1.bump (F.REC_DRIVE_CNT_COUNT d 0)
    let s3 := if c.job = 0 then s2.recordDone c.stream c ok else s2.jobStep c.job (if ok then none else some 12)
    s3.recGoOn

/-! ## The interlock (R388, R389) -/

/-- Jobs whose next phase waited for an interlock go on. -/
def State.jobsResume (s : State) : State :=
  (s.recorder.jobs.filter (·.waiting == 0)).foldl (fun (x : State) j => x.jobPhase j (j.phases.length + 1)) s

/-- The composite temperature of a drive is read (R388). -/
def State.tempPoll (s : State) (d : Nat) (temp : Int) : State :=
  let f := F.REC_DRIVE_STATUS_INTERLOCK d
  let lo := s.getS (F.REC_DRIVE_TEMP_WIN_LO d)
  let hi := s.getS (F.REC_DRIVE_TEMP_WIN_HI d)
  if !s.bit (F.REC_DRIVE_STATUS_PRESENT d) then s
  else
    let s1 := s.setF (F.REC_DRIVE_STATUS_TEMP d) (patternOf 8 temp)
    if (temp < lo || hi < temp) && !s.bit f then
      let s2 := ((s1.flag f).bump (F.REC_DRIVE_CNT_COUNT d 2)).recEvent 3 d
      ((List.range 32).filter fun k => decide (2 ≤ s2.recState k) && (s2.recStream k).members.contains d).foldl
        (fun (x : State) k => let y := x.recStream k; x.setRec k { y with flags := y.flags ||| 4 }) s2
    else if s.bit f && lo + 2 ≤ temp && temp ≤ hi - 2 then (((s1.unflag f).recEvent 4 d).jobsResume).recGoOn
    else s1

/-- STOP_WAIT has passed for a stop that the interlock holds (R389). -/
def State.stopExpire (s : State) (k : Nat) : State :=
  let x := s.recStream k
  match x.stopEntry with
  | some e =>
    if s.recState k = 3 ∧ s.interlocked x.members = true then
      (s.setRec k { x with stopEntry := none, stopLate := true }).complete e 6 false 0
    else s
  | none => s

/-! ## Ports and drives (R385, R387, R396) -/

/-- A root port link is retrained: SPLIT and EN apply, and drives that it no longer serves are lost (R385, R387). -/
def State.portReset (s : State) (r wa sa wb sb : Nat) : State :=
  let split := s.bit (F.REC_PORT_CTL_SPLIT r)
  let en := s.bit (F.REC_PORT_CTL_EN r)
  let s0 := (s.emit (.drivePerst r true)).emit (.drivePerst r false)
  let s1 := { s0 with recorder := { s.recorder with
    split := s.recorder.split.put false r split, off := s.recorder.off.put false r (!en) } }
  let a := if en then (wa, sa) else (0, 0)
  let b := if en && split then (wb, sb) else (0, 0)
  let s2 := (((s1.setF (F.REC_PORT_STATUS_WIDTH_A r) a.1).setF (F.REC_PORT_STATUS_SPEED_A r) a.2).setF
    (F.REC_PORT_STATUS_WIDTH_B r) b.1).setF (F.REC_PORT_STATUS_SPEED_B r) b.2
  let gone := [(2 * r, !en || wa == 0), (2 * r + 1, !en || !split || wb == 0)]
  gone.foldl (fun (x : State) (d, g) => if g && x.bit (F.REC_DRIVE_STATUS_PRESENT d) then x.driveLost d else x) s2

/-- Root port 0 or 1 serves drive `d`. -/
def State.portServes (s : State) (d : Nat) : Bool :=
  decide (d < 4) && !s.recorder.off.at false (d / 2) && (d % 2 == 0 || s.recorder.split.at false (d / 2))

/-- What the engine does to the layout of a drive that attaches: OPEN descriptors become TRUNCATED, and units that name a
free clip become free (R396). -/
def RecDrive.recover (d : RecDrive) (y : RecLayout) : RecDrive :=
  let m1 := (List.range y.descCount).foldl (fun (v : RecDrive) c =>
    let a := descAddr (c + 1)
    if v.clipState (c + 1) = 1 then
      { v with media := mediaWrite v.media a (sealBlock (((v.read a 4092).set 8 3#8))) }
    else v) d
  (List.range y.units).foldl (fun (v : RecDrive) u =>
    let c := v.unitClip y u
    if c ≠ 0 ∧ (y.descCount < c ∨ v.clipState c = 0) then { v with media := mediaZero v.media (y.extentAddr u) 32 } else v) m1

/-- A drive attaches (R387, R396). -/
def State.driveAttached (s : State) (d : Nat) (i : DriveInfo) : State :=
  if !s.portServes d then s
  else
    let v0 : RecDrive := { model := i.model, serial := i.serial, blocks := i.blocks, media := i.media, written := 0 }
    let lay := if i.supported then v0.layout else none
    let v := match lay with | some y => v0.recover y | none => v0
    let s1 := s.setDrive d v
    let s2 := ((((s1.flag (F.REC_DRIVE_STATUS_PRESENT d)).unflag (F.REC_DRIVE_STATUS_FAILED d)).setB
      (F.REC_DRIVE_STATUS_UNSUPPORTED d) (!i.supported)).unflag (F.REC_DRIVE_STATUS_INTERLOCK d)).setB
      (F.REC_DRIVE_STATUS_LAYOUT d) lay.isSome
    let r := d / 2
    let s3 := if d % 2 = 0 then
        (s2.setF (F.REC_PORT_STATUS_WIDTH_A r) i.width).setF (F.REC_PORT_STATUS_SPEED_A r) i.gen
      else (s2.setF (F.REC_PORT_STATUS_WIDTH_B r) i.width).setF (F.REC_PORT_STATUS_SPEED_B r) i.gen
    s3.recEvent 1 d

end Sys2Proof.Machine
end

