-- ==== Sys2Proof/Machine/Recording.lean ====
section
/-!
DEFINITION. The commands of the recording engine (spec/13_recording_queue.md).
-/

namespace Sys2Proof.Machine

/-- What the engine does while its block works. -/
def State.recDo (s : State) (f : State → State) : Host.Outcome State Fault Refusal := .next (if s.up 9 then f s else s)

/-- What a register write to the engine does. -/
def State.recWrite (s : State) (f : State → State) : Host.Outcome State Fault Refusal := .next (s.bus 9 f)

/-- REC_IFACE_WRITE (R369). -/
def execRecIfaceWrite (major : Nat) (minor : Nat) (s : State) : Host.Outcome State Fault Refusal :=
  s.recWrite (·.ifaceWrite major minor)

/-- REC_SQ_SIZE_WRITE (R370). -/
def execRecSqSizeWrite (n : Nat) (size : Nat) (cq : Nat) (cls : Nat) (s : State) : Host.Outcome State Fault Refusal :=
  s.recWrite (·.sqSize n size cq cls)

/-- REC_CQ_SIZE_WRITE (R370). -/
def execRecCqSizeWrite (n : Nat) (size : Nat) (vecEn : Bool) (s : State) : Host.Outcome State Fault Refusal :=
  s.recWrite (·.cqSize n size vecEn)

/-- REC_SQ_DOORBELL (R367). -/
def execRecSqDoorbell (n : Nat) (tail : Nat) (s : State) : Host.Outcome State Fault Refusal := s.recWrite (·.sqDoorbell n tail)

/-- REC_CQ_DOORBELL (R367). -/
def execRecCqDoorbell (n : Nat) (head : Nat) (s : State) : Host.Outcome State Fault Refusal := s.recWrite (·.cqDoorbell n head)

/-- REC_FETCH (R371, R377): `entry` is what host memory holds at the head of the queue that arbitration chooses. -/
def execRecFetch (entry : List Byte) (s : State) : Host.Outcome State Fault Refusal :=
  s.recDo fun x => match x.arbitrate with
    | some (n, y) => y.fetchEntry n entry
    | none => x

/-- REC_COMPLETION_POST (R367, R368, R372). -/
def execRecCompletionPost (cq : Nat) (s : State) : Host.Outcome State Fault Refusal := s.recDo (·.completionPost cq)

/-- IDENTIFY (R375). -/
def execIdentify (ok : Bool) (s : State) : Host.Outcome State Fault Refusal :=
  s.recDo fun x => x.withEntry 0x01 fun y e => y.identify ok e

/-- MEDIA_INFO (R375). -/
def execMediaInfo (ok : Bool) (s : State) : Host.Outcome State Fault Refusal :=
  s.recDo fun x => x.withEntry 0x02 fun y e => y.mediaInfo ok e

/-- MEDIA_FORMAT (R375, R396). -/
def execMediaFormat (s : State) : Host.Outcome State Fault Refusal := s.recDo fun x => x.withEntry 0x03 State.mediaFormat

/-- MEDIA_TRIM (R375). -/
def execMediaTrim (s : State) : Host.Outcome State Fault Refusal := s.recDo fun x => x.withEntry 0x04 State.mediaTrim

/-- MEDIA_FLUSH (R375, R388). -/
def execMediaFlush (s : State) : Host.Outcome State Fault Refusal := s.recDo fun x => x.withEntry 0x05 State.mediaFlush

/-- RECORD_START (R379 to R381). -/
def execRecordStart (s : State) : Host.Outcome State Fault Refusal := s.recDo fun x => x.withEntry 0x10 State.recordStart

/-- RECORD_STOP (R379, R389, R398). -/
def execRecordStop (s : State) : Host.Outcome State Fault Refusal := s.recDo fun x => x.withEntry 0x11 State.recordStop

/-- CLIP_MARK (R375, R398). -/
def execClipMark (s : State) : Host.Outcome State Fault Refusal := s.recDo fun x => x.withEntry 0x12 State.clipMark

/-- CLIP_READ (R375, R397). -/
def execClipRead (ok : Bool) (s : State) : Host.Outcome State Fault Refusal :=
  s.recDo fun x => x.withEntry 0x20 fun y e => y.clipRead ok e

/-- REC_SQ_RESET (R390). -/
def execRecSqReset (n : Nat) (s : State) : Host.Outcome State Fault Refusal :=
  s.recWrite fun x => if n < 64 then x.queueReset n else x

/-- REC_RESET_ALL (R390). -/
def execRecResetAll (s : State) : Host.Outcome State Fault Refusal := s.recWrite State.queueResetAll

/-- REC_ARB is written: a zero field leaves its weight unchanged (R44, R377). -/
def State.arbWrite (s : State) (v : Word) : State :=
  let put (x : State) (f : Field) : State := let w := bitsOf v.toNat f.lo f.width; if w = 0 then x else x.setF f w
  put (put (put s F.REC_ARB_W_HIGH) F.REC_ARB_W_MED) F.REC_ARB_W_LOW

/-- REC_ARB_WRITE (R377). -/
def execRecArbWrite (val : Word) (s : State) : Host.Outcome State Fault Refusal := s.recWrite (·.arbWrite val)

/-- TEMP_WIN is written: ignored when LO is not below HI - 4 (R388). -/
def State.tempWinWrite (s : State) (d : Nat) (v : Word) : State :=
  let lo := signedOf 8 (bitsOf v.toNat 0 8)
  let hi := signedOf 8 (bitsOf v.toNat 8 8)
  if d < 4 ∧ lo < hi - 4 then
    (s.setF (F.REC_DRIVE_TEMP_WIN_LO d) (bitsOf v.toNat 0 8)).setF (F.REC_DRIVE_TEMP_WIN_HI d) (bitsOf v.toNat 8 8)
  else s

/-- REC_TEMP_WIN_WRITE (R388). -/
def execRecTempWinWrite (d : Nat) (val : Word) (s : State) : Host.Outcome State Fault Refusal := s.recWrite (·.tempWinWrite d val)

/-- REC_PORT_LINK_RESET (R385): the widths and generations that the links train to. -/
def execRecPortLinkReset (r : Nat) (wa : Nat) (sa : Nat) (wb : Nat) (sb : Nat) (s : State) :
    Host.Outcome State Fault Refusal :=
  s.recWrite fun x => if r < 2 then x.portReset r wa sa wb sb else x

/-- REC_ITEM_TAKE (R380 to R384). -/
def execRecItemTake (k : Nat) (errs : List WordErr) (mem : List MemErr) (s : State) :
    Host.Outcome State Fault Refusal :=
  s.recDo fun x => if k < 32 then (x.meet mem).itemTake k errs else x

/-- REC_MEDIA_WRITE (R378, R394, R395). -/
def execRecMediaWrite (k : Nat) (s : State) : Host.Outcome State Fault Refusal :=
  s.recDo fun x => if k < 32 then x.mediaWrite k else x

/-- NVME_COMPLETION (R386). -/
def execNvmeCompletion (id : Nat) (ok : Bool) (s : State) : Host.Outcome State Fault Refusal := s.recDo (·.nvmeDone id ok)

/-- NVME_TIMEOUT (R387). -/
def execNvmeTimeout (id : Nat) (s : State) : Host.Outcome State Fault Refusal :=
  s.recDo fun x => match x.recorder.nvme.find? fun c => c.id == id with
    | some c => (x.bump (F.REC_DRIVE_CNT_COUNT c.drive 1)).driveLost c.drive
    | none => x

/-- A periodic checkpoint of a stream falls due (R396). -/
def State.periodic (s : State) (k : Nat) : State :=
  let x := s.recStream k
  if s.getF F.REC_CTL_CHECKPOINT_MS ≠ 0 ∧ 2 ≤ s.recState k ∧ x.checking = false ∧ x.lost = false ∧ x.resetting = false
      ∧ s.recStarting k = false ∧ s.interlocked x.members = false then s.checkpoint k none
  else s

/-- REC_CHECKPOINT (R396). -/
def execRecCheckpoint (k : Nat) (s : State) : Host.Outcome State Fault Refusal :=
  s.recDo fun x => if k < 32 then x.periodic k else x

/-- REC_TEMP_POLL (R388). -/
def execRecTempPoll (d : Nat) (temp : Int) (s : State) : Host.Outcome State Fault Refusal :=
  s.recDo fun x => if d < 4 then x.tempPoll d temp else x

/-- REC_STOP_WAIT_EXPIRE (R389). -/
def execRecStopWaitExpire (k : Nat) (s : State) : Host.Outcome State Fault Refusal :=
  s.recDo fun x => if k < 32 then x.stopExpire k else x

/-- DRIVE_LOST (R387). -/
def execDriveLost (d : Nat) (s : State) : Host.Outcome State Fault Refusal :=
  s.recDo fun x => if decide (d < 4) && x.bit (F.REC_DRIVE_STATUS_PRESENT d) then x.driveLost d else x

/-- DRIVE_ATTACHED (R387, R396). -/
def execDriveAttached (d : Nat) (info : DriveInfo) (s : State) : Host.Outcome State Fault Refusal :=
  s.recDo (·.driveAttached d info)

end Sys2Proof.Machine
end

