-- ==== Sys2Proof/Machine/Runners.lean ====
section
/-!
DEFINITION. The commands on Runners: training, substitution, narrowing, power states and raw sensor mode
(spec/05_runner_lanes.md, R125 to R144).
-/

namespace Sys2Proof.Machine

/-! ## What runs after every command -/

/-- Lane `phys` of an ACTIVE Nawen Runner degrades (R134 to R139): it waits while training or a substitution is in
progress; it takes the spare, or finds the pool empty. A retired lane and an idle spare carry nothing. -/
def State.degrade (s : State) (n phys : Nat) (lockLoss : Bool) : State :=
  let x := s.runner n
  let retired := s.getF (F.RUN_SPARE_RETIRED n)
  if retired.testBit phys || decide (8 < phys) then s
  else if s.runState n ≠ 8 ∨ x.subst.isSome = true then
    if x.waiting.contains phys then s else s.setRunner n { x with waiting := x.waiting ++ [phys] }
  else if retired ≠ 0 then s.laneExhausted n phys
  else if phys = 8 then s
  else s.substitute n phys lockLoss

/-- The lanes that waited are dealt with once the Runner is ACTIVE with no substitution under way, the lowest first
(R139); `fuel` bounds their number. -/
def State.runWaiting (s : State) (n : Nat) : Nat → State
  | 0 => s
  | fuel + 1 =>
    let x := s.runner n
    if s.runState n ≠ 8 ∨ x.subst.isSome = true then s
    else match x.waiting.min? with
      | some l => State.runWaiting ((s.setRunner n { x with waiting := x.waiting.filter (· != l) }).degrade n l false) n fuel
      | none => s

/-- A command on a Nawen Runner, with what follows for lanes that wait and for its hedgerow port. -/
def State.nawenCmd (s : State) (n : Nat) (f : State → State) : State :=
  if s.nawen n then ((f s).runWaiting n 9).hedgeHook n else s

/-- A command on a Nawen Runner in a given state. -/
def State.nawenIn (s : State) (n st : Nat) (f : State → State) : State :=
  s.nawenCmd n fun x => if x.runState n = st then f x else x

/-! ## Requests of the host -/

/-- RUN_RETRAIN (R125, R139, R144): training from T0, or a raw Runner back to OFF. -/
def execRunRetrain (n : Nat) (s : State) : Host.Outcome State Fault Refusal :=
  .next <| s.bus 2 fun s =>
    if s.rawRunner n then
      if s.runState n = 2 ∨ s.runState n = 8 then s.rawStop n 0 [] else s
    else s.nawenCmd n (·.toDetect n)

/-- RUN_TIER_CAP_WRITE (R126, R130, R420): a value above MAX_TIER is ignored. -/
def execRunTierCapWrite (n cap : Nat) (s : State) : Host.Outcome State Fault Refusal :=
  .next <| s.bus 2 fun s =>
    if s.up 2 = false ∨ s.variant.runners ≤ n ∨ s.maxTier n < cap then s
    else
      let s1 := s.setF (F.RUN_CTL_TIER_CAP n) cap
      s1.nawenCmd n (·.capChanged n)

/-- RUN_PSTATE_REQ (R140, R141): 3 is ignored; during training or a substitution it waits for the next entry to
ACTIVE. -/
def execRunPstateReq (n v : Nat) (s : State) : Host.Outcome State Fault Refusal :=
  .next <| s.bus 2 fun s =>
    if s.up 2 = false ∨ s.variant.runners ≤ n ∨ 3 ≤ v then s
    else
      let s1 := s.setF (F.RUN_CTL_PSTATE_REQ n) v
      s1.nawenCmd n fun x =>
        if (x.runState n = 8 ∧ (x.runner n).subst.isNone = true) ∨ (x.runner n).l2 = true then x.pstate n else x

/-! ## Training (R125 to R130) -/

/-- CLOCK_ACTIVITY_DETECT (R125): DETECT goes to CLOCK; a Runner that the peer put into L2 relocks (R141). -/
def execClockActivityDetect (n : Nat) (s : State) : Host.Outcome State Fault Refusal :=
  .next <| s.nawenCmd n fun x =>
    if x.runState n = 1 then x.runTo n 2
    else if (x.runner n).l2 = true ∧ x.getF (F.RUN_CTL_PSTATE_REQ n) ≠ 2 then x.l2Leave n
    else x

/-- CLOCK_LANE_LOCK (R125). -/
def execClockLaneLock (n : Nat) (s : State) : Host.Outcome State Fault Refusal :=
  .next <| s.nawenIn n 2 fun x => (x.runTo n 3).flag (F.RUN_LANE_LOCK n 9)

/-- Report the deskew, trim and lock of lanes 0 to 8. -/
def State.laneReport (s : State) (n : Nat) (skews : List Nat) (trims : List Int) : State :=
  (List.range 9).foldl (fun s' k =>
    ((s'.setF (F.RUN_LANE_SKEW n k) (skews.getD k 0)).setF (F.RUN_LANE_TRIM n k) (patternOf 6 (trims.getD k 0))).flag
      (F.RUN_LANE_LOCK n k)) s

/-- LANES_ALIGNED (R125, R129, R133, R141): a skew beyond the deskew range is not aligned. A fallback and a step-up skip
EQUALISE; a Runner out of L2 waits for the check of its training blocks. -/
def execLanesAligned (n : Nat) (skews : List Nat) (trims : List Int) (s : State) : Host.Outcome State Fault Refusal :=
  .next <| s.nawenIn n 3 fun x =>
    if skews.any (255 < ·) then x
    else
      let x1 := x.laneReport n skews trims
      let r := x1.runner n
      if r.l2Exit then x1 else if r.skipEq then x1.toCheck n else x1.runTo n 4

/-- TRAIN_BLOCK_RX (R122, R125): a block whose CRC fails is discarded. -/
def execTrainBlockRx (n : Nat) (block : List Byte) (ownDone : Bool) (s : State) : Host.Outcome State Fault Refusal :=
  .next <| s.nawenCmd n fun x =>
    if blockOk 0x1E block && decide (2 ≤ x.runState n) && decide (x.runState n ≤ 7) then x.trainBlock n block ownDone else x

/-- EQUALISE_TIMEOUT (R125): no failure, CHECK follows. -/
def execEqualiseTimeout (n : Nat) (s : State) : Host.Outcome State Fault Refusal :=
  .next <| s.nawenIn n 5 (·.toCheck n)

/-- TRAIN_STATE_TIMEOUT (R125): a CHECK failure above T0, FAILED at T0; out of L2 training starts from T0 (R141). -/
def execTrainStateTimeout (n : Nat) (s : State) : Host.Outcome State Fault Refusal :=
  .next <| s.nawenCmd n fun x =>
    if [2, 3, 4, 7].contains (x.runState n) then
      if (x.runner n).l2Exit then (x.runErr n (F.RUN_ERR_L2_EXIT_RETRAIN n)).toDetect n else x.checkFailed n
    else x

/-- CHECK_WINDOW_PASS (R127, R128). -/
def execCheckWindowPass (n : Nat) (s : State) : Host.Outcome State Fault Refusal :=
  .next <| s.nawenIn n 6 fun x => (x.setRunner n { x.runner n with ownPass := true }).checkPassed n

/-- CHECK_FAIL (R125, R129). -/
def execCheckFail (n : Nat) (s : State) : Host.Outcome State Fault Refusal :=
  .next <| s.nawenIn n 6 (·.checkFailed n)

/-- TIER_STEP (R128, R129): both directions switch, once STEP_REQ and STEP_ACK have come, or down after a FALLBACK. -/
def execTierStep (n : Nat) (s : State) : Host.Outcome State Fault Refusal :=
  .next <| s.nawenIn n 7 fun x =>
    let r := x.runner n
    if r.stepDown || (r.reqRx && r.ackRx) then x.tierSwitch n else x

/-- FAILED_RETRY (R125). -/
def execFailedRetry (n : Nat) (s : State) : Host.Outcome State Fault Refusal :=
  .next <| s.nawenIn n 9 (·.toDetect n)

/-- RESTEP_RX (R130): the end answers when its own cap lies above the tier, and leaves ACTIVE once it has both sent and
received RESTEP. -/
def execRestepRx (n : Nat) (block : List Byte) (s : State) : Host.Outcome State Fault Refusal :=
  .next <| s.nawenIn n 8 fun x =>
    if blockOk 0x99 block then
      let x1 := x.setRunner n { x.runner n with restepRx := true }
      let r := x1.runner n
      (if r.restepTx = false ∧ r.final = false ∧ x1.runTier n < x1.tierCap n then x1.sendRestep n else x1).restepGo n
    else x

/-! ## Substitution and narrowing (R134 to R139) -/

/-- LANE_LOCK_LOST (R134, R135, R139): one lane takes the spare, two or more retrain the Runner. -/
def execLaneLockLost (n : Nat) (lanes : List Nat) (s : State) : Host.Outcome State Fault Refusal :=
  .next <| s.nawenIn n 8 fun x =>
    let ls := lanes.filter fun k => decide (k < 9) && !(x.getF (F.RUN_SPARE_RETIRED n)).testBit k
    let x1 := ls.foldl (fun s' k => s'.unflag (F.RUN_LANE_LOCK n k)) x
    match ls with
    | [] => x
    | [k] => (x1.runErr n (F.RUN_ERR_LOCK_LOST n)).degrade n k true
    | _ => (x1.runErr n (F.RUN_ERR_LOCK_LOST n)).toDetect n

/-- LANE_DEGRADED (R134): corrected symbols and block errors of a lane within a window are counted, and degrade it when
they reach THRESH; a THRESH or WINDOW_MS of 0 turns that off (R43). -/
def execLaneDegraded (n lane corr blkerr : Nat) (s : State) : Host.Outcome State Fault Refusal :=
  .next <| s.nawenCmd n fun x =>
    if 8 < lane then x
    else
      let x1 := (x.addF (F.RUN_CORR_COUNT n lane) corr).addF (F.RUN_BLKERR_COUNT n lane) blkerr
      let t := x.getF (F.RUN_SPARE_THRESH n)
      if t ≠ 0 ∧ x.getF (F.RUN_SPARE_WINDOW_MS n) ≠ 0 ∧ t ≤ corr + blkerr then x1.degrade n lane false else x1

/-- SPARE_REQUEST_RX (R135): the transmitter copies the lane onto its spare and says so. -/
def execSpareRequestRx (n : Nat) (block : List Byte) (s : State) : Host.Outcome State Fault Refusal :=
  .next <| s.nawenIn n 8 fun x =>
    let k := byteAt block 2
    if blockOk 0x55 block && byteAt block 1 == 1 && decide (k < 8) && (x.runner n).txCopy != some k then
      ((x.setRunner n { x.runner n with txCopy := some k }).flag (F.RUN_STATUS_SPARE_TX n)).sendSpare n 2 k
    else x

/-- SPARE_DUPLICATING_RX (R135): the spare carries the lane; the comparison begins. -/
def execSpareDuplicatingRx (n : Nat) (block : List Byte) (s : State) : Host.Outcome State Fault Refusal :=
  .next <| s.nawenIn n 8 fun x =>
    match (x.runner n).subst with
    | some b =>
      if blockOk 0x55 block && byteAt block 1 == 2 && byteAt block 2 == b.lane then
        x.setRunner n { x.runner n with subst := some { b with duplicating := true } }
      else x
    | none => x

/-- SPARE_COMPARE_DONE (R135, R136): the spare has agreed for the required run, and the lane is switched. -/
def execSpareCompareDone (n lost : Nat) (s : State) : Host.Outcome State Fault Refusal :=
  .next <| s.nawenIn n 8 fun x =>
    match (x.runner n).subst with
    | some b => if b.duplicating then x.substituted n b lost else x
    | none => x

/-- SPARE_SWITCHED_RX (R135): the driver of the physical lane turns off. -/
def execSpareSwitchedRx (n : Nat) (block : List Byte) (s : State) : Host.Outcome State Fault Refusal :=
  .next <| s.nawenIn n 8 fun x =>
    let k := byteAt block 2
    if blockOk 0x55 block && byteAt block 1 == 3 && (x.runner n).txCopy == some k then
      x.setRunner n { x.runner n with txOff := (x.runner n).txOff.put false k true }
    else x

/-- SPARE_NARROW_RX (R137): the transmitter's reply to the Runner's own request, or the peer's request, which is answered
with the same mask. -/
def execSpareNarrowRx (n : Nat) (block : List Byte) (s : State) : Host.Outcome State Fault Refusal :=
  .next <| s.nawenIn n 8 fun x =>
    let m := fieldAt block 2 2 % 512
    if blockOk 0x55 block && byteAt block 1 == 4 && m != 0 then
      if (x.runner n).narrowing = some m then x.narrowed n m true
      else if (x.runner n).txMask = m then x
      else (x.sendSpare n 4 m).narrowed n m false
    else x

/-- CLOCK_LANE_LOST (R125, R139, R144): the Runner retrains from T0, or raw delivery stops and RAW_RATE reads 0. -/
def execClockLaneLost (n : Nat) (lanes : List (List (List Nat))) (s : State) : Host.Outcome State Fault Refusal :=
  .next <|
    if s.rawRunner n then
      if s.runState n = 2 ∨ s.runState n = 8 then
        ((s.runErr n (F.RUN_ERR_CLOCK_LOST n)).setF (F.RUN_RAW_RATE_MBPS n) 0).rawStop n 0 lanes
      else s
    else s.nawenCmd n fun x =>
      if 2 ≤ x.runState n ∧ x.runState n ≤ 8 then (x.runErr n (F.RUN_ERR_CLOCK_LOST n)).toDetect n else x

/-! ## Power states (R140, R141) -/

/-- L1_IDLE_TIMEOUT (R140): an L1_IDLE of 0 turns automatic L1 off (R43). -/
def execL1IdleTimeout (n : Nat) (s : State) : Host.Outcome State Fault Refusal :=
  .next <| s.nawenIn n 8 fun x =>
    if x.getF (F.RUN_PM_L1_IDLE n) ≠ 0 ∧ (x.runner n).l1Tx = false then x.l1Enter n else x

/-- L1_ENTER_RX (R140). -/
def execL1EnterRx (n : Nat) (block : List Byte) (s : State) : Host.Outcome State Fault Refusal :=
  .next <| s.nawenIn n 8 fun x =>
    if blockOk 0x66 block then
      (x.setRunner n { x.runner n with l1Rx := true }).setF (F.RUN_STATUS_PSTATE n) 1
    else x

/-- L1_EXIT (R140): data to send turns the drivers on. -/
def execL1Exit (n : Nat) (s : State) : Host.Outcome State Fault Refusal :=
  .next <| s.nawenIn n 8 fun x => x.txWake n

/-- L1_EXIT_RX (R140). -/
def execL1ExitRx (n : Nat) (block : List Byte) (s : State) : Host.Outcome State Fault Refusal :=
  .next <| s.nawenIn n 8 fun x =>
    if blockOk 0x78 block then
      (x.setRunner n { x.runner n with l1Rx := false }).setF (F.RUN_STATUS_PSTATE n) (b2n (x.runner n).l1Tx)
    else x

/-- L2_ENTER_RX (R140): the receiving end goes into L2 as well. -/
def execL2EnterRx (n : Nat) (s : State) : Host.Outcome State Fault Refusal :=
  .next <| s.nawenIn n 8 (·.l2Off n)

/-- L2_EXIT_CHECK_DONE (R141). -/
def execL2ExitCheckDone (n : Nat) (clean : Bool) (s : State) : Host.Outcome State Fault Refusal :=
  .next <| s.nawenIn n 3 fun x =>
    let r := x.runner n
    if r.l2Exit = false then x
    else if clean then (x.setF (F.RUN_STATUS_TIER n) r.l2Tier).toActive n
    else (x.runErr n (F.RUN_ERR_L2_EXIT_RETRAIN n)).toDetect n

/-! ## Raw sensor mode (R142 to R144) -/

/-- RAW_CLOCK_ACTIVE (R144). -/
def execRawClockActive (n : Nat) (s : State) : Host.Outcome State Fault Refusal :=
  .next <| if s.rawRunner n && s.runState n == 0 then s.runTo n 2 else s

/-- RAW_CLOCK_LOCK (R144). -/
def execRawClockLock (n mbps : Nat) (s : State) : Host.Outcome State Fault Refusal :=
  .next <| if s.rawRunner n && s.runState n == 2 then s.rawRate n mbps else s

/-- RAW_RATE_BAND (R144): the rate leaves the band and delivery stops, or it returns. -/
def execRawRateBand (n mbps : Nat) (s : State) : Host.Outcome State Fault Refusal :=
  .next <| if s.rawRunner n && (s.runState n == 2 || s.runState n == 8) then s.rawRate n mbps else s

end Sys2Proof.Machine
end

