-- ==== Sys2Proof/Machine/Time.lean ====
section
/-!
DEFINITION. The commands of the time base (spec/03_timebase.md): manual settings, the servo, PTP, PPS_IN and GENLOCK.
-/

namespace Sys2Proof.Machine

/-- TIME_RATE_WRITE (R83, R12): the high word commits the rate by a fold, clamped to ±2^RATE_MAX; with a servo source
selected the write is ignored and WR_IGNORED set. -/
def execTimeRateWrite (high : Word) (s : State) : Host.Outcome State Fault Refusal :=
  let low := (s.held.at (s.rd R.TIME_RATE) R.TIME_RATE).toNat
  let s1 := { s with held := s.held.erase R.TIME_RATE }
  .next <| s.bus 1 fun s =>
    if s.getF F.TIME_CTL_SOURCE = 0 then
      s1.foldRate (clampInt (-s.rateBound) s.rateBound (signedOf 64 (low + high.toNat * 2 ^ 32)))
    else s1.flag F.TIME_ERR_WR_IGNORED

/-- TIME_OFFSET_WRITE (R83): the write of TIME_OFFSET_NS commits the held seconds and fraction with it by a fold. -/
def execTimeOffsetWrite (ns : Word) (s : State) : Host.Outcome State Fault Refusal :=
  let lo := (s.held.at (s.rd R.TIME_OFFSET_SEC) R.TIME_OFFSET_SEC)
  let hi := (s.held.at (s.rd (R.TIME_OFFSET_SEC + 4)) (R.TIME_OFFSET_SEC + 4))
  let s1 := { s with held := (s.held.erase R.TIME_OFFSET_SEC).erase (R.TIME_OFFSET_SEC + 4) }
  let n := ns.toNat % 2 ^ 30
  .next <| s.bus 1 fun s =>
    if s.getF F.TIME_CTL_SOURCE ≠ 0 ∨ 999999999 < n then s1.flag F.TIME_ERR_WR_IGNORED
    else
      (((s1.wr R.TIME_OFFSET_SEC lo).wr (R.TIME_OFFSET_SEC + 4) hi).setF F.TIME_OFFSET_NS_NS n).setF
        F.TIME_EPOCH_EPOCH s.ticks

/-- TIME_SNAP_READ (R84): N and the corrected time of one tick are captured; the low word of N is read. -/
def execTimeSnapRead (s : State) : Host.Outcome State Fault Refusal :=
  let c := s.corr
  let s1 := (((s.setF F.TIME_SNAP_TICKS_TICKS s.ticks).setF F.TIME_SNAP_SEC_SEC (patternOf 48 (c / unitsPerSec))).setF
    F.TIME_SNAP_SEC_FRAC (c % 65536).toNat).setF F.TIME_SNAP_NS_NS (c % unitsPerSec / 65536).toNat
  .next (if s.reaches 1 then { s1 with lastRead := [s.ticks % 2 ^ 32] } else { s.inReset with lastRead := [0] })

/-- TIME_STEP_CMD (R85): with CONFIRM 0x5EED, TIME_STEP is added to the offset by a fold; a running servo returns to
ACQUIRE. A step of 0 does nothing (R43). -/
def execTimeStepCmd (confirm : Nat) (s : State) : Host.Outcome State Fault Refusal :=
  let step := s.getS F.TIME_STEP_STEP
  .next <| s.bus 1 fun s =>
    if confirm ≠ 0x5EED ∨ step = 0 then s
    else
      let s1 := (s.fold step).noteStep
      if s.getF F.TIME_STATUS_STATE = 0 then s1 else s1.acquire

/-- SERVO_RESET (R87): a running servo makes a fresh entry to ACQUIRE; in FREE the command is ignored. -/
def execServoReset (s : State) : Host.Outcome State Fault Refusal :=
  .next (s.bus 1 fun s => if s.getF F.TIME_STATUS_STATE = 0 then s else s.acquire)

/-- TIME_CTL_WRITE (R87): a RATE_MAX outside 24 to 36 is ignored and sets WR_IGNORED; SOURCE 0 sends the servo to
FREE. -/
def execTimeCtlWrite (val : Word) (s : State) : Host.Outcome State Fault Refusal :=
  let v := val.toNat
  let rm := bitsOf v 8 6
  let s1 := (s.setF F.TIME_CTL_SOURCE (bitsOf v 0 2)).setF F.TIME_CTL_MSIX_EN (bitsOf v 16 1)
  let s2 := if 24 ≤ rm ∧ rm ≤ 36 then s1.setF F.TIME_CTL_RATE_MAX rm else s1.flag F.TIME_ERR_WR_IGNORED
  .next (s.bus 1 fun _ => if bitsOf v 0 2 = 0 then s2.servoTo 0 else s2)

/-- SERVO_HOLDOVER_TIMEOUT (R87): from ACQUIRE or LOCKED, with HOLDOVER not 0, the rate becomes the integral by a
fold and the servo goes to HOLDOVER. -/
def execServoHoldoverTimeout (s : State) : Host.Outcome State Fault Refusal :=
  let st := s.getF F.TIME_STATUS_STATE
  .next <|
    if s.getF F.TIME_HOLD_HOLDOVER = 0 ∨ ¬(st = 1 ∨ st = 2) then s
    else ((((s.foldRate s.time.integral).flag F.TIME_ERR_HOLDOVER).bump F.TIME_COUNTS_HOLDOVERS).servoTo 3).timeVector 487

/-- INTERP_LOCKED (R78): the sub-bits become valid while the fast clocks run. -/
def execInterpLocked (s : State) : Host.Outcome State Fault Refusal :=
  .next (s.when s.fastOn (·.flag F.TIME_STATUS_INTERP_LOCK))

/-! ## PTP (R88, R89) -/

/-- A message is acted on when its port is enabled and its domain is the configured one (R89). -/
def State.ptpHears (s : State) (port domain : Nat) : Bool :=
  s.up 1 && decide (port < 2) && (s.getF F.TIME_PTP_CTL_PORT_EN).testBit port && domain == s.getF F.TIME_PTP_CTL_DOMAIN

/-- The order of the default best-master comparison, as a list compared from its head (IEEE 1588). -/
def PtpMaster.rank (m : PtpMaster) : List Nat :=
  [m.priority1, m.clockClass, m.accuracy, m.variance, m.priority2, m.gmId, m.stepsRemoved, m.senderId, m.port]

/-- The first of two lists in dictionary order. -/
def rankLess : List Nat → List Nat → Bool
  | a :: l, b :: r => decide (a < b) || (a == b && rankLess l r)
  | _, _ => false

/-- The best of the masters heard. -/
def bestMaster : List PtpMaster → Option PtpMaster
  | [] => none
  | m :: r => match bestMaster r with
    | some b => if rankLess b.rank m.rank then some b else some m
    | none => some m

/-- The best master is chosen anew; on a change the status is updated, vector 491 raised and a servo that runs on PTP
returns to ACQUIRE (R89). -/
def State.elect (s : State) (ms : List PtpMaster) : State :=
  let best := bestMaster ms
  let s0 := { s with time := { s.time with masters := ms, best := best } }
  let same := match s.time.best, best with
    | some a, some b => a.gmId == b.gmId && a.senderId == b.senderId && a.port == b.port
    | none, none => true
    | _, _ => false
  let s1 := match best with
    | some b => (((s0.flag F.TIME_PTP_STATUS_MASTER).setF F.TIME_PTP_STATUS_PORT b.port).setF
        F.TIME_PTP_STATUS_STEPS_REMOVED b.stepsRemoved).setF F.TIME_PTP_GM_CLOCK_ID b.gmId
    | none => (((s0.unflag F.TIME_PTP_STATUS_MASTER).setF F.TIME_PTP_STATUS_PORT 0).setF
        F.TIME_PTP_STATUS_STEPS_REMOVED 0).setF F.TIME_PTP_GM_CLOCK_ID 0
  if same then s1
  else
    let s2 := { s1.timeVector 491 with time := { s1.time with sync := none, delayReq := none, pathKnown := false } }
    if best.isSome && s2.getF F.TIME_CTL_SOURCE == 1 && s2.getF F.TIME_STATUS_STATE != 0 then s2.acquire else s2

/-- PTP_ANNOUNCE_RX (R89): a message of the domain with logAnnounceInterval -3 to 1 feeds the best-master choice. -/
def execPtpAnnounceRx (m : PtpAnnounce) (s : State) : Host.Outcome State Fault Refusal :=
  .next <|
    if s.ptpHears m.port m.domain && decide (-3 ≤ m.logInterval) && decide (m.logInterval ≤ 1) then
      let x : PtpMaster :=
        { port := m.port, gmId := m.gmId, priority1 := m.priority1, clockClass := m.clockClass,
          accuracy := m.accuracy, variance := m.variance, priority2 := m.priority2, stepsRemoved := m.stepsRemoved,
          senderId := m.sender }
      s.elect (x :: s.time.masters.filter fun y => !(y.senderId == m.sender && y.port == m.port))
    else s

/-- PTP_ANNOUNCE_TIMEOUT (R89): announceReceiptTimeout expires for the selected master, which is forgotten. -/
def execPtpAnnounceTimeout (s : State) : Host.Outcome State Fault Refusal :=
  .next <| match s.time.best with
    | some b => s.elect (s.time.masters.filter fun y => !(y.senderId == b.senderId && y.port == b.port))
    | none => s

/-- θ of a completed Sync against the mean path delay in TIME_PTP_PATH reaches the servo (R88). -/
def State.ptpMeasure (s : State) (t1 t2 : Int) : State :=
  if s.getF F.TIME_CTL_SOURCE = 1 ∧ s.time.pathKnown then
    s.servoMeasure (t2 - t1 - (s.getF F.TIME_PTP_PATH_MEAN_PATH : Int) * 256)
  else s

/-- Whether a timed message comes from the selected master in the domain. -/
def State.fromMaster (s : State) (m : PtpTimed) : Bool :=
  s.ptpHears m.port m.domain && match s.time.best with
    | some b => b.senderId == m.sender && b.port == m.port
    | none => false

/-- PTP_SYNC_RX (R88, R89): a Sync with logSyncInterval -7 to -1 is timestamped at receipt, corrected for the fixed
PHY latency; a one-step Sync completes the measurement. -/
def execPtpSyncRx (m : PtpTimed) (s : State) : Host.Outcome State Fault Refusal :=
  .next <|
    if s.fromMaster m && decide (-7 ≤ m.logInterval) && decide (m.logInterval ≤ -1) then
      let t2 := s.corr - (s.rxLatency m.port : Int) * 2048
      let t1 := m.time + m.correction
      let y : PtpSync := { seq := m.seq, t2 := t2, t1 := if m.twoStep then none else some t1, correction := m.correction }
      let s1 := { s.setF F.TIME_PTP_STATUS_LOG_SYNC (patternOf 8 m.logInterval) with
        time := { s.time with sync := some y } }
      if m.twoStep then s1 else s1.ptpMeasure t1 t2
    else s

/-- PTP_FOLLOW_UP_RX (R88, R89): the Follow_Up of the Sync received completes a two-step measurement. -/
def execPtpFollowUpRx (m : PtpTimed) (s : State) : Host.Outcome State Fault Refusal :=
  .next <|
    match s.time.sync with
    | some y =>
      if s.fromMaster m && y.seq == m.seq && y.t1.isNone then
        let t1 := m.time + m.correction + y.correction
        ({ s with time := { s.time with sync := some { y with t1 := some t1 } } }).ptpMeasure t1 y.t2
      else s
    | none => s

/-- PTP_DELAY_REQ_SEND (R89): with a master selected, a Delay_Req is sent, unicast when HYBRID is 1. -/
def execPtpDelayReqSend (s : State) : Host.Outcome State Fault Refusal :=
  .next <|
    match s.time.best with
    | some b =>
      if s.up 1 then
        let seq := (s.time.delaySeq + 1) % 65536
        let t3 := s.corr + (s.txLatency b.port : Int) * 2048
        { s.emit (.ptpDelayReq b.port seq (s.bit F.TIME_PTP_CTL_HYBRID)) with
          time := { s.time with delaySeq := seq, delayReq := some (seq, t3) } }
      else s
    | none => s

/-- PTP_DELAY_RESP_RX (R88, R89): the answer to the outstanding Delay_Req gives the mean path delay; the first one
completes the Sync that waited for it. -/
def execPtpDelayRespRx (m : PtpTimed) (s : State) : Host.Outcome State Fault Refusal :=
  .next <|
    match s.time.delayReq, s.time.sync with
    | some (seq, t3), some y =>
      match y.t1 with
      | some t1 =>
        if s.fromMaster m && seq == m.seq then
          let path := max 0 (((y.t2 - t1) + (m.time - m.correction - t3)) / 2)
          let first := !s.time.pathKnown
          let s1 := { s.setF F.TIME_PTP_PATH_MEAN_PATH (min (path / 256).toNat (2 ^ 32 - 1)) with
            time := { s.time with delayReq := none, pathKnown := true } }
          if first then s1.ptpMeasure t1 y.t2 else s1
        else s
      | none => s
    | _, _ => s

/-- PTP_MANAGEMENT_RX (R89): a Management message with the SMPTE metadata TLV goes to the control cores; any other is
ignored. -/
def execPtpManagementRx (port domain : Nat) (smpteTlv : Bool) (body : List Byte) (s : State) :
    Host.Outcome State Fault Refusal :=
  .next (s.when (s.ptpHears port domain && smpteTlv) (·.emit (.ptpManagement port body)))

/-- PPS_EDGE (R88): the rising edge fires Twine source 156 and, with SOURCE 3, gives θ against the nearest whole
second, the later one at half-way. -/
def execPpsEdge (s : State) : Host.Outcome State Fault Refusal :=
  let s1 := s.fireSource 156
  let near := (s.corr + unitsPerSec / 2) / unitsPerSec * unitsPerSec
  .next (s1.when (s.up 1 && s.getF F.TIME_CTL_SOURCE == 3) (·.servoMeasure (s.corr - near)))

/-! ## GENLOCK (R93, R94) -/

/-- GENLOCK_EDGE (R93, R94): a frame-start edge is stamped, its type reported and the frame period measured; an input
that had been lost is regained. -/
def execGenlockEdge (n : Nat) (tri interlaced : Bool) (lines : Nat) (s : State) : Host.Outcome State Fault Refusal :=
  .next <|
    if s.up 1 && decide (n < 2) then
      let g := s.gen n
      let now := s.corrTicks
      let p := match g.lastEdge with
        | some e => if g.lost then g.period else (now - e).toNat
        | none => g.period
      let s1 := s.setGen n { lastEdge := some now, period := p, lost := false }
      let s2 := ((((s1.flag (F.TIME_GL_STAT_PRESENT n)).setB (F.TIME_GL_STAT_TRI n) tri).setB
        (F.TIME_GL_STAT_INTERLACED n) interlaced).setF (F.TIME_GL_STAT_LINES n) lines).setF
        (F.TIME_GL_PERIOD_PERIOD n) (min p (2 ^ 32 - 1))
      s2.when g.lost (·.timeVector (489 + n))
    else s

/-- GENLOCK_LOST (R94): no edge for two frame periods; every reference fed by the input freewheels, GL_LOST is set and
the input's vector raised. -/
def execGenlockLost (n : Nat) (s : State) : Host.Outcome State Fault Refusal :=
  .next <|
    if decide (n < 2) && (s.gen n).lastEdge.isSome && !(s.gen n).lost then
      let s1 := ((s.setGen n { s.gen n with lost := true }).unflag (F.TIME_GL_STAT_PRESENT n)).flag F.TIME_ERR_GL_LOST
      let fed := (List.range 16).filter fun k => (s.fref k).source == 3 + n
      let s2 := fed.foldl (fun x k => (x.flag (F.TIME_FREF_STAT_FREEWHEEL k)).unflag (F.TIME_FREF_STAT_LOCKED k)) s1
      s2.timeVector (489 + n)
    else s

end Sys2Proof.Machine
end

