-- ==== Sys2Proof/Machine/Trugs.lean ====
section
/-!
DEFINITION. The commands of the trugs (spec/04_trugs.md).
-/

namespace Sys2Proof.Machine

/-- TRUG_WRITE (R99, R100, R103): a value of the trug's width, or the valid bytes of an END write. -/
def execTrugWrite (n : Nat) (val : BitVec 64) (last : Option Nat) (s : State) : Host.Outcome State Fault Refusal :=
  let w := 2 ^ s.getF (F.TRUG_CFG_WIDTH n)
  .next <|
    if !s.up 14 || decide (512 ≤ n) then s
    else match last with
      | none => s.trugPut n (leBytes w val.toNat) false
      | some v => if v = 0 then s else s.trugPut n (leBytes (min v w) val.toNat) true

/-- Reads of the empty trug `n` return an idle item: TRUG_MODE is SEEDING or TEST, or RECOVERY is set (R106). -/
def State.trugIdles (s : State) (n : Nat) : Bool :=
  s.getF F.TRUG_MODE_MODE == 1 || s.getF F.TRUG_MODE_MODE == 2 || s.bit (F.TRUG_STAT_RECOVERY n)

/-- A read at the read port of trug `n` (R105, R106): a word, an idle item, or a stall. -/
def State.trugRead (s : State) (n : Nat) (errs : List SymErr) (tagErrs : Nat) : State :=
  match s.trugTake n errs tagErrs with
  | (some w, s1) => { s1 with lastRead := [leNat w.data, w.tag.toNat] }
  | (none, _) =>
    if s.trugDepth n ≠ 0 ∧ s.trugIdles n then
      { s with lastRead := [leNat s.trugIdle.data, s.trugIdle.tag.toNat] }
    else s.setTrug n { s.trug n with stalled := true }

/-- TRUG_READ (R105, R106, R111, R112). A read of an unused trug stalls (R113). -/
def execTrugRead (n : Nat) (errs : List SymErr) (tagErrs : Nat) (s : State) : Host.Outcome State Fault Refusal :=
  .next (if !s.up 14 || decide (512 ≤ n) then s else s.trugRead n errs tagErrs)

/-- TRUG_READ_UNSTALL (R105): a stalled read completes once the trug holds a word. -/
def execTrugReadUnstall (n : Nat) (errs : List SymErr) (tagErrs : Nat) (s : State) : Host.Outcome State Fault Refusal :=
  .next (if s.up 14 && (s.trug n).stalled && !(s.trug n).ring.isEmpty then s.trugRead n errs tagErrs else s)

/-- TRUG_FLUSH (R108): a further request while FLUSH reads 1 merges. -/
def execTrugFlush (n : Nat) (s : State) : Host.Outcome State Fault Refusal :=
  .next (s.bus 14 fun s => if !s.up 14 || decide (512 ≤ n) || s.bit (F.TRUG_CTL_FLUSH n) then s else s.trugFlush n)

/-- TRUG_FLUSH_DEFERRED (R108): the consumer has read the END word of its item and the pending flush acts. -/
def execTrugFlushDeferred (n : Nat) (s : State) : Host.Outcome State Fault Refusal :=
  .next (if (s.trug n).flushWait && !(s.trug n).reading then s.trugEmpty n else s)

end Sys2Proof.Machine
end

