-- ==== Sys2Proof/Machine/WriteOps.lean ====
section
/-!
DEFINITION. A write of one register word (R12, R13): each field by its access code, the values that a chapter says are
ignored, and the registers whose write has an effect of its own. Host writes, firmware writes and register presets all
come here.
-/

namespace Sys2Proof.Machine

/-- The state an operation leads to; an operation that stops leaves the state as it was. -/
def State.after (s : State) (o : Host.Outcome State Fault Refusal) : State :=
  match o with
  | .next t => t
  | _ => s

/-- The table row of an offset: a context page whose DIR is 1 has the layout of spec/10_decoder.md. -/
def State.desc (s : State) (off : Nat) : Option RegDesc :=
  let d := off - 0x1010100
  if decide (0x1010100 ≤ off) && decide (d / 0x1000 < 16) && decide (d % 0x1000 < 0x400) && decide (4 ≤ d % 0x80)
      && s.bit (F.SE_CTX_CFG_DIR (d / 0x1000) (d % 0x1000 / 0x80)) then findDesc regsDec off
  else descAt off

/-- The indices of an element of an array, outermost first. -/
def indices : List (Nat × Nat) → Nat → List Nat
  | [], _ => []
  | (_, st) :: t, r => r / st :: indices t (r % st)

/-- Bits of a write that their chapters ignore for the value written, as a mask. -/
def State.ignoredBits (s : State) (base i j v : Nat) : Nat :=
  let all := 2 ^ 32 - 1
  let only (c : Bool) (m : Nat) : Nat := if c then m else 0
  if base = R.ING_PORT_TIMEOUT 0 then only (decide (10000000 < v)) all
  else if base = R.ING_PORT_LATE 0 then only (decide (1000000 < v)) all
  else if base = R.BED_FLK 0 0 then only (decide (16 < bitsOf v 0 5)) 0x1f
  else if base = R.SE_CTX_RC 0 0 then
    let low := if 51 < bitsOf v 0 6 then bitsOf (s.pendingWord (R.SE_CTX_RC i j)) 0 6 else bitsOf v 0 6
    only (decide (51 < bitsOf v 0 6)) 0x3f + only (decide (bitsOf v 8 6 < low) || decide (51 < bitsOf v 8 6)) 0x3f00
  else if base = R.HEAD_CTL 0 then only (decide (bitsOf v 0 8 < 2)) 0xff
  else if base = R.MEM_PANIC then only (bitsOf v 4 4 == 1 || bitsOf v 4 4 == 2) 0xf0
  else if base = R.REC_SQ_BASE 0 ∨ base = R.REC_SQ_BASE 0 + 4 then only (s.sqOn i) all
  else if base = R.REC_CQ_BASE 0 ∨ base = R.REC_CQ_BASE 0 + 4 then only (s.cqOn i) all
  else if base = R.HRW_TIME then only (decide (1000 < bitsOf v 0 10)) 0x3ff
  else if base = R.AUD_TX30_CTL 0 then only (s.getF (F.AUD_EP_CFG_MODE (bitsOf v 4 4)) != 1) all
  else if base = R.THM_ABS then only (decide (bitsOf v 0 16 < 480) || decide (900 < bitsOf v 0 16)) 0xffff
  else if base = R.HEAD_PLANE_STRIDE 0 0 then 0
  else 0

/-- A word after a write by its plain access codes (R13). -/
def Access.merge (a : Access) (cur v : Word) : Word :=
  let m (n : Nat) : Word := BitVec.ofNat 32 n
  ((((cur &&& ~~~(m a.rw)) ||| (v &&& m a.rw)) &&& ~~~(v &&& m a.w1c)) ||| (v &&& m a.w1s))

/-- Bring the summary maps up to date after a write that may have cleared a sticky bit. -/
def State.flagMaps (s : State) (base i : Nat) : State :=
  if base = R.TRUG_STAT 0 then s.trugFlagMap i
  else if base = R.ING_PORT_ERR 0 then s.ingFlagMap i
  else s

/-- The write of a whole word: plain fields at once, shadowed and staged fields when their boundary or commit comes
(R13). Slot pages take writes under R217. -/
def State.wordWrite (s : State) (d : RegDesc) (off : Nat) (v : Word) : State :=
  let ix := indices d.dims (off - d.base)
  let i := ix.getD 0 0
  let j := ix.getD 1 0
  let bad := BitVec.ofNat 32 (s.ignoredBits d.base i j v.toNat)
  let plain := (v &&& ~~~bad) ||| (s.rd off &&& bad &&& BitVec.ofNat 32 d.access.rw)
  let s1 := (s.wr off (d.access.merge (s.rd off) plain)).flagMaps d.base i
  let m := BitVec.ofNat 32 (d.access.rws ||| d.access.rwc) &&& ~~~bad
  if d.access.rws ||| d.access.rwc = 0 then s1
  else
    let low := if d.base = R.HEAD_PLANE_STRIDE 0 0 then 0xffffffc0#32 else 0xffffffff#32
    let w := ((BitVec.ofNat 32 (s1.pendingWord off) &&& ~~~m) ||| (v &&& low &&& m))
    if decide (0x800000 ≤ off) && decide (off < 0xc00000) then
      if s1.slotWritable i j then s1.bedStage i j off w else s1
    else if decide (0xc00000 ≤ off) && decide (off < 0x1000000) then
      if s1.slotWritable (i / 2) j then s1.bedStage (i / 2) j off w else s1
    else s1.stage off w

/-- A DEFECT_CNT write (R189): a COUNT above 65,536 is ignored and sets TABLE_BAD. -/
def State.defectWrite (s : State) (n k : Nat) (v : Word) : State :=
  if !s.slotWritable n k then s
  else if 65536 < bitsOf v.toNat 0 17 then s.bedErr n 9 none
  else s.bedStage n k (R.BED_DEFECT_CNT n k) (v &&& 0x1ffff#32)

/-- The value a 64-bit register takes by the write of its high word (R12). -/
def State.wide (s : State) (off : Nat) (high : Word) : Nat :=
  (s.held.get (fun o => BitVec.ofNat 32 (s.pendingWord o)) (off - 4)).toNat + high.toNat * 2 ^ 32

/-- The registers whose write does something of its own: the state after it, or none for the others. -/
def State.ownWrite (s : State) (base i j k : Nat) (off : Nat) (v : Word) : Option State :=
  let x := v.toNat
  let dropLow (t : State) : State := { t with held := t.held.erase (off - 4) }
  if base = R.GLB_LOG_RD then some (s.after (execGlbLogRdWrite v none s))
  else if base = R.TIME_RATE + 4 then some (s.after (execTimeRateWrite v s))
  else if base = R.TIME_OFFSET_SEC ∨ base = R.TIME_OFFSET_SEC + 4 then some { s with held := s.held.insert off v }
  else if base = R.TIME_OFFSET_NS then some (s.after (execTimeOffsetWrite v s))
  else if base = R.TIME_CTL then some (s.after (execTimeCtlWrite v s))
  else if base = R.TIME_CMD then
    let s1 := s.when (v.getLsbD 0) fun t => t.after (execTimeStepCmd (bitsOf x 16 16) t)
    some (s1.when (v.getLsbD 1) fun t => t.after (execServoReset t))
  else if base = R.RUN_CTL 0 then
    let s1 := s.after (execRunTierCapWrite i (bitsOf x 3 3) s)
    let s2 := s1.after (execRunPstateReq i (bitsOf x 10 2) s1)
    let s3 := s2.setF (F.RUN_CTL_MSIX_EN i) (bitsOf x 13 1)
    some (s3.when (v.getLsbD 12) fun t => t.after (execRunRetrain i t))
  else if base = R.ING_PORT_PRUNE_H 0 then some (s.after (execIngPruneWrite i false v s))
  else if base = R.ING_PORT_PRUNE_V 0 then some (s.after (execIngPruneWrite i true v s))
  else if decide (R.BED_LIN_PTR 0 0 ≤ base) && decide (base < R.BED_LIN_PTR 0 0 + 64) && base % 8 == 4 then
    some (dropLow (s.pointerWrite i j ((base - R.BED_LIN_PTR 0 0) / 8) (s.wide off v)))
  else if base = R.BED_SHADOW 0 0 then some (s.holdWrite i j (v.getLsbD 0))
  else if base = R.BED_DEFECT_CNT 0 0 then some (s.defectWrite i j v)
  else if base = R.BED_CROP_X 0 0 then some (s.cropWrite i j false v)
  else if base = R.BED_CROP_Y 0 0 then some (s.cropWrite i j true v)
  else if base = R.BED_ENC_CTL 0 0 0 then some (s.encWrite i j 0 false v)
  else if base = R.BED_ENC_CTL 0 0 1 then some (s.encWrite i j 1 false v)
  else if base = R.BED_ENC_PARAM 0 0 0 then some (s.encWrite i j k true v)
  else if base = R.BED_SCL_SIZE 0 0 then some (s.scaleWrite i j v)
  else if base = R.SE_CTX_CAP 0 0 ∧ s.getF (F.SE_CTX_CFG_DIR i j) = 0 then some (s.capWrite i j v)
  else if base = R.SE_CTX_KEY 0 0 ∧ s.getF (F.SE_CTX_CFG_DIR i j) = 0 then
    let s1 := s.when (v.getLsbD 0) (·.keyRequest i j false)
    some (s1.when (v.getLsbD 1) (·.keyRequest i j true))
  else if base = R.DEC_CTL 0 0 then
    let s1 := if v.getLsbD 2 then s.after (execDecEos i j s) else s.unflag (F.DEC_CTL_EOS i j)
    let s2 := s1.when (v.getLsbD 0) fun t => t.after (execDecFlush i j t)
    some (s2.when (v.getLsbD 1) fun t => t.after (execDecResync i j t))
  else if base = R.HEAD_CRC_XY 0 0 then some (s.after (execHeadCrcRectWrite i j false v s))
  else if base = R.HEAD_CRC_WH 0 0 then some (s.after (execHeadCrcRectWrite i j true v s))
  else if base = R.HEAD_COMMIT 0 then some (s.when (v.getLsbD 0) fun t => t.after (execHeadCommitReq i t))
  else if base = R.HEAD_GROUP_COMMIT 0 then some (s.when (v.getLsbD 0) fun t => t.after (execHeadGroupCommitReq i t))
  else if base = R.MEM_WM then some (s.after (execMemWmWrite v s))
  else if base = R.REC_CTL then
    let s1 := (s.setF F.REC_CTL_EVENTS_EN (bitsOf x 9 1)).setF F.REC_CTL_CHECKPOINT_MS (bitsOf x 16 16)
    let s2 := s1.after (execRecIfaceWrite (bitsOf x 0 4) (bitsOf x 4 4) s1)
    some (s2.when (v.getLsbD 8) fun t => t.after (execRecResetAll t))
  else if base = R.REC_SQ_CTL 0 then
    let s1 := s.after (execRecSqSizeWrite i (bitsOf x 0 13) (bitsOf x 16 6) (bitsOf x 22 2) s)
    some (s1.when (v.getLsbD 24) fun t => t.after (execRecSqReset i t))
  else if base = R.REC_CQ_CTL 0 then some (s.after (execRecCqSizeWrite i (bitsOf x 0 13) (v.getLsbD 16) s))
  else if base = R.REC_DB_SQ 0 then some (s.after (execRecSqDoorbell i (bitsOf x 0 12) s))
  else if base = R.REC_DB_CQ 0 then some (s.after (execRecCqDoorbell i (bitsOf x 0 12) s))
  else if base = R.REC_ARB then some (s.after (execRecArbWrite v s))
  else if base = R.REC_DRIVE_TEMP_WIN 0 then some (s.after (execRecTempWinWrite i v s))
  else if base = R.HRW_ROUTE 0 then some (s.routeWrite i v)
  else if base = R.HRW_SEND 0 + 4 then
    let w := s.wide off v
    some (dropLow (s.sendWrite i (BitVec.ofNat 32 w) v))
  else if base = R.AUD_EP_SLOT_MASK 0 then some (s.after (execAudSlotMaskWrite i v false s))
  else if base = R.TRUG_CTL 0 then some (s.when (v.getLsbD 0) fun t => t.after (execTrugFlush i t))
  else if base = R.TWN_GROUP then some (s.groupWrite (x % 65536))
  else if base = R.TWN_TIMER_AT 0 + 4 then some (dropLow (s.timerAt i (s.wide off v)))
  else if base = R.TWN_FIRE 0 then some (s.fireWrite i v)
  else if decide (R.SEED_KEY_HASH 0 ≤ base) && decide (base < R.SEED_KEY_HASH 12) then
    some { s with seed := { s.seed with keyHash := s.seed.keyHash.put 0 i v } }
  else none

/-- A write of the register word at an offset (R11 to R14): absent instances, reserved offsets and read-only words ignore
it; the low word of a 64-bit register is held until its high word is written. -/
def State.regWrite (s : State) (off : Nat) (v : Word) : State :=
  if decide (0x3c00000 ≤ off) && decide (off < 0x3c08000) then s.wr off v
  else match s.desc off with
    | none => s
    | some d =>
      if !presentAt s.variant off then s
      else
        let ix := indices d.dims (off - d.base)
        match s.ownWrite d.base (ix.getD 0 0) (ix.getD 1 0) (ix.getD 2 0) off v with
        | some t => t
        | none =>
          let writable := d.access.rw ||| d.access.rws ||| d.access.rwc
          match d.half with
          | .one => s.wordWrite d off v
          | .low => if writable = 0 then s.wordWrite d off v else { s with held := s.held.insert off v }
          | .high =>
            let low := s.held.get (fun o => BitVec.ofNat 32 (s.pendingWord o)) (off - 4)
            let s1 := { s with held := s.held.erase (off - 4) }
            let s2 := match s1.desc (off - 4) with
              | some e => s1.wordWrite e (off - 4) low
              | none => s1
            s2.wordWrite d off v

/-- The block whose range holds an offset (R27). -/
def blockOfOffset (off : Nat) : Nat :=
  [0x100000, 0x200000, 0x400000, 0x800000, 0xc00000, 0x1000000, 0x1400000, 0x1800000, 0x1c00000, 0x2000000, 0x2400000,
    0x2800000, 0x2c00000, 0x3000000, 0x3400000, 0x3800000].countP fun (b : Nat) => decide (b ≤ off)

/-- The word a read of a register returns: 0 where its block cannot be reached (R28), where nothing is fitted (R14), in an
unused bed (R180) and for write-only fields; TIME_COUNT is the counter itself (R77). -/
def State.readReg (s : State) (off : Nat) : Word :=
  if !s.reaches (blockOfOffset off) then 0#32
  else if off = R.TIME_COUNT then s.time.counter.setWidth 32
  else if off = R.TIME_COUNT + 4 then (s.time.counter >>> 32).setWidth 32
  else match s.desc off with
    | none => 0#32
    | some d =>
      let bed := (off - 0x800000) / 0x10000
      let unused := decide (0x800000 ≤ off) && decide (off < 0xc00000) && s.getF (F.BED_CFG_JOIN bed) == 0
      if !presentAt s.variant off || unused then 0#32 else s.rd off &&& ~~~(BitVec.ofNat 32 d.access.wo)

end Sys2Proof.Machine
end

