-- ==== Sys2Proof/Machine/ResetOps.lean ====
section
/-!
DEFINITION. Resets as shared operations: what each keep class and each block's parts do under every reset (R488 to R493
and the reset tables of the chapters), and how a block starts again.
-/

namespace Sys2Proof.Machine

/-! ## Registers (R17, R492) -/

/-- The words that a reset leaves: those outside its scope, and inside it the bits of the classes it keeps, over the reset
value. -/
def State.resetRegs (s : State) (scope : Nat → Bool) (keep : Nat → Keep → Nat) : State :=
  { s with regs := s.regs.filterMap fun (o, w) =>
      if !scope o then some (o, w)
      else match s.desc o with
        | none => none
        | some d =>
          let m := BitVec.ofNat 32 (keep o d.keep)
          let r := resetWord s.variant o
          let v := (w &&& m) ||| (r &&& ~~~m)
          if v = r then none else some (o, v) }

/-- Held low words and waiting writes of a scope are discarded (R12, R74). -/
def State.dropWrites (s : State) (scope : Nat → Bool) : State :=
  { s with held := s.held.filter (fun x => !scope x.1), staged := s.staged.filter fun x => !scope x.1 }

/-- Class A alone is kept. -/
def keepA (_ : Nat) (k : Keep) : Nat := k.a

/-- Fallow keeps class A, and the class G registers of Twine (R480, R482). -/
def keepFallow (off : Nat) (k : Keep) : Nat := if blockOfOffset off = 12 then k.a ||| k.g else k.a

/-- Registers of the device, the MSI-X table left out. -/
def isRegister (off : Nat) : Bool := decide (off < 0x3c00000)

/-! ## Balls -/

/-- The hedgerow bypass closes or opens (R402). -/
def State.setBypass (s : State) (closed : Bool) : State :=
  if s.power.bypassClosed = closed then s
  else { s.emit (.bypass closed) with power := { s.power with bypassClosed := closed } }

/-- THERM_ALERT_N goes low or high (R496). -/
def State.setAlert (s : State) (low : Bool) : State :=
  if s.power.thermAlert = low then s
  else { s.emit (.thermAlert low) with power := { s.power with thermAlert := low } }

/-- THERM_TRIP_N goes low or high (R499, R500). -/
def State.setTrip (s : State) (low : Bool) : State :=
  if s.power.thermTrip = low then s
  else { s.emit (.thermTrip low) with power := { s.power with thermTrip := low } }

/-- RPr_PERST_N of both root ports go low or high (R515). -/
def State.setDriveReset (s : State) (low : Bool) : State :=
  if s.power.driveReset = low then s
  else { (s.emit (.drivePerst 0 low)).emit (.drivePerst 1 low) with power := { s.power with driveReset := low } }

/-- PCIE_WAKE_N goes low or high (R515). -/
def State.setPcieWake (s : State) (low : Bool) : State :=
  if s.power.pcieWakeLow = low then s
  else { s.emit (.pcieWake low) with power := { s.power with pcieWakeLow := low } }

/-- EVT outputs go low (R480). -/
def State.evtLow (s : State) : State :=
  let s1 := (s.twine.evtOut.filter (·.2)).foldl (fun x b => x.emit (.evtOut b.1 false)) s
  { s1 with twine := { s1.twine with evtOut := [] } }

/-! ## Parts of the blocks -/

/-- Complete the outstanding NVMe commands, round after round, until none is left (R390 steps 3 to 5). -/
def State.recSettle (s : State) : Nat → State
  | 0 => s
  | n + 1 =>
    if s.recorder.nvme.isEmpty then s
    else State.recSettle (s.recorder.nvme.foldl (fun x c => x.nvmeDone c.id true) s) n

/-- The reset of every queue, carried to its end (R390). The rounds suffice for every job: none has more phases. -/
def State.recStop (s : State) : State := s.queueResetAll.recSettle 1000

/-- The engine's state without its drives. -/
def Recorder.fresh (r : Recorder) (links : Bool) : Recorder :=
  { r with
    sqTail := [], cqHead := [], served := [63, 63, 63, 63], roundClass := 3, turns := 0, fetched := [], done := []
    jobs := [], nvme := [], streams := [], resets := [], resetAll := false
    split := if links then r.split else [], off := if links then r.off else [] }

/-- Status words that tell of the drives and their links, kept while the links are kept (R399). -/
def State.linkWords (s : State) : List (Nat × Word) :=
  let offs := (List.range 4).map R.REC_DRIVE_STATUS ++ (List.range 2).map R.REC_PORT_STATUS
  offs.map fun o => (o, s.rd o)

/-- Write words back. -/
def State.putWords (s : State) (l : List (Nat × Word)) : State := l.foldl (fun x w => x.wr w.1 w.2) s

/-- What a reset leaves of a pseudo-channel: its remap table, and a retirement not yet complete (R364). -/
def PseudoChannel.fresh (p : PseudoChannel) : PseudoChannel :=
  { remapped := p.remapped, retireDue := p.retireDue, cause := p.cause }

/-- The queues of the controller at a soft reset (R364): writes completed, reads answered as poisoned. -/
def State.memFinish (s : State) : State :=
  let s1 := s.hbm.pcs.foldl (fun (x : State) e =>
    let y := e.2.writes.foldl (fun (z : State) r => z.plotWrite r.addr r.data) x
    e.2.reads.foldl (fun (z : State) r => z.emit (.memData r.block r.inst r.addr (List.replicate r.len 0#8) true)) y) s
  { s1 with hbm := { s1.hbm with
      pcs := (s1.hbm.pcs.map fun e => (e.1, e.2.fresh)).filter fun e => e.2 != {}, level := [], panic := [], discard := [] } }

/-- The controller at any other reset: the queues are empty (R364). -/
def State.memClear (s : State) : State :=
  { s with hbm := { s.hbm with
      pcs := (s.hbm.pcs.map fun e => (e.1, e.2.fresh)).filter fun e => e.2 != {}
      level := [], panic := [], discard := [], age := 0 } }

/-- The engines in state RETIRED (R255). -/
def State.retiredEngines (s : State) : List Nat := s.engineList.filter fun e => s.peState e == 6

/-- Servo, masters, references and inputs at their start; counter and its phase run on (R95). -/
def TimeBase.fresh (t : TimeBase) : TimeBase :=
  { counter := t.counter, phase := t.phase, integral := 0, locks := 0, discards := 0, acq := 0, firstTheta := 0
    firstAt := 0, masters := [], best := none, sync := none, delayReq := none, delaySeq := 0
    pathKnown := false, frefs := [], gens := [] }

/-- The hedgerow's buffers and transfers are lost; what belongs to the address is kept (R431). -/
def Hedgerow.fresh (h : Hedgerow) : Hedgerow := { epoch := h.epoch, started := h.started, headUp := h.headUp }

/-- Twine without events, tasks and knots in progress; the levels at the balls stay (R480). -/
def Twine.fresh (t : Twine) : Twine :=
  { due := [], tasks := [], knots := [], evtOut := t.evtOut, evtIn := t.evtIn, lastEvent := [], lastDis := []
    lastOff := [], lastEn := [], pulses := [] }

/-- The parts of block `b` beside its registers are lost, as its chapter says (R95, R114, R145, R174, R224, R255, R289,
R309, R337, R364, R399, R431, R448, R480). -/
def State.clearPart (s : State) (b : Nat) : State :=
  match b with
  | 1 => { s with time := s.time.fresh }
  | 2 => { s with runners := [] }
  | 3 => { s with ingest := { matchers := [], ports := [], bands := [], mergers := [] } }
  | 4 => { s with beds := [] }
  | 5 => { s with engines := [] }
  | 6 => { s with streams := [] }
  | 7 => { s with heads := [] }
  | 8 => s.memClear
  | 9 => { s with recorder := s.recorder.fresh false }
  | 10 => { s with hedge := s.hedge.fresh }
  | 11 => { s with audio := {} }
  | 12 => let s1 := s.evtLow; { s1 with twine := s1.twine.fresh }
  | 14 => { s with trugs := [] }
  | _ => s

/-- The parts of several blocks are lost. -/
def State.clearParts (s : State) (l : List Nat) : State := l.foldl State.clearPart s

/-- Retired engines read RETIRED again after their status words were reset (R255). -/
def State.markRetired (s : State) (l : List Nat) : State := (l.foldl (fun x e => x.setF (F.PE_STATUS_STATE e) 6) s).pePool

/-! ## Starting again -/

/-- Twine starts: the ball levels are reported, and every knot takes its inputs (R458). -/
def State.twineStart (s : State) : State :=
  ((List.range 32).foldl (fun x b => x.setB ⟨R.TWN_EVT_IN, b, 1⟩ (x.ballLevel b)) s).evalKnots fun _ => true

/-- The Runners of Nawen roles train from T0; a raw Runner waits for its clock (R125, R144, R145). -/
def State.runnersStart (s : State) : State :=
  (List.range s.variant.runners).foldl (fun x n => if x.nawen n then x.toDetect n else x) s

/-- The matchers of the ACTIVE sensor Runners search (R174). -/
def State.ingestStart (s : State) : State :=
  (List.range s.variant.runners).foldl
    (fun x n => if x.rawRunner n && x.runState n == 8 then x.ingRunnerUp n else x) s

/-- The hedgerow block notes its ports anew. -/
def State.hedgeStart (s : State) : State := (List.range 2).foldl (fun x p => (x.hedgeSync p).hedgeSync p) s

/-- Block `b` starts after its reset: class G registers from the running image, and what its chapter starts (R489, R492). -/
def State.startBlock (s : State) (b : Nat) : State :=
  let s1 := if s.seed.running then s.loadBlock b else s
  match b with
  | 2 => s1.runnersStart
  | 3 => s1.ingestStart
  | 5 => s1.placeKernels fun _ => true
  | 8 => (List.range s.variant.hbmStacks).foldl (fun x k => x.flag (F.MEM_STK_STATUS_TRAINED k)) s1.reportReserve
  | 10 => s1.hedgeStart
  | 12 => s1.twineStart
  | 14 => s1.setF F.TRUG_MODE_MODE 0
  | _ => s1

/-! ## Resets of the device (R74, R488) -/

/-- The blocks outside the Rootstock domain: all but GLB, Mailboxes, PWR and SEED; Twine apart. -/
def fastBlocks : List Nat := [1, 2, 3, 4, 5, 6, 7, 8, 9, 10, 11, 14]

/-- Power, thermal policy and watchdog as a reset leaves them: the balls apart. -/
def Power.fresh (p : Power) : Power :=
  { p with
    entering := 0, wakeWaits := 0, softReset := 0#21, wdtOn := false, hotRun := [], reliefRun := 0
    grace := false, stepTimer := false, relieved := false, steps := [], coolRun := 0, usedSteps := [], forced := [] }

/-- The loader as a pin reset leaves it: no image, and seeding due from step 1 (R71, R488). -/
def Seed.fresh (d : Seed) : Seed :=
  { d with image := [], running := false, due := 1, job := none, pllFails := 0, fwFails := 0, keyHash := [] }

/-- Plots are lost: no byte of them is kept (R74, R364). -/
def State.plotsLost (s : State) : State := { s with hbm := { s.hbm with bytes := [], poison := [] }, ringUsed := false }

/-- What every reset of the device but a power-on reset does: class A is kept, every other register returns to its reset
value, the blocks lose their parts, and retirements stay (R74, R492, R493). -/
def State.resetDevice (s : State) : State :=
  let retired := s.retiredEngines
  let s1 := (s.resetRegs isRegister keepA).dropWrites fun _ => true
  let s2 := (s1.clearParts (fastBlocks ++ [12])).plotsLost
  ((({ s2 with power := s2.power.fresh }).markRetired retired).setBypass true).setAlert false

/-- The cause of the last reset (R491). -/
inductive ResetCause where
  | por | pin | trip | wdt
  deriving DecidableEq, Repr

/-- PWR_RESET_CAUSE has exactly one bit set (R491). -/
def ResetCause.word : ResetCause → Word
  | .por => 1#32 | .pin => 2#32 | .trip => 4#32 | .wdt => 8#32

/-- A pin reset, or a watchdog reset or trip restart, which act as one (R488, R490, R500): the mailboxes are emptied too
(R474, R480), the PCIe link and its MSI-X table are reset, and seeding is due. -/
def State.pinReset (s : State) (c : ResetCause) : State :=
  let s1 := s.resetDevice
  let s2 := ((({ s1 with regs := s1.regs.filter fun e => isRegister e.1 }).wr R.PWR_RESET_CAUSE c.word).setDriveReset
    true).setPcieWake false
  { s2 with
    mail := [], mailWait := [], seed := s2.seed.fresh
    power := { s2.power with pcieUp := false, msixOn := false, held66 := false, held67 := false } }

/-- A power-on reset (R488): every register at its reset value, nothing retired, and the Rootstock domain itself. The
flash, the fuses, the media and the balls' inputs are outside it. -/
def State.powerOn (s : State) : State :=
  let s1 := (s.pinReset .por).setTrip false
  { s1 with
    regs := [], ringUsed := false
    time := { s1.time with counter := 0#64, phase := 0#8 }
    hbm := { s1.hbm with pcs := [], moved := [], unbacked := [], dropped := [] }
    hedge := {}
    seed := { s1.seed with locked := none, burn := none, cal := [] }
    power := { s1.power with tripDue := none, restartLevel := 0, samples := [] } }

/-- A graft reset (R74): the queues are reset first, the mailboxes and the PCIe link are kept, and the steps of R68 are
due on the image given. -/
def State.graftReset (s : State) (img : List Byte) (source slot : Nat) : State :=
  let s0 := if s.seed.running && s.fastOn then s.recStop else s
  let links := s0.linkWords
  let rec0 := s0.recorder
  let s1 := (s0.resetDevice).putWords links
  let s2 := { s1 with
    recorder := { s1.recorder with split := rec0.split, off := rec0.off }
    seed := { s1.seed with image := img, running := false, due := 2, job := none, pllFails := 0, fwFails := 0, keyHash := [] } }
  (s2.setF F.SEED_STATUS_SOURCE source).setF F.SEED_STATUS_SLOT slot

end Sys2Proof.Machine
end

