-- ==== Sys2Proof/Machine/PowerOps.lean ====
section
/-!
DEFINITION. Power states and wake as shared operations (spec/17_power_thermal_reset.md, R482 to R489).
-/

namespace Sys2Proof.Machine

/-- PWR_STATUS.STATE. -/
def State.pwr (s : State) : Nat := s.getF F.PWR_STATUS_STATE
def State.setPwr (s : State) (x : Nat) : State := s.setF F.PWR_STATUS_STATE x

/-- The device has power and no reset holds it. -/
def State.alive (s : State) : Bool := s.power.powerGood && !s.power.resetLow && s.power.railFault == 0

/-- The registers of the PWR, THM and SEED ranges can be reached: not in Fallow, not while it wakes from it, and not after a
trip (R484, R499). -/
def State.rootReach (s : State) : Bool := s.alive && decide (s.pwr < 3)

/-- The thermal policy starts afresh; steps in force stay (R495). -/
def State.policyFresh (s : State) : State :=
  let s1 := [F.THM_STATUS_WARN, F.THM_STATUS_COND, F.THM_STATUS_REQ, F.THM_STATUS_RELIEF, F.THM_STATUS_GRACE_LEFT].foldl
    State.unflag s
  ({ s1 with power := { s1.power with
      hotRun := [], reliefRun := 0, grace := false, stepTimer := false, relieved := false } }).setAlert
    (!s.power.steps.isEmpty)

/-- The watchdog pauses: it holds the counts it has gone through (R490). -/
def State.wdtPause (s : State) : State :=
  { s with power := { s.power with wdtFrom := s.time.counter - s.power.wdtFrom } }

/-- The watchdog runs on from where it paused. -/
def State.wdtResume (s : State) : State :=
  { s with power := { s.power with wdtFrom := s.time.counter - s.power.wdtFrom } }

/-! ## Dormant and Fallow entry (R483) -/

/-- Nothing accepted is still under way: no NVMe command or queue reset, no HBM request, no encoder picture (R483 steps 2
to 4). -/
def State.drained (s : State) : Bool :=
  s.recorder.nvme.isEmpty && s.recorder.resets.isEmpty
    && (s.hbm.pcs.all fun e => e.2.reads.isEmpty && e.2.writes.isEmpty)
    && (s.streams.all fun e => e.2.enc.pic.isNone)

/-- A Runner goes to L2 (R140, R144): a Nawen link that is ACTIVE keeps its tier, any other Runner turns off. -/
def State.runnerSleep (s : State) (n : Nat) : State :=
  if s.nawen n then
    if s.runState n = 8 then (s.sendBlock n 0x87 []).l2Off n
    else if (s.runner n).l2 then s
    else (s.runTo n 0).setRunner n (s.runner n).fresh
  else if s.rawRunner n && decide (s.runState n ≠ 0) then s.rawStop n 0 []
  else s

/-- The device stops its fast domains (R483 steps 4 and 5): decoders finish, Runners go to L2, the bypass closes, and heads,
references, audio and the interpolator stop. -/
def State.sleep (s : State) : State :=
  let s1 := s.streams.foldl (fun (x : State) e =>
    if e.2.dec.cur.isSome then x.decComplete (e.1 / 8) (e.1 % 8) else x) s
  let s2 := ((List.range s1.variant.runners).foldl State.runnerSleep s1).hedgeStart
  let s3 := (s2.setBypass true).unflag F.TIME_STATUS_INTERP_LOCK
  { s3.wdtPause with
    heads := s3.heads.map fun e => (e.1, { e.2 with running := false, active := none, slip := none })
    audio := {}
    hedge := { s3.hedge.fresh with ring := s3.hedge.ring, timeSeq := s3.hedge.timeSeq, seqs := s3.hedge.seqs }
    ingest := { s3.ingest with matchers := [] }
    time := { s3.time with frefs := s3.time.frefs.map fun e => (e.1, { e.2 with last := none, mark := 0 }) } }

/-- Power is gated outside the Rootstock domain (R483 step 6): class A and Twine's configuration, knots and groups stay,
with the retention RAM. -/
def State.gate (s : State) : State :=
  let retired := s.retiredEngines
  let s1 := (s.resetRegs isRegister keepFallow).dropWrites fun _ => true
  let s2 := ((s1.clearParts fastBlocks).plotsLost).markRetired retired
  let s3 := { s2 with power := { s2.power.fresh with wdtOn := false, pcieUp := false } }
  (s3.setAlert false).setDriveReset true

/-! ## Wake (R485 to R487) -/

/-- A Runner comes back from Dormant (R141, R145): out of L2 unless PSTATE_REQ holds it there, else from T0; a raw Runner
looks for its clock again. -/
def State.runnerWake (s : State) (n : Nat) : State :=
  if s.nawen n then
    if (s.runner n).l2 then (if s.getF (F.RUN_CTL_PSTATE_REQ n) = 2 then s else s.l2Leave n) else s.toDetect n
  else s

/-- The device leaves Dormant (R486). A servo that was LOCKED goes on in HOLDOVER (R95), and every encode context begins
with an IDR picture (R289). -/
def State.dormantWake (s : State) : State :=
  let s0 := (s.setPwr 0).wdtResume
  let s1 := (s0.setBypass false).policyFresh
  let s2 := (List.range s1.variant.runners).foldl State.runnerWake s1
  let s3 := if s2.getF F.TIME_STATUS_STATE = 2 then s2.servoTo 3 else s2
  s3.streams.foldl (fun (x : State) e =>
    if x.ctxIs (e.1 / 8) (e.1 % 8) 0 then x.idrNext (e.1 / 8) (e.1 % 8) else x) s3

/-- The device starts to leave Fallow (R487): seeding steps 2 to 8 are due. PCIE_WAKE_N goes low unless the host's link woke
it (R515). -/
def State.fallowWake (s : State) (src : Nat) : State :=
  let s1 := s.setPwr 4
  ({ s1 with seed := { s1.seed with due := 3, pllFails := 0, fwFails := 0 } }).setPcieWake (src != 4)

/-- Whether PWR_WAKE_EN enables a wake source: 1 Twine, 2 and 3 the detectors, 4 the PCIe link; a host write always acts. -/
def State.wakeEnabled (s : State) (src : Nat) : Bool := src == 5 || (s.getF ⟨R.PWR_WAKE_EN, 0, 4⟩).testBit (src - 1)

/-- Port `p` sends the wake pattern in place of a link (R426): its Runners leave ACTIVE. -/
def State.sendWave (s : State) (p : Nat) : State :=
  let s1 := ((s.setHedgePort p { s.hedgePort p with waving := true }).emit (.wakePattern p true)).hedgeOff p
  s1.when (s1.up 10) fun x => (x.hedgeSync p).hedgeSync p

/-- What a device woken by the pattern on port `p` does (R427, R432): WOKEN, and the pattern on its other port. -/
def State.woken (s : State) (p : Nat) : State :=
  let s1 := (s.flag F.HRW_ERR_WOKEN).hedgeVector 499
  s1.when (s1.bit F.HRW_CTL_WAKE_FWD) (·.sendWave (1 - p))

/-- The device wakes by a source that serves its state (R485). -/
def State.wakeNow (s : State) (src : Nat) : State :=
  let mark (t : State) : State := if src = 2 ∨ src = 3 then t.woken (src - 2) else t
  if s.pwr = 2 ∧ src ≠ 4 then mark (s.setF F.PWR_STATUS_LAST_WAKE src).dormantWake
  else if s.pwr = 3 ∧ src ≠ 5 then mark ((s.setF F.PWR_STATUS_LAST_WAKE src).fallowWake src)
  else s

/-- A wake source acts (R485, R501): one that comes during entry waits for its end, the first one only. -/
def State.wake (s : State) (src : Nat) : State :=
  if !s.wakeEnabled src then s
  else if s.pwr = 1 then
    if s.power.wakeWaits = 0 then { s with power := { s.power with wakeWaits := src } } else s
  else s.wakeNow src

/-- Entry begins, or is refused (R483, R501). -/
def State.entryRequest (s : State) (confirm target : Nat) : State :=
  if !s.alive || confirm != 0x5EED || s.pwr == 3 || s.pwr == 4 then s
  else if s.pwr ≠ 0 ∨ s.getF F.SEED_STATUS_STATE ≠ 8 ∨ s.bit F.SEED_CAL_STATUS_BUSY = true then s.flag F.PWR_STATUS_REFUSED
  else
    let s1 := (s.setPwr 1).queueResetAll
    let s2 := (List.range s1.variant.runners).foldl (fun x p => x.endFrame p [] true) s1
    let s3 := s2.peAbandonAll
    { s3 with power := { s3.power with entering := target, wakeWaits := 0 } }

/-- Entry completes once the blocks and queues have drained (R483, R501); a wake source that has come meanwhile then acts. -/
def State.entryComplete (s : State) : State :=
  if s.pwr ≠ 1 ∨ s.drained = false then s
  else
    let target := s.power.entering
    let src := s.power.wakeWaits
    let s1 := s.sleep
    let s2 := if target = 3 then s1.gate.setPwr 3 else s1.setPwr 2
    let s3 := { s2 with power := { s2.power with entering := 0, wakeWaits := 0 } }
    if src = 0 then s3 else s3.wakeNow src

/-! ## Domain soft resets (R489) -/

/-- Blocks that a soft reset can name. -/
def softResettable (k : Nat) : Bool := (decide (1 ≤ k) && decide (k ≤ 12)) || k == 14

/-- What a block does before its registers are reset: queue resets of block 9, the writes of block 8, the frames of
Runners that stop (R153, R364, R399). -/
def State.softBefore (s : State) (k : Nat) : State :=
  match k with
  | 2 => (List.range s.variant.runners).foldl
      (fun x n => if x.rawRunner n && x.runState n == 8 then x.rawStop n 0 [] else x) s
  | 4 => s.peAbandonAll
  | 8 => s.memFinish
  | 9 => s.recStop
  | _ => s

/-- Block `k` enters soft reset: its registers, waiting writes and parts (R489, R492). The interpolator stays locked
through a reset of block 1, the drives and their links through one of block 9 (R95, R399). -/
def State.softReset (s : State) (k : Nat) : State :=
  let s0 := s.softBefore k
  let retired := s0.retiredEngines
  let links := if k = 9 then s0.linkWords else []
  let lock := s0.bit F.TIME_STATUS_INTERP_LOCK
  let scope (off : Nat) : Bool := isRegister off && blockOfOffset off == k
  let s1 := ((s0.resetRegs scope keepA).dropWrites scope).putWords links
  let s2 := match k with
    | 1 => (s1.clearPart 1).setB F.TIME_STATUS_INTERP_LOCK lock
    | 5 => (s1.clearPart 5).markRetired retired
    | 8 => s1
    | 9 => { s1 with recorder := s1.recorder.fresh true }
    | _ => s1.clearPart k
  let s3 := { s2 with power := { s2.power with softReset := s2.power.softReset ||| BitVec.ofNat 21 (2 ^ k) } }
  let s4 := s3.flag ⟨R.PWR_SOFT_RESET, k, 1⟩
  if k = 2 ∧ s4.up 10 = true then s4.hedgeStart else s4

/-- Block `k` leaves soft reset (R489). -/
def State.softDone (s : State) (k : Nat) : State :=
  let s1 := { s with power := { s.power with softReset := s.power.softReset &&& ~~~(BitVec.ofNat 21 (2 ^ k)) } }
  let s2 := (s1.unflag ⟨R.PWR_SOFT_RESET, k, 1⟩).startBlock k
  if k = 2 ∧ s2.up 10 = true then s2.hedgeStart else s2

end Sys2Proof.Machine
end

