-- ==== Sys2Proof/Machine/SeedOps.lean ====
section
/-!
DEFINITION. Seeding as shared operations: the calibration store, the boot slots, the steps, BARE and READY
(spec/02_graft_image.md, R49 to R76, and R500 to R504).
-/

namespace Sys2Proof.Machine

/-! ## The calibration store (R502 to R504) -/

/-- Length of a part by its type. -/
def calLength (t : Nat) : Nat := [0, 8, 112, 1280, 1024, 262144, 80].getD t 0

/-- A part entry of the header passes: unused and zero, or of a known type, with its length, its place and its CRC. -/
def calEntryOk (l : List Byte) (k : Nat) : Bool :=
  let o := 16 + 16 * k
  let t := byteAt l o
  let p := fieldAt l (o + 4) 4
  let n := fieldAt l (o + 8) 4
  fieldAt l (o + 1) 3 == 0 &&
    (if n = 0 then decide (t ≤ 6)
     else decide (1 ≤ t) && decide (t ≤ 6) && n == calLength t && decide (4096 ≤ p) && decide (p + n ≤ l.length)
       && crc32 ((l.drop p).take n) == fieldAt l (o + 12) 4)

/-- The store passes its check (R502). -/
def calOk (l : List Byte) : Bool :=
  let types := ((List.range 6).filter fun k => fieldAt l (24 + 16 * k) 4 != 0).map fun k => byteAt l (16 + 16 * k)
  decide (4096 ≤ l.length) && decide (l.length ≤ 4194304) && fieldAt l 0 4 == 0x534C4143 && fieldAt l 4 2 == 0x0100
    && decide (fieldAt l 6 2 < 2) && ((l.drop 112).take 3980).all (· == 0#8) && crc32 (l.take 4092) == fieldAt l 4092 4
    && (List.range 6).all (calEntryOk l) && types.eraseDups == types

/-- Step 2 (R72, R504): the boot record, the fuses and the calibration store are read; a store that fails its check leaves
every default. -/
def State.seedRead (s : State) : State :=
  let f := s.flash
  let s1 := (s.setF F.SEED_BOOT_ORDER f.order.toNat).setF F.SEED_BOOT_ENABLE f.enable.toNat
  let s2 := (s1.setF F.SEED_KEYS_SLOT_STATE s.fuses.slotState.toNat).setB F.SEED_KEYS_TARBOR_OFF s.fuses.tarborOff
  let ok := calOk f.cal
  let s3 := (s2.setB F.SEED_CAL_STATUS_INVALID (!ok)).setB F.SEED_CAL_STATUS_FACTORY (ok && fieldAt f.cal 6 2 == 1)
  { s3 with seed := { s3.seed with cal := if ok then f.cal else [] } }

/-! ## Refusals (R65, R524) -/

/-- Report a refusal: its code and place. -/
def State.refuse (s : State) (f : Failing) : State :=
  ((s.setF F.SEED_STATUS_CODE f.code).setF F.SEED_STATUS_SECTION f.sec).setF F.SEED_DETAIL_OFFSET f.off

/-- A refused load request (R71, R75): BUSY, with vector 67. The spec gives BUSY no place in an image. -/
def State.busy (s : State) : State := ((s.refuse ⟨0x12, 0, s.free % 2 ^ 32⟩).freed).raise 67

/-! ## Boot slots (R67) -/

/-- The enabled slots in SEED_BOOT order. -/
def State.bootOrder (s : State) : List Nat :=
  ((List.range 4).map fun i => bitsOf (s.getF F.SEED_BOOT_ORDER) (2 * i) 2).filter fun n =>
    (s.getF F.SEED_BOOT_ENABLE).testBit n

/-- Check the image of a slot. A slot whose mark is not valid cannot be read. -/
def State.checkSlot (s : State) (n : Nat) (bad : Option Nat) : Failing ⊕ List Byte :=
  let x := s.flash.slots.at {} n
  if x.valid then s.checkImage x.image 67108864 bad else .inl ⟨0x13, 0, 0⟩

/-- Try the slots in order: the state with the last refusal, and the slot that passes with its image. -/
def State.bootTry (s : State) (bad : List (Nat × Nat)) : List Nat → State × Option (Nat × List Byte)
  | [] => (s, none)
  | n :: r =>
    match s.checkSlot n ((bad.find? fun b => b.1 == n).map (·.2)) with
    | .inl f => State.bootTry (s.refuse f) bad r
    | .inr img => (s, some (n, img))

/-! ## The trip record (R36, R500) -/

/-- The record of the trip that came before this seeding, if it is still due. -/
def State.tripRecord (s : State) : State :=
  match s.power.tripDue with
  | none => s
  | some (k, t, stamp) =>
    let s1 := s.log { stamp, block := 15, flags := 3, inst := k, broken := 4, kept := 1, reason := 5, rep := 1
                      detail := patternOf 16 t, last := stamp }
    { s1 with power := { s1.power with tripDue := none } }

/-! ## BARE (R67, R73) -/

/-- Outside the blocks that BARE leaves working, class A alone is kept; inside them all but what an image gave. -/
def keepBare (off : Nat) (k : Keep) : Nat :=
  if [0, 13, 15, 16].contains (blockOfOffset off) then 0xffffffff - k.g else k.a

/-- The device enters BARE: no image runs, every Runner is off and the bypass is closed. `step` is the seeding step that
failed after the checks, if one did. -/
def State.enterBare (s : State) (step : Option Nat) : State :=
  let retired := s.retiredEngines
  let s1 := (s.resetRegs isRegister keepBare).dropWrites fun _ => true
  let s2 := ((s1.clearParts (fastBlocks ++ [12])).plotsLost).markRetired retired
  let s3 := { s2 with seed := { s2.seed with image := [], running := false, due := 0, pllFails := 0, fwFails := 0 } }
  let s4 := match step with | some n => s3.refuse ⟨0x14, 0, n⟩ | none => s3
  let s5 := (((s4.setF F.SEED_STATUS_STATE 9).setF F.SEED_STATUS_SOURCE 0).setPwr 0).setBypass true
  s5.tripRecord.raise67

/-! ## Steps 5 to 8 (R72, R73) -/

/-- The binding table of the image, while none is locked (R66, R471). -/
def State.loadBinding (s : State) : State :=
  if s.seed.locked.isSome then s
  else
    let img := s.seed.image
    let s0 := ((List.range 64).foldl (fun x c => x.wr (R.MBX_BIND c) 0#32) s).wr R.MBX_REPORT 0#32
    s0.forRecords (recordOffsets img 0x0A) fun x r =>
      let c := byteAt img r
      let y := (x.setF (F.MBX_BIND_SENDER c) (fieldAt img (r + 2) 2)).setF (F.MBX_BIND_RECEIVER c) (fieldAt img (r + 4) 2)
      y.when ((byteAt img (r + 1)).testBit 0) fun z => (z.setF F.MBX_REPORT_CHANNEL c).flag F.MBX_REPORT_VALID

/-- A pseudo-channel that fails training is retired; its plots hold zero alone, so there is nothing to copy (R73, R360). -/
def State.trainFail (s : State) (q : Nat) : State :=
  let s1 := (s.setF (F.MEM_PC_STATE_STATE (q / 32) (q % 32)) 0).retirePc q
  if s1.pcState q = 1 then s1.retireEnd q 2 else s1

/-- Step 5: the plots of the image are zero-filled, the Gardener's log begins, retirements apply to the new plot map, and
pseudo-channels that fail are retired. -/
def State.seedMemory (s : State) (env : SeedEnv) : State :=
  let s1 := s.plotsLost
  let s2 := ({ s1 with seed := { s1.seed with running := true } }).loadGlb.loadBinding
  let s3 := (List.range s2.variant.hbmStacks).foldl (fun x k => x.flag (F.MEM_STK_STATUS_TRAINED k)) s2.reassign
  let left := (List.range (Variant.pcs s3.variant)).filter fun q => s3.pcState q == 1 || (s3.pc q).retireDue
  let s4 := left.foldl State.trainFail s3
  (env.pcFails.filter fun q => decide (q < Variant.pcs s4.variant) && s4.inService q).foldl
    (fun x q => (x.setPc q { x.pc q with cause := 4 }).trainFail q) s4

/-- A Runner reaches ACTIVE within step 6. The rate of a raw Runner's clock is not the spec's to give. -/
def State.runnerTrained (s : State) (n tier : Nat) : State :=
  if s.nawen n then
    ((s.setF (F.RUN_STATUS_TIER n) (min tier (s.tierCap n))).setF (F.RUN_STATUS_VERSION n) 0x10).toActive n
  else if s.rawRunner n then
    let s1 := ((s.setF (F.RUN_RAW_RATE_MBPS n) (s.free % 65536)).freed).runTo n 8
    ((s1.setF (F.RUN_STATUS_TIER n) (s.maxTier n)).setF (F.RUN_STATUS_LANES n) (2 ^ s.getF (F.RUN_RAW_LANES n))).ingRunnerUp n
  else s

/-- Step 6: the bypass opens and the Runners train from T0; a device without an address holds its hedgerow ports there
(R126, R402). -/
def State.seedRunners (s : State) (env : SeedEnv) : State :=
  let s1 := (s.loadRunners.loadIngest).setBypass false
  let hold := !s1.bit F.HRW_ADDR_VALID
  let s2 := (s1.hedgeRunners 0 ++ s1.hedgeRunners 1).foldl (fun x n => x.setB (F.RUN_CTL_HOLD_T0 n) hold) s1
  (env.runners.foldl (fun x r => x.runnerTrained r.1 r.2) s2.runnersStart).hedgeStart

/-- Every write that waits applies now (R61). -/
def State.applyAll (s : State) : State :=
  if s.staged.isEmpty then s
  else
    let slots := (List.range s.variant.beds).flatMap fun n => (List.range 8).map fun k => (n, k)
    let s1 := (slots.filter fun x => s.staged.any fun w => inSlot x.1 x.2 w.1).foldl (fun (y : State) x =>
      let hold := y.bit (F.BED_SHADOW_HOLD x.1 x.2)
      let y1 := (y.bedSlot x.1 x.2).copying.foldl (fun z i => z.copyDone x.1 x.2 i) (y.unflag (F.BED_SHADOW_HOLD x.1 x.2))
      (y1.applySlot x.1 x.2).setB (F.BED_SHADOW_HOLD x.1 x.2) hold) s
    s1.applyStaged (s1.staged.map (·.1))

/-- The register presets, in record order (R61): a low word still held at the end applies with its high word. -/
def State.presets (s : State) : State :=
  let img := s.seed.image
  let s1 := s.forRecords (recordOffsets img 0x0E) fun x r =>
    (x.regWrite (fieldAt img r 4) (BitVec.ofNat 32 (fieldAt img (r + 4) 4))).applyAll
  let s2 := s1.held.foldl (fun (x : State) h =>
    match x.desc h.1 with
    | some d => if d.half = .low then (x.regWrite (h.1 + 4) (BitVec.ofNat 32 (x.pendingWord (h.1 + 4)))).applyAll else x
    | none => x) s1
  { s2 with held := [] }

/-- The bytes of the Twine configuration of an image. -/
def twineBytes (img : List Byte) : List Byte :=
  match findSection img 0x06 with
  | some k => (img.drop (fieldAt img (36 + 16 * k) 4)).take (fieldAt img (40 + 16 * k) 4)
  | none => []

/-- Step 7: every block is configured, kernels are placed, presets are written, and Twine starts. A wake from Fallow under
the Twine configuration that ran through it keeps groups, knots and EVT outputs (R480). -/
def State.seedConfigure (s : State) (keepTwine : Bool) : State :=
  let blocks := (List.range 17).filter fun b => !(keepTwine && b == 12)
  let s0 := if keepTwine then s
    else (s.resetRegs (fun off => isRegister off && blockOfOffset off == 12) fun _ k => k.a ||| k.d).clearPart 12
  let s1 := (blocks.foldl State.loadBlock s0).placeKernels fun _ => true
  let s2 := s1.presets.setF F.TRUG_MODE_MODE 0
  s2.tripRecord.twineStart

/-- READY (R66, R72): the binding table is locked, the watchdog starts, and vector 67 is raised. -/
def State.seedReady (s : State) (ms : Nat) : State :=
  let table := bindingBytes s.seed.image
  let s1 := { s with
    seed := { s.seed with due := 0, pllFails := 0, fwFails := 0, locked := some (s.seed.locked.getD table) }
    power := { s.power with wdtOn := true, wdtFrom := s.time.counter } }
  let s2 := ((s1.flag F.MBX_LOCKED_LOCKED).setF F.SEED_STATUS_STATE 8).setF F.SEED_TIME_MS (min ms 65535)
  (s2.setDriveReset false).raise 67

/-- Steps 4 to 8 on the image loaded (R72, R73). -/
def State.seedImage (s : State) (env : SeedEnv) (keepTwine : Bool) : State :=
  if 2 ≤ s.seed.pllFails + env.pllFails then s.enterBare (some 4)
  else
    let s0 := s.setPwr 0
    if (List.range (Variant.pcs s0.variant)).all fun q => env.pcFails.contains q || !s0.inService q then s0.enterBare (some 5)
    else
      let s1 := ((s0.seedMemory env).seedRunners env).seedConfigure keepTwine
      let fails := s.seed.fwFails + env.fwFails
      let s2 := s1.when (decide (1 ≤ fails)) (·.flag F.SEED_STATUS_FW_FALLBACK)
      if 2 ≤ fails then s2.enterBare (some 8) else s2.seedReady env.ms

/-- The firmware the header selects passes its signature check, else the other one runs (R49). -/
def State.seedFirmware (s : State) : State :=
  let f := s.flash
  s.setB F.SEED_STATUS_FW_FALLBACK (!Config.firmwareGood (if f.fwSelect then f.fwB else f.fwA))

/-- The seeding that is due, from its first step to READY or BARE (R67, R72, R73, R487). -/
def State.seeding (s : State) (env : SeedEnv) : State :=
  let s1 := s.seedFirmware.seedRead
  if s.seed.due = 2 then s1.seedImage env false
  else
    let s2 := if s.seed.due = 1 ∧ s1.bit F.PWR_RESET_CAUSE_POR = true then
        s1.setF F.TIME_RATE_RATE (s1.calField 1 0 8 0)
      else s1
    let order := s2.bootOrder
    match s2.bootTry env.bad order with
    | (s3, none) => s3.enterBare none
    | (s3, some (n, img)) =>
      let keep := decide (s.seed.due = 3) && twineBytes s.seed.image == twineBytes img
      let s4 := ((s3.setF F.SEED_STATUS_SOURCE 1).setF F.SEED_STATUS_SLOT n).setB F.SEED_STATUS_FALLBACK
        (order.head? != some n)
      ({ s4 with seed := { s4.seed with image := img } }).seedImage env keep

end Sys2Proof.Machine
end

