-- ==== Sys2Proof/Machine/Seeding.lean ====
section
/-!
DEFINITION. The commands of seeding, the loader, the key fuses and the calibration store (spec/02_graft_image.md, and R503
of spec/17_power_thermal_reset.md).
-/

namespace Sys2Proof.Machine

/-! ## Seeding (R72, R73) -/

/-- Seeding can run: it is due, and neither a reset nor a trip holds it. -/
def State.seedDue (s : State) : Bool := s.alive && s.seed.due != 0 && s.pwr != 5

/-- SEEDING (R67, R72, R73, R487). -/
def execSeeding (env : SeedEnv) (s : State) : Host.Outcome State Fault Refusal :=
  .next (if s.seedDue then s.seeding env else s)

/-- PLL_LOCK_TIMEOUT (R73): one retry, then BARE. -/
def execPllLockTimeout (s : State) : Host.Outcome State Fault Refusal :=
  .next <|
    if s.seedDue then
      let s1 := { s with seed := { s.seed with pllFails := s.seed.pllFails + 1 } }
      if 2 ≤ s1.seed.pllFails then s1.seedFirmware.seedRead.enterBare (some 4) else s1
    else s

/-- FW_START_TIMEOUT (R73): step 8 runs again from the other firmware slot, then BARE. -/
def execFwStartTimeout (s : State) : Host.Outcome State Fault Refusal :=
  .next <|
    if s.seedDue then
      let s1 := { s with seed := { s.seed with fwFails := s.seed.fwFails + 1 } }
      if 2 ≤ s1.seed.fwFails then (s1.seedFirmware.seedRead.flag F.SEED_STATUS_FW_FALLBACK).enterBare (some 8)
      else s1.flag F.SEED_STATUS_FW_FALLBACK
    else s

/-! ## Loader commands (R68, R69, R75) -/

/-- A load, a check, a store or an erase is under way, or seeding is. -/
def State.loading (s : State) : Bool := s.seed.job.isSome || s.seed.due != 0

/-- A loader command starts: STATE reads LOADING. -/
def State.startJob (s : State) (j : LoadJob) : State :=
  { s with seed := { s.seed with job := some j } }.setF F.SEED_STATUS_STATE 10

/-- A loader command ends without a graft reset: STATE reads READY or BARE again. -/
def State.endJob (s : State) : State :=
  ({ s with seed := { s.seed with job := none } }).setF F.SEED_STATUS_STATE (if s.seed.running then 8 else 9)

/-- A command on the image of a flash slot. -/
def State.slotLoad (s : State) (slot : Nat) (unreadable : Option Nat) : State :=
  if s.loading then s.busy
  else
    let x := s.flash.slots.at {} slot
    s.startJob { kind := .load, source := 1, slot, image := x.image, readLen := 67108864
                 unreadable := if x.valid then unreadable else some 0 }

/-- A command on the image in host memory (R43, R69): with SEED_HOST_LEN 0 it does nothing but tell so. -/
def State.hostLoad (s : State) (kind : LoadKind) (img : List Byte) (unreadable : Option Nat) : State :=
  let n := s.getF F.SEED_HOST_LEN_LEN
  if n = 0 then s.flag F.SEED_STATUS_CMD_ZERO
  else
    let s1 := s.unflag F.SEED_STATUS_CMD_ZERO
    if s1.loading then s1.busy
    else s1.startJob { kind, source := 2, slot := 0, image := img.take n, readLen := n, unreadable }

/-- A confirmed SEED_CTL command acts where the register can be reached. -/
def State.seedCmd (s : State) (confirm : Nat) (f : State → State) : State :=
  if s.rootReach && confirm == 0x5EED then f s else s

/-- LOAD_SLOT (R68). -/
def execLoadSlot (slot : Nat) (confirm : Nat) (unreadable : Option Nat) (s : State) : Host.Outcome State Fault Refusal :=
  .next (s.seedCmd confirm (·.slotLoad (slot % 4) unreadable))

/-- LOAD_HOST_IMAGE (R69). -/
def execLoadHostImage (confirm : Nat) (img : List Byte) (unreadable : Option Nat) (s : State) :
    Host.Outcome State Fault Refusal :=
  .next (s.seedCmd confirm (·.hostLoad .load img unreadable))

/-- STORE_HOST_IMAGE (R69, R75). -/
def execStoreHostImage (slot : Nat) (confirm : Nat) (img : List Byte) (unreadable : Option Nat) (s : State) :
    Host.Outcome State Fault Refusal :=
  .next (s.seedCmd confirm (·.hostLoad (.store (slot % 4)) img unreadable))

/-- CHECK_HOST_IMAGE (R69): it needs no CONFIRM. -/
def execCheckHostImage (img : List Byte) (unreadable : Option Nat) (s : State) : Host.Outcome State Fault Refusal :=
  .next (if s.rootReach then s.hostLoad .check img unreadable else s)

/-- A slot of the flash takes new contents. -/
def State.putSlot (s : State) (slot : Nat) (x : FlashSlot) : State :=
  { s with flash := { s.flash with slots := s.flash.slots.put {} slot x } }

/-- A slot under a write or an erase, or after one that failed: its mark is invalid (R69, R75). -/
def State.spoilSlot (s : State) (slot : Nat) : State := s.putSlot slot { image := [], valid := false }

/-- ERASE_SLOT (R75): the mark is invalid from the start of the erase. -/
def State.eraseStart (s : State) (slot : Nat) : State :=
  if s.loading then s.busy
  else (s.spoilSlot slot).startJob { kind := .erase slot, source := 0, slot, image := [], readLen := 0, unreadable := none }

/-- ERASE_SLOT (R75). -/
def execEraseSlot (slot : Nat) (confirm : Nat) (s : State) : Host.Outcome State Fault Refusal :=
  .next (s.seedCmd confirm (·.eraseStart (slot % 4)))

/-- SLOT_WRITE_DONE (R69, R75): a store leaves the slot with the image and an erase
leaves it erased, or invalid when the write failed. -/
def execSlotWriteDone (ok : Bool) (s : State) : Host.Outcome State Fault Refusal :=
  .next <| match s.seed.job with
    | some j => match j.kind with
      | .write n => (if ok then s.putSlot n { image := j.image } else s.spoilSlot n).endJob
      | .erase n => (if ok then s.putSlot n {} else s.spoilSlot n).endJob
      | _ => s
    | none => s

/-- What follows when an image of the hedgerow head has been checked (R424): GRAFT_STATUS to the head, and the image held
for its commit. -/
def State.hedgeChecked (s : State) (code : Nat) (img : Option (List Byte)) : State :=
  match s.hedge.checking with
  | none => s
  | some id =>
    let s1 := { s with hedge := { s.hedge with
      checking := none, staged := match img with | some l => some (id, l) | none => s.hedge.staged } }
    s1.sendRouted 0 0x13 false 0 (leBytes 2 id ++ leBytes 1 code)

/-- The first phase ends (R68, R69, R424). -/
def State.checkDone (s : State) (j : LoadJob) : State :=
  match s.checkImage j.image j.readLen j.unreadable, j.kind with
  | .inl f, _ =>
    let s1 := (s.refuse f).endJob.raise 67
    if j.source = 3 then s1.hedgeChecked f.code none else s1
  | .inr img, .load =>
    if j.source = 3 then s.endJob.hedgeChecked 0 (some img)
    else s.graftReset img j.source (if j.source = 1 then j.slot else 0)
  | .inr img, .store n => (s.spoilSlot n).startJob { j with kind := .write n, image := img }
  | .inr _, _ => s.endJob

/-- GRAFT_CHECK_COMPLETE (R68). -/
def execGraftCheckComplete (s : State) : Host.Outcome State Fault Refusal :=
  .next <| match s.seed.job with
    | some j => match j.kind with
      | .load | .check | .store _ => s.checkDone j
      | .write _ | .erase _ => s
    | none => s

/-- SEED_BOOT_WRITE (R67): the flash header follows the register. -/
def execSeedBootWrite (val : Word) (s : State) : Host.Outcome State Fault Refusal :=
  .next <|
    if s.rootReach then
      let x := val.toNat
      let s1 := (s.setF F.SEED_BOOT_ORDER (bitsOf x 0 8)).setF F.SEED_BOOT_ENABLE (bitsOf x 8 4)
      { s1 with flash := { s1.flash with order := BitVec.ofNat 8 x, enable := BitVec.ofNat 4 (x / 256) } }
    else s

/-! ## Key fuses (R64) -/

/-- A key command burns, or is refused: while a burn is under way too. -/
def State.keyCmd (s : State) (confirm cmd slot : Nat) (ok : Bool) : State :=
  if !s.rootReach || confirm != 0x5EED then s
  else if !ok || s.seed.burn.isSome then s.flag F.SEED_KEY_CMD_REFUSED
  else { s with seed := { s.seed with burn := some (cmd, slot) } }.flag F.SEED_KEY_CMD_BUSY

/-- Customer slots 1 to 4. -/
def customerSlot (n : Nat) : Bool := decide (1 ≤ n) && decide (n ≤ 4)

/-- Some customer slot other than `n` is programmed and not revoked. -/
def Fuses.usableBut (f : Fuses) (n : Nat) : Bool := [1, 2, 3, 4].any fun k => k != n && f.slot k == 1

/-- The 48 bytes of SEED_KEY_HASH. -/
def State.keyDigest (s : State) : List Byte :=
  (List.range 12).flatMap fun i => leBytes 4 (s.seed.keyHash.at 0#32 i).toNat

/-- KEY_PROGRAM (R64). -/
def execKeyProgram (slot : Nat) (confirm : Nat) (s : State) : Host.Outcome State Fault Refusal :=
  let s1 := s.keyCmd confirm 1 slot (customerSlot slot && s.fuses.slot slot == 0)
  .next <|
    if s1.seed.burn = s.seed.burn then s1
    else { s1 with fuses := { s1.fuses with hashes := s1.fuses.hashes.put [] slot s.keyDigest } }

/-- KEY_REVOKE (R64). -/
def execKeyRevoke (slot : Nat) (confirm : Nat) (s : State) : Host.Outcome State Fault Refusal :=
  .next (s.keyCmd confirm 2 slot (customerSlot slot && (!s.fuses.tarborOff || s.fuses.usableBut slot)))

/-- TARBOR_OFF (R64). -/
def execTarborOff (confirm : Nat) (s : State) : Host.Outcome State Fault Refusal :=
  .next (s.keyCmd confirm 3 0 (s.fuses.usableBut 0))

/-- The fuses after a burn. -/
def Fuses.burnt (f : Fuses) (cmd slot : Nat) : Fuses :=
  if cmd = 3 then { f with tarborOff := true }
  else { f with slotState := BitVec.ofNat 8 (setBitsOf f.slotState.toNat (2 * (slot - 1)) 2 cmd) }

/-- KEY_BURN_DONE (R64): the fuse state is updated and BUSY clears. -/
def execKeyBurnDone (s : State) : Host.Outcome State Fault Refusal :=
  .next <| match s.seed.burn with
    | none => s
    | some (cmd, slot) =>
      let s1 := { s with fuses := s.fuses.burnt cmd slot, seed := { s.seed with burn := none } }
      let s2 := (s1.setF F.SEED_KEYS_SLOT_STATE s1.fuses.slotState.toNat).setB F.SEED_KEYS_TARBOR_OFF s1.fuses.tarborOff
      s2.unflag F.SEED_KEY_CMD_BUSY

/-! ## The calibration store (R503) -/

/-- Calibration commands act in Growing, with no load and no other calibration command under way. -/
def State.calCmd (s : State) (confirm : Nat) (f : State → State) : State :=
  s.seedCmd confirm fun x => if x.pwr = 0 ∧ x.loading = false ∧ x.bit F.SEED_CAL_STATUS_BUSY = false then f x else x

/-- Every die sensor reads from 0 °C to 85 °C. -/
def State.calTemp (s : State) : Bool :=
  (List.range 24).all fun k => decide (0 ≤ s.getS (F.THM_SENSOR_TEMP k)) && decide (s.getS (F.THM_SENSOR_TEMP k) ≤ 680)

/-- The image that is written: FACTORY 0, GENERATION one higher, and the header's CRC to match. -/
def calRewrite (l : List Byte) : List Byte :=
  let h := l.take 6 ++ [0#8, 0#8] ++ leBytes 8 (fieldAt l 8 8 + 1) ++ (l.drop 16).take 4076
  h ++ leBytes 4 (crc32 h) ++ l.drop 4096

/-- CAL_OVERWRITE (R503): what has begun runs to its end. -/
def execCalOverwrite (confirm : Nat) (img : List Byte) (s : State) : Host.Outcome State Fault Refusal :=
  .next <| s.calCmd confirm fun x =>
    let l := img.take (x.getF F.SEED_HOST_LEN_LEN)
    if !x.calTemp then x.flag F.SEED_CAL_STATUS_TEMP_REFUSED
    else if !calOk l then x.flag F.SEED_CAL_STATUS_FORMAT_REFUSED
    else ({ x with flash := { x.flash with cal := calRewrite l } }).flag F.SEED_CAL_STATUS_BUSY

/-- CAL_WRITE_DONE (R503). -/
def execCalWriteDone (s : State) : Host.Outcome State Fault Refusal :=
  .next (if s.bit F.SEED_CAL_STATUS_BUSY then (s.unflag F.SEED_CAL_STATUS_BUSY).unflag F.SEED_CAL_STATUS_FACTORY else s)

/-- CAL_COPY (R503): the whole 4 MiB store goes to host memory; erased flash reads as ones. -/
def execCalCopy (confirm : Nat) (s : State) : Host.Outcome State Fault Refusal :=
  .next <| s.calCmd confirm fun x =>
    x.emit (.hostWrite (x.getF F.SEED_HOST_ADDR_ADDR * 256)
      (x.flash.cal ++ List.replicate (4194304 - x.flash.cal.length) 0xFF#8))

end Sys2Proof.Machine
end

