-- ==== Sys2Proof/Machine/HedgeItems.lean ====
section
/-!
DEFINITION. Nawen items as shared operations: headers, forwarding, delivery to trugs, and the chunks of a graft transfer
(spec/14_hedgerow.md, R404 to R415, R423 and R424).
-/

namespace Sys2Proof.Machine

/-! ## Headers (R404) -/

/-- Fields of a header word. -/
def itemKind (h : List Byte) : Nat := byteAt h 2
def itemBcast (h : List Byte) : Bool := (byteAt h 3).testBit 0
def itemSrc (h : List Byte) : Nat := fieldAt h 4 2 % 4096
def itemDest (h : List Byte) : Nat := fieldAt h 6 2 % 4096
def itemHops (h : List Byte) : Nat := fieldAt h 8 2
def itemStream (h : List Byte) : Nat := byteAt h 10
def itemVer (h : List Byte) : Nat := byteAt h 11
def itemLen (h : List Byte) : Nat := fieldAt h 12 4

/-- A header word passes: MAGIC, HDR_CRC and no POISON (R405). -/
def headerOk (w : NawenWord) : Bool :=
  !w.poison && w.data.length == 32 && fieldAt w.data 0 2 == 0x4E49 && crc32 (w.data.take 28) == fieldAt w.data 28 4

/-- A header closed by its CRC. -/
def closeHeader (b : List Byte) : List Byte := padTo 28 b ++ leBytes 4 (crc32 (padTo 28 b))

/-- The header of an item of the device's own. -/
def itemHeader (kind : Nat) (bcast up : Bool) (src dest stream len seq : Nat) : List Byte :=
  closeHeader (leBytes 2 0x4E49 ++ leBytes 1 kind ++ leBytes 1 (b2n bcast + 2 * b2n up) ++ leBytes 2 src ++ leBytes 2 dest
    ++ leBytes 2 0 ++ leBytes 1 stream ++ leBytes 1 0x10 ++ leBytes 4 len ++ leBytes 4 seq)

/-- The header as it is forwarded: HOPS one higher (R404). -/
def hopped (h : List Byte) : List Byte := closeHeader (h.take 8 ++ leBytes 2 (itemHops h + 1) ++ (h.take 28).drop 10)

/-- A run of bytes as payload words, the last one padded (R404). -/
def payloadWords : Nat → List Byte → List NawenWord
  | 0, _ => []
  | n + 1, l => { data := padTo 32 l, poison := false } :: payloadWords n (l.drop 32)

/-! ## Sending (R406, R410) -/

/-- The Runner of port `p` that carries the items of a stream. -/
def State.itemRunner (s : State) (p src stream : Nat) : Option Nat :=
  let act := s.hedgeActive p
  act[(src + stream) % act.length]?

/-- Send an item on port `p`. -/
def State.putItem (s : State) (p : Nat) (h : List Byte) (ws : List NawenWord) : State :=
  match s.itemRunner p (itemSrc h) (itemStream h) with
  | some r => (s.txWake r).emit (.nawenItem r h ws)
  | none => s

/-- Send an item of the device's own on port `q`, with the stream's next SEQ. -/
def State.putOwn (s : State) (q kind : Nat) (bcast : Bool) (dest stream len : Nat) (ws : List NawenWord) : State :=
  let seq := s.hedge.seqs.at 0 stream
  let s1 := { s with hedge := { s.hedge with seqs := s.hedge.seqs.put 0 stream ((seq + 1) % 2 ^ 32) } }
  s1.putItem q (itemHeader kind bcast (q == 0) (s.ownAddr.getD 0) dest stream len seq) ws

/-! ## Forwarding (R409 to R412) -/

/-- An item leaves for the other port, or is dropped (R409, R410, R411). -/
def State.forwardItem (s : State) (p : Nat) (h : List Byte) (ws : List NawenWord) : State :=
  let q := 1 - p
  let held := ((s.hedgePort q).fwd.map fun x => itemLen x.header + 32).sum
  if itemHops h + 1 ≥ 4095 ∨ (s.hedgeActive q).isEmpty = true then s.itemFlag F.HRW_ERR_NO_ROUTE none
  else if s.getF (F.HRW_PORT_STATUS_VERSION q) < itemVer h then s.itemFlag F.HRW_ERR_VER_DROP (some (q, 3))
  else if 4194304 - held < itemLen h + 32 then s.itemFlag F.HRW_ERR_FWD_DROP (some (p, 2))
  else s.setHedgePort q { s.hedgePort q with fwd := (s.hedgePort q).fwd ++ [{ header := hopped h, words := ws }] }

/-! ## Delivery (R414) -/

/-- Write the payload of an item to trug `t` word by word, marking those with POISON. -/
def State.trugPayload (s : State) (t : Nat) : Nat → List NawenWord → State
  | _, [] => s
  | len, w :: r =>
    let s1 := s.trugPut t ((padTo 32 w.data).take len) (decide (len ≤ 32))
    let x := s1.trug t
    let s2 := if w.poison && !(s.trug t).skip && !s.trugFull t then
        { s1 with trugs := s1.trugs.put {} t { x with
          ring := x.ring.dropLast ++ (x.ring.getLast?.map fun z => { z with tag := z.tag ||| 0x80#8 }).toList } }
      else s1
    State.trugPayload s2 t (len - 32) r

/-- The lowest enabled route that matches an item. -/
def State.routeOf (s : State) (h : List Byte) : Option Nat :=
  (List.range 64).find? fun k => s.bit (F.HRW_ROUTE_EN k) && s.getF (F.HRW_ROUTE_STREAM k) == itemStream h
    && (s.bit (F.HRW_ROUTE_ANY_SRC k) || s.getF (F.HRW_ROUTE_SRC k) == itemSrc h)

/-! ## Graft chunks (R424) -/

/-- The gathered transfer has failed or is complete: its later chunks are nothing. -/
def State.gatherEnd (s : State) (id : Nat) : State :=
  { s with hedge := { s.hedge with gather := some { id, len := 0, bytes := [] } } }

/-- A chunk is missing, poisoned or out of range: the transfer fails with SOURCE at that place. -/
def State.gatherFail (s : State) (id off : Nat) : State :=
  let s1 := ((s.gatherEnd id).refuse ⟨0x13, 0, off⟩).raise 67
  ({ s1 with hedge := { s1.hedge with checking := some id } }).hedgeChecked 0x13 none

/-- The image is whole: its first phase starts (R68), unless it may not be forwarded (R70) or another load runs (R71). -/
def State.gatherDone (s : State) (id : Nat) (img : List Byte) : State :=
  let s1 := s.gatherEnd id
  if !(byteAt img 14).testBit 0 then s1
  else
    let s2 := { s1 with hedge := { s1.hedge with checking := some id } }
    if s2.loading then s2.busy.hedgeChecked 0x12 none
    else s2.startJob { kind := .load, source := 3, slot := 0, image := img, readLen := img.length, unreadable := none }

/-- A KIND 4 item arrives at the loader. -/
def State.chunk (s : State) (len : Nat) (ws : List NawenWord) : State :=
  let b := (ws.flatMap (·.data)).take len
  let id := fieldAt b 0 2
  let total := fieldAt b 4 4
  let off := fieldAt b 8 4
  let data := b.drop 16
  if !s.bit F.SEED_CTL_HRW_ACCEPT then s
  else if (ws.take 1).any (·.poison) || decide (len ≤ 16) then
    match s.hedge.gather with
    | some g => if g.len = 0 then s else s.gatherFail g.id g.bytes.length
    | none => s
  else
    let old : Option HedgeGather := if off = 0 then some { id, len := total, bytes := [] }
      else s.hedge.gather.bind fun g => if g.id = id then some g else none
    match old with
    | none => s.gatherFail id 0
    | some g =>
      if g.len = 0 ∧ off ≠ 0 then s
      else if ws.any (·.poison) || off != g.bytes.length || total != g.len || total == 0 || decide (67108864 < total)
          || decide (total < off + data.length) then s.gatherFail id (min off g.bytes.length)
      else
        let all := g.bytes ++ data
        if all.length = total then s.gatherDone id all
        else { s with hedge := { s.hedge with gather := some { g with bytes := all } } }

/-- An item addressed to the device (R414). -/
def State.deliverItem (s : State) (h : List Byte) (ws : List NawenWord) : State :=
  if itemKind h = 4 then s.chunk (itemLen h) ws
  else if itemKind h = 1 ∨ itemKind h = 2 ∨ itemKind h = 3 ∨ itemKind h = 5 then
    match s.routeOf h with
    | some k => s.trugPayload (s.getF (F.HRW_ROUTE_TRUG k)) (itemLen h) ws
    | none => s.itemFlag F.HRW_ERR_NO_ROUTE none
  else s.itemFlag F.HRW_ERR_NO_ROUTE none

/-- An item received whole on port `p` (R410). -/
def State.itemRx (s : State) (p : Nat) (h : List Byte) (ws : List NawenWord) : State :=
  if s.ownAddr = some (itemSrc h) then s
  else if itemBcast h then (s.forwardItem p h ws).deliverItem h ws
  else if s.ownAddr = some (itemDest h) then s.deliverItem h ws
  else s.forwardItem p h ws

/-! ## Reception (R405, R412) -/

/-- A word that is no header where one is due: HDR_BAD once for the run. -/
def State.badHeader (s : State) (n p : Nat) : State :=
  if s.hedge.badRun.at false n then s
  else { s with hedge := { s.hedge with badRun := s.hedge.badRun.put false n true } }.itemFlag F.HRW_ERR_HDR_BAD (some (p, 4))

/-- The words that arrive on Runner `n` of port `p`, item by item: an item that the words do not fill was cut with its link,
and is completed with poisoned words. -/
def State.rxWords (s : State) (n p : Nat) : Nat → List NawenWord → State
  | 0, _ => s
  | _ + 1, [] => s
  | fuel + 1, w :: r =>
    if !headerOk w then State.rxWords (s.badHeader n p) n p fuel r
    else
      let s1 := { s with hedge := { s.hedge with badRun := s.hedge.badRun.put false n false } }
      let m := wordsFor (itemLen w.data)
      if itemKind w.data = 0 then State.rxWords s1 n p fuel (r.drop m)
      else
        let ws := r.take m
        let s2 := s1.bump (F.HRW_PORT_CNT_COUNT p 0)
        let s3 := s2.when (decide (ws.length < m)) (·.itemFlag F.HRW_ERR_ITEM_CUT (some (p, 5)))
        let full := ws ++ List.replicate (m - ws.length) { data := List.replicate 32 0#8, poison := true }
        State.rxWords (s3.itemRx p w.data full) n p fuel (r.drop m)

end Sys2Proof.Machine
end

