-- ==== Sys2Proof/Machine/Hedgerow.lean ====
section
/-!
DEFINITION. The commands of the hedgerow (spec/14_hedgerow.md): items, messages, enumeration, time exchange, graft transfer,
and wake.
-/

namespace Sys2Proof.Machine

/-! ## Items (R404 to R415) -/

/-- The port of Runner `n`, while the link is ACTIVE and the block works. -/
def State.hedgeRx (s : State) (n : Nat) : Option Nat :=
  if s.up 10 && s.nawen n && s.runState n == 8 then s.hedgeOf n else none

/-- HRW_ITEM_RX (R405, R410, R411, R412, R414, R424). -/
def execHrwItemRx (n : Nat) (words : List NawenWord) (s : State) : Host.Outcome State Fault Refusal :=
  .next <| match s.hedgeRx n with
    | some p => s.rxWords n p words.length words
    | none => s

/-- HRW_FORWARD_START (R406, R411, R412). -/
def execHrwForwardStart (p : Nat) (s : State) : Host.Outcome State Fault Refusal :=
  .next <| match (s.hedgePort p).fwd with
    | x :: r =>
      if s.up 10 && !(s.hedgeActive p).isEmpty then
        ((s.setHedgePort p { s.hedgePort p with fwd := r }).putItem p x.header x.words).bump (F.HRW_PORT_CNT_COUNT p 1)
      else s
    | [] => s

/-- Take the item that waits at the head of the trug of send `k` and send it (R414, R415): an item cut in the trug, or
longer than a Nawen item may be, is discarded whole. -/
def State.sendItem (s : State) (k q : Nat) (errs : List WordErr) (n : Nat) : State :=
  let t := s.getF (F.HRW_SEND_TRUG k)
  let (l, s1) := s.readUnit t errs 0 n
  let bytes := (l.map fun w => w.valid.length).sum
  if (l.any fun w => w.tag.getLsbD 5 && w.tag.getLsbD 6) || decide (4194272 < bytes) || bytes == 0 then
    s1.itemFlag F.HRW_ERR_FWD_DROP (some (q, 2))
  else
    let ws := l.map fun w => { data := padTo 32 w.valid, poison := w.tag.getLsbD 7 : NawenWord }
    s1.putOwn q (s.getF (F.HRW_SEND_KIND k)) (s.bit (F.HRW_SEND_BCAST k)) (s.getF (F.HRW_SEND_DEST k))
      (s.getF (F.HRW_SEND_STREAM k)) bytes ws

/-- HRW_SEND_ITEM (R406, R411, R414, R415): a forwarded item that waits goes first. -/
def execHrwSendItem (k : Nat) (errs : List WordErr) (s : State) : Host.Outcome State Fault Refusal :=
  let q := s.sendPort (s.getF (F.HRW_SEND_PORT k))
  .next <|
    if s.up 10 && decide (k < 64) && s.bit (F.HRW_SEND_EN k) && !(s.hedgeActive q).isEmpty && (s.hedgePort q).fwd.isEmpty then
      match headItem (s.trug (s.getF (F.HRW_SEND_TRUG k))).ring with
      | some (ws, _) => s.sendItem k q errs ws.length
      | none => s
    else s

/-- HRW_ROUTE_WRITE (R415). -/
def execHrwRouteWrite (k : Nat) (val : Word) (s : State) : Host.Outcome State Fault Refusal :=
  .next (if 64 ≤ k then s else if s.reaches 10 then s.routeWrite k val else s.inReset)

/-- HRW_SEND_WRITE (R415). -/
def execHrwSendWrite (k : Nat) (low : Word) (high : Word) (s : State) : Host.Outcome State Fault Refusal :=
  .next (if 64 ≤ k then s else if s.reaches 10 then s.sendWrite k low high else s.inReset)

/-! ## Messages as received (R407 to R410) -/

/-- Byte 2 of a block, and the fields of a routed message. -/
def msgFlag (b : List Byte) (i : Nat) : Bool := (byteAt b 2).testBit i
def msgDest (b : List Byte) : Nat := fieldAt b 3 3 % 4096
def msgSrc (b : List Byte) : Nat := fieldAt b 3 3 / 4096

/-- Forward a routed message unchanged by the other port (R407, R410). -/
def State.forwardMsg (s : State) (p : Nat) (b : List Byte) : State :=
  if (s.hedgeActive (1 - p)).isEmpty then s.itemFlag F.HRW_ERR_NO_ROUTE none
  else s.sendMsg (1 - p) (byteAt b 1) (byteAt b 2) ((b.drop 3).take 11)

/-- Handle a routed message (R410); `f` is what its delivery does. -/
def State.routed (s : State) (p : Nat) (b : List Byte) (f : State → State) : State :=
  if s.ownAddr = some (msgSrc b) ∧ msgFlag b 2 = false then s
  else if msgFlag b 1 then f (s.forwardMsg p b)
  else if s.ownAddr = some (msgDest b) then f s
  else s.forwardMsg p b

/-- A MESSAGE block of a TYPE arrives on Runner `n`: discarded and counted when its CRC fails (R407). -/
def State.message (s : State) (n type : Nat) (b : List Byte) (f : Nat → State → State) : State :=
  match s.hedgeRx n with
  | none => s
  | some p =>
    if !blockOk 0x4B b then s.msgBad p
    else if byteAt b 1 ≠ type then s
    else (f p s).hedgeHook n

/-- A message of a link type: with LINK 0 it is a routed message of a TYPE not known as such (R409). -/
def State.linkMessage (s : State) (n type : Nat) (b : List Byte) (f : Nat → State → State) : State :=
  s.message n type b fun p x => if msgFlag b 0 then f p x else x.routed p b id

/-- A message of a routed type: with LINK 1 it is a link message of an unknown TYPE (R409). -/
def State.routedMessage (s : State) (n type : Nat) (b : List Byte) (f : State → State) : State :=
  s.message n type b fun p x => if msgFlag b 0 then x.msgBad p else x.routed p b f

/-- UNKNOWN_MESSAGE_RX (R407, R409): a block whose CRC fails or whose TYPE is unknown. -/
def execUnknownMessageRx (n : Nat) (block : List Byte) (s : State) : Host.Outcome State Fault Refusal :=
  let t := byteAt block 1
  let known := if msgFlag block 0 then decide (1 ≤ t) && decide (t ≤ 5) else decide (0x10 ≤ t) && decide (t ≤ 0x15)
  .next (if blockOk 0x4B block && known then s else s.linkMessage n t block fun p x => x.msgBad p)

/-! ## HELLO and rejoin (R419, R420, R429) -/

/-- The device keeps its place: its address lies on the correct side of each neighbour that has said its own. -/
def State.inPlace (s : State) : Bool :=
  let own := s.getF F.HRW_ADDR_ADDR
  (List.range 2).all fun p =>
    let x := s.hedgePort p
    let peer := s.getF (F.HRW_PORT_PEER_ADDR p)
    !(x.up && x.helloSeen && s.bit (F.HRW_PORT_PEER_VALID p))
      || (if p = 0 then decide (peer < own) else decide (own < peer) || s.bit (F.HRW_PORT_PEER_HEAD p))

/-- A device whose port has come up rejoins: it keeps its address or sends JOIN (R429). -/
def State.rejoin (s : State) : State :=
  if s.isHead then s
  else if s.bit F.HRW_ADDR_VALID && s.inPlace then s
  else s.sendRouted 0 0x12 false 0 []

/-- A HELLO received on port `p` (R419, R420, R429). -/
def State.helloRx (s : State) (p : Nat) (b : List Byte) : State :=
  let a := fieldAt b 3 2
  let first := !(s.hedgePort p).helloSeen
  let s1 := (s.setF (F.HRW_PORT_PEER_ADDR p) (a % 4096)).setB (F.HRW_PORT_PEER_VALID p) (a.testBit 15)
  let s2 := s1.setB (F.HRW_PORT_PEER_HEAD p) ((byteAt b 5).testBit 0)
  let s3 := (s2.setHedgePort p { s2.hedgePort p with helloSeen := true }).takeGap p
  s3.when first State.rejoin

/-- HELLO (R419, R420, R429). -/
def execHello (n : Nat) (block : List Byte) (s : State) : Host.Outcome State Fault Refusal :=
  .next (s.linkMessage n 0x01 block fun p x => x.helloRx p block)

/-- HELLO_TIMER (R419). -/
def execHelloTimer (p : Nat) (s : State) : Host.Outcome State Fault Refusal :=
  .next (if s.up 10 && decide (p < 2) && !(s.hedgeActive p).isEmpty then s.sendHello p else s)

/-! ## Enumeration (R416, R417, R430) -/

/-- An epoch lower than the device's own, compared as signed 16 bits (R416). -/
def State.stale (s : State) (e : Nat) : Bool := decide (stampDiff 16 e s.hedge.epoch < 0)

/-- Answer a token with ENUM_ACK. -/
def State.sendAck (s : State) (p a e : Nat) : State := s.sendMsg p 0x03 1 (leBytes 2 a ++ leBytes 2 e)

/-- A token received upstream (R416 steps 2 to 5). -/
def State.tokenRx (s : State) (p a e : Nat) : State :=
  if p ≠ 0 ∨ s.stale e = true then s
  else if s.isHead then
    if e ≠ s.hedge.epoch then s
    else
      let s1 := s.sendAck 0 0 e
      if s1.enumerating then (s1.enumFinish (a + 1) true).enumAgain else s1
  else if 4096 ≤ a + 1 then
    ((s.flag F.HRW_ERR_OVERFLOW).hedgeVector 499).sendRouted 0 0x10 false 0 (leBytes 2 4096 ++ leBytes 2 e)
  else
    let s1 := s.sendAck 0 (a + 1) e
    if s1.hedge.pend = some (a + 1, e) ∨ (s1.hedge.epoch = e ∧ s1.ownAddr = some (a + 1)) then s1
    else ({ s1 with hedge := { s1.hedge with pend := some (a + 1, e), tokenOut := false, tokenDue := false } }).tokenOn

/-- ENUM_TOKEN (R416). -/
def execEnumToken (n : Nat) (block : List Byte) (s : State) : Host.Outcome State Fault Refusal :=
  .next (s.linkMessage n 0x02 block fun p x => x.tokenRx p (fieldAt block 3 2) (fieldAt block 5 2))

/-- ENUM_ACK (R416): the token sent is repeated no more. -/
def execEnumAck (n : Nat) (block : List Byte) (s : State) : Host.Outcome State Fault Refusal :=
  .next <| s.linkMessage n 0x03 block fun p x =>
    if p = 1 ∧ x.hedge.pend.map (·.2) = some (fieldAt block 5 2) then
      { x with hedge := { x.hedge with tokenOut := false } }
    else x

/-- ENUM_TOKEN_REPEAT (R416). -/
def execEnumTokenRepeat (s : State) : Host.Outcome State Fault Refusal :=
  .next (if s.up 10 && s.hedge.tokenOut && !(s.hedgeActive 1).isEmpty then s.sendToken else s)

/-- ENUM_ACK_TIMEOUT (R416): the device is the end of a chain. -/
def execEnumAckTimeout (s : State) : Host.Outcome State Fault Refusal :=
  .next (if s.up 10 && s.hedge.tokenOut then s.chainEnd.enumAgain else s)

/-- ENUM_END (R416). -/
def execEnumEnd (n : Nat) (block : List Byte) (s : State) : Host.Outcome State Fault Refusal :=
  .next <| s.routedMessage n 0x10 block fun x =>
    if x.isHead = true ∧ x.hedge.pend.map (·.2) = some (fieldAt block 8 2) then
      (x.enumFinish (fieldAt block 6 2) false).enumAgain
    else x

/-- ENUM_DONE (R416, R417): the message of a stale epoch is discarded. -/
def execEnumDone (n : Nat) (block : List Byte) (s : State) : Host.Outcome State Fault Refusal :=
  let e := fieldAt block 8 2
  .next <| s.message n 0x11 block fun p x =>
    if msgFlag block 0 then x.msgBad p
    else if x.stale e then x
    else x.routed p block fun y =>
      match y.isHead, y.hedge.pend with
      | false, some (a, f) =>
        if f = e then y.adopt a e (fieldAt block 6 2) ((byteAt block 10).testBit 0) else y
      | _, _ => y

/-- ENUM_START_TIMER (R416 step 1): 2.0 s after power-good, or 1.5 s after a hedgerow graft commit. -/
def execEnumStartTimer (s : State) : Host.Outcome State Fault Refusal :=
  .next (if s.up 10 && s.isHead then s.enumStart.enumAgain else s)

/-- HRW_ENUM_CMD (R416). -/
def execHrwEnumCmd (s : State) : Host.Outcome State Fault Refusal :=
  .next <|
    if !s.reaches 10 then s.inReset
    else if !s.isHead then s
    else
      let s1 := s.flag F.HRW_CTL_ENUM
      if s1.enumerating then { s1 with hedge := { s1.hedge with again := true } } else s1.enumStart.enumAgain

/-- JOIN (R416, R429, R430). -/
def execJoin (n : Nat) (block : List Byte) (s : State) : Host.Outcome State Fault Refusal :=
  .next <| s.routedMessage n 0x12 block fun x =>
    if !x.isHead then x
    else if !x.bit F.HRW_CTL_AUTO_ENUM then (x.flag F.HRW_ERR_JOIN_PENDING).hedgeVector 496
    else if x.enumerating then { x with hedge := { x.hedge with again := true } }
    else x.enumStart.enumAgain

/-! ## Time exchange (R421, R422) -/

/-- Place of a hedgerow Runner in the latency part of the calibration store (R502). -/
def latencyIndex (n : Nat) : Nat := if n < 12 then 2 + n else 6 + (n - 12)

/-- TIME_REQ (R421): t2 is the stamp of receipt; `turn` is the time from it to the send of the answer. -/
def execTimeReq (n : Nat) (block : List Byte) (turn : Nat) (s : State) : Host.Outcome State Fault Refusal :=
  .next <| s.linkMessage n 0x04 block fun p x =>
    let t2 := patternOf 64 (x.corrTicks - (x.rxLatency (latencyIndex n) : Int))
    x.sendMsg p 0x05 1 ((block.drop 3).take 1 ++ leBytes 8 t2 ++ leBytes 2 turn)

/-- The offset and the delay of one exchange, from its four stamps: θ in 2⁻¹⁶ ns and the delay in 1/256 ns, the mean of the
last 16 reported (R421). -/
def State.timeResp (s : State) (t1 t2 t3 t4 : Int) : State :=
  let delays := (((t4 - t1) - (t3 - t2)) * 4 :: s.hedge.delays).take 16
  let s1 := { s with hedge := { s.hedge with timeReq := none, delays := delays } }
  let s2 := s1.setF F.HRW_TIME_DELAY_DELAY (patternOf 32 (delays.sum / delays.length))
  if s2.getF F.TIME_CTL_SOURCE = 2 then s2.servoMeasure (((t1 - t2) + (t4 - t3)) * 1024) else s2

/-- TIME_RESP (R421): only the answer to the last request, within 100 µs of it. -/
def execTimeResp (n : Nat) (block : List Byte) (s : State) : Host.Outcome State Fault Refusal :=
  .next <| s.linkMessage n 0x05 block fun p x =>
    match p, x.hedge.timeReq with
    | 0, some (seq, t1) =>
      let t4 := x.corrTicks - (x.rxLatency (latencyIndex n) : Int)
      let t2 := t1 + stampDiff 64 (fieldAt block 4 8) (patternOf 64 t1)
      if byteAt block 3 ≠ seq ∨ 3200000 < t4 - t1 then x
      else x.timeResp t1 t2 (t2 + fieldAt block 12 2) t4
    | _, _ => x

/-- HRW_TIME_EXCHANGE (R421, R422). -/
def execHrwTimeExchange (s : State) : Host.Outcome State Fault Refusal :=
  .next <| match (s.hedgeActive 0).head? with
    | some r =>
      if s.up 10 && s.getF F.HRW_TIME_RATE != 0 && s.getF F.TIME_CTL_SOURCE == 2 && !s.isHead then
        let seq := (s.hedge.timeSeq + 1) % 256
        let t1 := s.corrTicks + s.txLatency (latencyIndex r)
        ({ s with hedge := { s.hedge with timeSeq := seq, timeReq := some (seq, t1) } }).sendMsg 0 0x04 1 (leBytes 1 seq)
      else s
    | none => s

/-! ## Graft transfer (R423 to R425) -/

/-- GRAFT_STATUS (R424): the head counts the reply. -/
def execGraftStatus (n : Nat) (block : List Byte) (s : State) : Host.Outcome State Fault Refusal :=
  .next <| s.routedMessage n 0x13 block fun x =>
    if x.isHead = true ∧ fieldAt block 6 2 = x.getF F.HRW_GRAFT_STAT_TRANSFER_ID then
      (x.bump (if byteAt block 8 = 0 then F.HRW_GRAFT_STAT_READY else F.HRW_GRAFT_STAT_REFUSED)).hedgeVector 497
    else x

/-- The graft reset of a staged transfer starts. -/
def State.commitNow (s : State) : State :=
  match s.hedge.staged with
  | some (_, img) => s.graftReset img 3 0
  | none => s

/-- GRAFT_COMMIT (R425): a device that holds the transfer waits for AT, or starts at once when AT has passed. -/
def execGraftCommit (n : Nat) (block : List Byte) (s : State) : Host.Outcome State Fault Refusal :=
  let at' := fieldAt block 8 6
  .next <| s.routedMessage n 0x14 block fun x =>
    if x.hedge.staged.map (·.1) ≠ some (fieldAt block 6 2) then x
    else if stampLater 48 at' x.shortStamp then { x with hedge := { x.hedge with commitAt := some at' } }
    else ((x.flag F.HRW_ERR_COMMIT_LATE).hedgeVector 497).commitNow

/-- GRAFT_COMMIT_AT (R425): corrected time has reached AT. -/
def execGraftCommitAt (s : State) : Host.Outcome State Fault Refusal :=
  .next <| match s.hedge.commitAt with
    | some a => if s.up 10 && !stampLater 48 a s.shortStamp then s.commitNow else s
    | none => s

/-- The chunks of an image from an offset on, up to the first byte that could not be read (R423). -/
def State.sendChunks (s : State) (q id stream dest : Nat) (bcast : Bool) (img : List Byte) (stop : Nat) : Nat → Nat → State
  | 0, _ => s
  | fuel + 1, off =>
    let d := (img.drop off).take 65536
    if d.isEmpty || decide (stop < off + d.length) then s
    else
      let b := leBytes 2 id ++ leBytes 2 0 ++ leBytes 4 img.length ++ leBytes 4 off ++ leBytes 4 0 ++ d
      State.sendChunks (s.putOwn q 4 bcast dest stream b.length (payloadWords (wordsFor b.length) b)) q id stream dest bcast
        img stop fuel (off + 65536)

/-- HRW_GRAFT_SEND (R70, R423): the head sends an image that may be forwarded. The stream of the chunks is not the spec's to
give. -/
def execHrwGraftSend (dest : Nat) (bcast : Bool) (confirm : Nat) (img : List Byte) (unreadable : Option Nat) (s : State) :
    Host.Outcome State Fault Refusal :=
  let n := s.getF F.SEED_HOST_LEN_LEN
  let l := img.take (min n (fieldAt img 8 4))
  .next <|
    if !s.reaches 10 then s.inReset
    else if confirm ≠ 0x5EED ∨ s.isHead = false ∨ n = 0 ∨ (byteAt img 14).testBit 0 = false then s
    else
      let id := (s.getF F.HRW_GRAFT_STAT_TRANSFER_ID + 1) % 65536
      let s1 := ((s.setF F.HRW_GRAFT_STAT_TRANSFER_ID id).setF F.HRW_GRAFT_STAT_READY 0).setF F.HRW_GRAFT_STAT_REFUSED 0
      s1.freed.sendChunks (s1.sendPort 1) id (s1.free % 256) dest bcast l (unreadable.getD l.length) (l.length / 65536 + 1) 0

/-- HRW_GRAFT_COMMIT_CMD (R425). -/
def execHrwGraftCommitCmd (dest : Nat) (bcast : Bool) (confirm : Nat) (s : State) : Host.Outcome State Fault Refusal :=
  .next <|
    if !s.reaches 10 then s.inReset
    else if confirm ≠ 0x5EED ∨ s.isHead = false then s
    else s.sendRouted 1 0x14 bcast dest
      (leBytes 2 (s.getF F.HRW_GRAFT_STAT_TRANSFER_ID) ++ leBytes 6 (s.getF F.HRW_GRAFT_AT_AT))

/-! ## Wake (R426, R427) -/

/-- DEST lies strictly between the device's address and the peer address of port `p`; the head that closes a ring stands
for the address after the last. -/
def State.across (s : State) (p dest : Nat) : Bool :=
  let own := s.getF F.HRW_ADDR_ADDR
  let peer := s.getF (F.HRW_PORT_PEER_ADDR p)
  let last := s.getF F.HRW_STATUS_COUNT
  s.bit F.HRW_ADDR_VALID && s.bit (F.HRW_PORT_PEER_VALID p) &&
    (if p = 0 then
      if s.isHead then decide (peer < dest) && decide (dest < last) else decide (peer < dest) && decide (dest < own)
    else decide (own < dest) && decide (dest < if s.bit (F.HRW_PORT_PEER_HEAD p) then last else peer))

/-- WAKE (R410, R426, R427). -/
def execWake (n : Nat) (block : List Byte) (s : State) : Host.Outcome State Fault Refusal :=
  .next <| s.message n 0x15 block fun p x =>
    if msgFlag block 0 then x.msgBad p
    else
      match (List.range 2).find? fun q => x.across q (msgDest block) && !msgFlag block 1 with
      | some q => x.sendWave q
      | none => x.routed p block id

/-- WAKE_PATTERN_DETECT (R22, R426, R427, R430): the detector is a Twine source, and wakes a device in Dormant or Fallow. -/
def execWakePatternDetect (p : Nat) (s : State) : Host.Outcome State Fault Refusal :=
  .next (if decide (p < 2) && s.alive then (s.fireSource (168 + p)).wake (2 + p) else s)

/-- WAKE_PATTERN_END (R426): the Runners of the port retrain. -/
def execWakePatternEnd (p : Nat) (s : State) : Host.Outcome State Fault Refusal :=
  .next <|
    if (s.hedgePort p).waving then
      let s1 := (s.setHedgePort p { s.hedgePort p with waving := false }).emit (.wakePattern p false)
      s1.when (s1.up 10) (·.hedgeDetect p)
    else s

/-! ## Links (R420, R428) -/

/-- HRW_BROKEN_RETRY (R420). -/
def execHrwBrokenRetry (p : Nat) (s : State) : Host.Outcome State Fault Refusal :=
  .next <|
    if s.up 10 && (s.hedgePort p).brokenOff then
      (s.setHedgePort p { s.hedgePort p with brokenOff := false }).hedgeDetect p
    else s

/-- HRW_LINK_LOST (R428). -/
def execHrwLinkLost (p : Nat) (s : State) : Host.Outcome State Fault Refusal :=
  .next <|
    if s.up 10 && decide (p < 2) && !(s.hedgeActive p).isEmpty then
      (((s.hedgeActive p).foldl (fun x r => x.toDetect r) s).hedgeSync p).hedgeSync p
    else s

end Sys2Proof.Machine
end

