-- ==== Sys2Proof/Machine/Resets.lean ====
section
/-!
DEFINITION. The commands of resets, rails, power states and the watchdog (R483 to R491, R512 to R515), and of the PCIe link
(R67, R457, R475, R523).
-/

namespace Sys2Proof.Machine

/-! ## Resets and rails -/

/-- POWER_ON_RESET (R488): it lasts until power-good. -/
def execPowerOnReset (s : State) : Host.Outcome State Fault Refusal :=
  .next <|
    let s1 := s.powerOn
    { s1 with tap := {}, power := { s1.power with powerGood := false, railFault := 0 } }

/-- POWER_GOOD (R512, R514): every rail is within tolerance; the head strap is sampled. -/
def execPowerGood (headStrap : Bool) (s : State) : Host.Outcome State Fault Refusal :=
  .next <|
    if s.power.powerGood then s
    else
      let s1 := s.setB F.HRW_STATUS_HEAD headStrap
      { s1 with power := { s1.power with powerGood := true, railFault := 0 } }

/-- PIN_RESET (R488, R501): RESET_N is low. A tripped device only notes it, and a power-on reset goes on. -/
def execPinReset (s : State) : Host.Outcome State Fault Refusal :=
  .next <|
    let s1 := { s with power := { s.power with resetLow := true } }
    if s.power.resetLow || !s.power.powerGood || s.pwr == 5 then s1 else s1.pinReset .pin

/-- RESET_N_RELEASE (R488, R520): seeding can start, and boundary cells let go of the balls. -/
def execResetNRelease (s : State) : Host.Outcome State Fault Refusal :=
  .next { s with
    power := { s.power with resetLow := false }
    tap := match s.tap.instr with
      | .extest | .clamp | .highz => { s.tap with acts := false }
      | _ => s.tap }

/-- RAIL_FAULT (R513): a fall of VDD_AO or VDD_IO is a power-on reset, of any other rail a pin reset. -/
def execRailFault (aoOrIo : Bool) (s : State) : Host.Outcome State Fault Refusal :=
  .next <|
    if aoOrIo then
      let s1 := s.powerOn
      { s1 with tap := {}, power := { s1.power with powerGood := false, railFault := 2 } }
    else if !s.power.powerGood then s
    else
      let s1 := if s.pwr = 5 then s else s.pinReset .pin
      { s1 with power := { s1.power with railFault := 1 } }

/-- RAIL_RECOVER (R513). A power-on reset lasts until power-good instead. -/
def execRailRecover (s : State) : Host.Outcome State Fault Refusal :=
  .next (if s.power.railFault = 1 then { s with power := { s.power with railFault := 0 } } else s)

/-- PERST_ASSERT (R515): the endpoint and its MSI-X table are reset, and nothing else. -/
def execPerstAssert (s : State) : Host.Outcome State Fault Refusal :=
  .next { s with
    regs := s.regs.filter fun e => isRegister e.1
    power := { s.power with pcieUp := false, msixOn := false } }

/-! ## Power states (R483 to R487) -/

/-- PWR_REQ_DORMANT (R483). -/
def execPwrReqDormant (confirm : Nat) (s : State) : Host.Outcome State Fault Refusal := .next (s.entryRequest confirm 2)

/-- PWR_REQ_FALLOW (R483). -/
def execPwrReqFallow (confirm : Nat) (s : State) : Host.Outcome State Fault Refusal := .next (s.entryRequest confirm 3)

/-- PWR_ENTRY_COMPLETE (R483). -/
def execPwrEntryComplete (s : State) : Host.Outcome State Fault Refusal := .next s.entryComplete

/-- PWR_REQ_WAKE (R485): a host write wakes from Dormant; one that comes during entry waits for its end (R501). -/
def execPwrReqWake (confirm : Nat) (s : State) : Host.Outcome State Fault Refusal :=
  .next (if s.rootReach && confirm == 0x5EED then s.wake 5 else s)

/-- PCIE_L2_EXIT_WAKE (R485): the host starts the link out of L2 in Fallow. -/
def execPcieL2ExitWake (s : State) : Host.Outcome State Fault Refusal := .next (if s.alive then s.wake 4 else s)

/-! ## Soft resets (R489) -/

/-- SOFT_RESET (R489). -/
def execSoftReset (block : Nat) (s : State) : Host.Outcome State Fault Refusal :=
  .next <|
    if s.rootReach && softResettable block && !s.power.softReset.getLsbD block then s.softReset block else s

/-- SOFT_RESET_DONE (R489). -/
def execSoftResetDone (block : Nat) (s : State) : Host.Outcome State Fault Refusal :=
  .next (if softResettable block && s.power.softReset.getLsbD block then s.softDone block else s)

/-! ## Watchdog (R490) -/

/-- WDT_KICK (R490, R470): the Gardener or a control core writes the key. -/
def execWdtKick (who : Nat) (key : Word) (s : State) : Host.Outcome State Fault Refusal :=
  .next <|
    if s.rootReach && decide (2 ≤ who) && decide (who ≤ 6) && key == 0x5EED#32 then
      { s with power := { s.power with wdtFrom := if s.fastOn then s.time.counter else 0#64 } }
    else s

/-- Milliseconds that the watchdog has counted: 125,000 counts of 8 ns each. -/
def State.wdtMs (s : State) : Nat := (s.time.counter - s.power.wdtFrom).toNat / 125000

/-- WDT_EXPIRE (R490): a watchdog reset acts as a pin reset. -/
def execWdtExpire (s : State) : Host.Outcome State Fault Refusal :=
  .next <|
    let limit := s.getF F.PWR_WDT_TIMEOUT_MS
    if s.alive && s.fastOn && s.power.wdtOn && limit != 0 && decide (limit ≤ s.wdtMs) then s.pinReset .wdt else s

/-! ## PCIe link (R457, R475, R523) -/

/-- PCIE_LINK_RESTORE (R457, R475, R515): vectors that waited for the link are raised. -/
def execPcieLinkRestore (s : State) : Host.Outcome State Fault Refusal :=
  .next <|
    if !s.alive || s.pwr == 3 || s.pwr == 5 then s
    else
      let s1 := ({ s with power := { s.power with pcieUp := true } }).setPcieWake false
      let chans := if s1.bit F.TWN_CTL_MSIX_EN then
          (List.range 256).filter fun n => s1.bit (F.TWN_CH_CFG_VEC n) && s1.bit ⟨R.TWN_PEND (n / 32), n % 32, 1⟩
        else []
      let s2 := chans.foldl (fun x n => x.raise (132 + n)) s1
      (s2.mail.filter fun e => e.2.held).foldl (fun (x : State) e =>
        (x.setPage e.1 { e.2 with held := false }).when (e.2.pending &&& e.2.mask != 0#32) (·.raise (68 + e.1))) s2

/-- PCIE_LINK_DOWN (R457). -/
def execPcieLinkDown (s : State) : Host.Outcome State Fault Refusal :=
  .next { s with power := { s.power with pcieUp := false } }

/-- MSIX_ENABLE (R67, R523): vectors 67 and 66 that were held are raised. -/
def execMsixEnable (s : State) : Host.Outcome State Fault Refusal :=
  .next <|
    if !s.power.pcieUp then s
    else
      let s1 := { s with power := { s.power with msixOn := true, held66 := false, held67 := false } }
      let s2 := s1.when s.power.held67 (·.raise 67)
      s2.when s.power.held66 (·.raise 66)

end Sys2Proof.Machine
end

