-- ==== Sys2Proof/Machine/HostWrite.lean ====
section
/-!
DEFINITION. The write of a register that has no row of its own, by any master: the window, the reach of its blocks, and the
mailbox pages (R11 to R14, R27, R28, R472, R484, R499).
-/

namespace Sys2Proof.Machine

/-- The channel and the offset within its page that an offset of the window names (spec/16_signalling.md, Mailbox
registers). -/
def mailOffset (off : Nat) : Option (Nat × Nat) :=
  if decide (0x2C10000 ≤ off) && decide (off < 0x2C50000) then some ((off - 0x2C10000) / 0x1000, (off - 0x2C10000) % 0x1000)
  else none

/-- A write of a word of a mailbox page by `who` (R472, R473, R475, R477): the read-only words refuse it. -/
def State.pageWrite (s : State) (who c o : Nat) (v : Word) : State :=
  if o < 0x400 then s.after (execMbxSlotWrite c who o v s)
  else if o = 0x400 then s.after (execMbxPost c who s)
  else if o = 0x404 then s.after (execMbxTake c who [] s)
  else if o = 0x40C then s.after (execMbxRing c who v s)
  else if o = 0x410 then s.after (execMbxPendingClear c who v s)
  else if o = 0x414 then s.mailAs c who (s.isReceiver c who) fun x => x.setPending c (x.page c).pending v
  else if o = 0x418 then s.after (execMbxLockWrite c who v s)
  else if o = 0x408 ∨ o = 0x41C then s.mailAs c who false id
  else s

/-- A write at an aligned offset of the window: lost while the window cannot be reached, and completed as R28 states where
its block cannot. -/
def State.windowWrite (s : State) (who off : Nat) (v : Word) : State :=
  if !s.rootReach then s
  else if decide (0x3c00000 ≤ off) then s.regWrite off v
  else s.bus (blockOfOffset off) fun x =>
    match mailOffset off with
    | some (c, o) => x.pageWrite who c o v
    | none => x.regWrite off v

/-- REGISTER_WRITE (R11 to R14, R27, R28). An access that is not aligned, or beyond the window, stops by name. -/
def execRegisterWrite (who : Nat) (off : Nat) (val : Word) (s : State) : Host.Outcome State Fault Refusal :=
  if off % 4 ≠ 0 then .fault .unaligned
  else if 0x4000000 ≤ off then .fault .outsideWindow
  else .next (s.windowWrite who off val)

end Sys2Proof.Machine
end

