-- ==== Sys2Proof/Machine/MemSpare.lean ====
section
/-!
DEFINITION. The commands of the HBM controller that use spares: row remaps and the retirement of pseudo-channels
(spec/12_hbm_memory.md, R357 to R363).
-/

namespace Sys2Proof.Machine

/-- Read the damaged words of pseudo-channel `q` that a test selects through the code: each counts, and one that cannot
be corrected is stored with the poison pattern (R358, R360). -/
def State.readDamaged (s : State) (q : Nat) (errs : List MemErr) (sel : HbmPlace → Bool) : State :=
  let words := ((errs.map fun e => e.addr / 32 * 32).eraseDups).filter fun a =>
    let p := hbmPlace s.variant a
    p.gpc == q && sel p
  words.foldl (fun (x : State) a =>
    let p := hbmPlace x.variant a
    let (_, v) := qorethRead (x.hbm.read a 32) (x.hbm.poison.at false (a / 32)) (errsAt errs a)
    match v with
    | .clean => x
    | .corrected _ => x.bump (F.MEM_PC_CORR_COUNT p.stack p.pc)
    | .uncorrectable | .poisoned =>
      let y := ((x.bump (F.MEM_PC_UNCORR_COUNT p.stack p.pc)).flag (F.MEM_STK_ERR_UNCORR p.stack)).memVector p.stack
      { y with hbm := y.hbm.mark a }) s

/-- Rows of a bank that have been remapped. -/
def PseudoChannel.sparesUsed (p : PseudoChannel) (bank : Nat) : Nat := (p.remapped.filter fun r => r / 16384 == bank).length

/-- Bring ROWS and BANKS_FULL of a pseudo-channel up to date (R358). -/
def State.reportRows (s : State) (q : Nat) : State :=
  let p := s.pc q
  let full := ((p.remapped.map (· / 16384)).eraseDups.filter fun b => p.sparesUsed b == 2).length
  (s.setF (F.MEM_PC_STATE_ROWS (q / 32) (q % 32)) p.remapped.length).setF (F.MEM_PC_STATE_BANKS_FULL (q / 32) (q % 32)) full

/-- Row `row` is repaired onto a spare row of its bank (R358). -/
def State.rowRemap (s : State) (q row : Nat) (errs : List MemErr) : State :=
  let p := s.pc q
  let bank := row / 16384
  let s1 := s.readDamaged q errs fun pl => pl.rowKey == row
  let p1 := { s1.pc q with
    remapped := p.remapped ++ [row], due := p.due.filter (· != row), suspects := p.suspects.filter (·.row != row)
    openRow := p.openRow.put none bank none }
  let s2 := (((s1.setPc q p1).reportRows q).flag (F.MEM_STK_ERR_ROW_REMAP (q / 32))).memVector (q / 32)
  let s3 := s2.event 0x0F06 8 q (bank / 16 + 256 * (bank % 16) + 65536 * (row % 16384))
  if p1.sparesUsed bank = 2 then (s3.flag F.GLB_SPARE_ROW_LAST).event 0x0F08 8 q 3 else s3

/-- MEM_ROW_REMAP (R357, R358): the lowest row that waits is repaired, or the pool of spare rows has run out. -/
def execMemRowRemap (pc : Nat) (errs : List MemErr) (s : State) : Host.Outcome State Fault Refusal :=
  let p := s.pc pc
  .next <|
    if !s.up 8 then s
    else match p.due with
      | [] => s
      | row :: rest =>
        if p.sparesUsed (row / 16384) < 2 then s.rowRemap pc row errs
        else (s.setPc pc { p with due := rest }).rowExhausted pc

/-- MEM_PC_RETIRE (R360, R361, R363): one pseudo-channel retires at a time. -/
def execMemPcRetire (pc : Nat) (s : State) : Host.Outcome State Fault Refusal :=
  let busy := (List.range (Variant.pcs s.variant)).any fun k => s.pcState k == 1
  .next (if s.up 8 && (s.pc pc).retireDue && s.inService pc && !busy then s.retirePc pc else s)

/-- MEM_RETIRE_COMPLETE (R360 step 5): the copy has ended. -/
def execMemRetireComplete (pc : Nat) (errs : List MemErr) (s : State) : Host.Outcome State Fault Refusal :=
  .next (if s.up 8 && s.pcState pc == 1 then (s.readDamaged pc errs fun _ => true).retireEnd pc 2 else s)

end Sys2Proof.Machine
end

