-- ==== Sys2Proof/Machine/PeFaults.lean ====
section
/-!
DEFINITION. Faults and migration of the pixel engines (spec/08_pixel_engines.md, R244, R251 to R254).
-/

namespace Sys2Proof.Machine

/-- LINE_CAP_EXCEEDED (R244): the engine abandons its line. -/
def execLineCapExceeded (e : Nat) (s : State) : Host.Outcome State Fault Refusal :=
  let g := s.engine e
  .next (if s.peRuns e && !g.ended then (s.setEngine e { g with tooLong := true, ended := true, inFrame := false }).lineOver e
    else s)

/-- A migration target that degrades or faults is retired, and its source runs on (R254). -/
def State.targetFails (s : State) (t : Nat) : State :=
  match s.peSource t with
  | none => s.peRetire t
  | some e =>
    let s1 := s.peRetire t
    let s2 := if s1.peState e = 3 then s1.setF (F.PE_STATUS_STATE e) 2 else s1
    (s2.setEngine e { s2.engine e with target := none }).pePool

/-- Engine `e` degrades (R252, R254). -/
def State.peDegrades (s : State) (e kind : Nat) : State :=
  let s1 := s.flag (F.PE_ERR_DEGRADED e)
  match s.peState e with
  | 1 | 4 => s1.targetFails e
  | 2 =>
    let g := s1.engine e
    if g.moving then s1 else (s1.setEngine e { g with moving := true, kind }).seekTarget e
  | _ => s1

/-- PE_DEGRADED (R251): words corrected within a window, of local memory and instruction store, and of the vector
registers. -/
def execPeDegraded (e : Nat) (memCorr : Nat) (vecCorr : Nat) (s : State) : Host.Outcome State Fault Refusal :=
  let thresh := s.getF (F.PE_SPARE_THRESH e)
  let s1 := (s.addF (F.PE_CNT_COUNT e 0) memCorr).addF (F.PE_CNT_COUNT e 1) vecCorr
  .next <|
    if !s.up 5 || decide (s.variant.pes ≤ e) then s
    else if thresh ≠ 0 ∧ s.getF (F.PE_SPARE_WINDOW_MS e) ≠ 0 ∧ thresh ≤ memCorr + vecCorr then
      s1.peDegrades e (if memCorr ≠ 0 then 1 else 2)
    else s1

/-- A word of an engine's writable local memory becomes poisoned. -/
def PeEngine.poisonWord (g : PeEngine) (addr : Nat) : PeEngine :=
  { g with mem := (List.range 32).foldl (fun m i =>
      SMap.set (fun k => some (g.init.getD k 0#8)) m (addr % 2 ^ 18 / 32 * 32 + i) none) g.mem }

/-- Engine `e` has a hard fault (R251, R253, R254): 1 local memory, 2 registers, 3 instruction store. -/
def State.peFaults (s : State) (e kind addr : Nat) : State :=
  let sp := s.getF (F.PE_STATUS_SPLICE e)
  let s1 := s.flag (F.PE_ERR_HARD_FAULT e)
  let record (x : State) : State := x.concede 5 e 4 2 0x0004 (sp + 256 * kind)
  match s.peState e with
  | 0 => s1.peRetire e
  | 1 | 4 => record (s1.targetFails e)
  | 2 | 3 =>
    let g := s1.engine e
    let g1 := if kind = 1 then g.poisonWord addr else g
    let s2 := (record (s1.setF (F.PE_STATUS_STATE e) 5)).setEngine e { g1 with moving := true, kind }
    match g.target with
    | some t => if s.peState e = 3 then (s2.setF (F.PE_STATUS_STATE t) 2).pePool else s2.pePool
    | none => s2.pePool.seekTarget e
  | _ => s1

/-- PE_HARD_FAULT (R251, R253). -/
def execPeHardFault (e : Nat) (kind : Nat) (addr : Nat) (s : State) : Host.Outcome State Fault Refusal :=
  .next (if s.up 5 && decide (e < s.variant.pes) then s.peFaults e kind addr else s)

/-- CONST_RESTORED (R251): the Gardener has rewritten a constant word; the engine's next line carries POISONED. -/
def execConstRestored (e : Nat) (addr : Nat) (s : State) : Host.Outcome State Fault Refusal :=
  .next (if s.up 5 && decide (e < s.variant.pes) then
    (s.setEngine e { s.engine e with badConst := true }).event 0x0F04 5 e addr else s)

/-- PE_TARGET_LOADED (R252 step 1). -/
def execPeTargetLoaded (t : Nat) (s : State) : Host.Outcome State Fault Refusal :=
  .next (if s.up 5 && s.peState t == 1 then s.setEngine t { s.engine t with loaded := true } else s)

end Sys2Proof.Machine
end

