-- ==== Sys2Proof/Machine/PixelEngine.lean ====
section
/-!
DEFINITION. The meanings of the pixel-engine instructions (R230, R235 to R241): engine `e` issues the instruction and
carries out its operation.
-/

namespace Sys2Proof.Machine

/-- NOP (R235). -/
def execPeNop (e : Nat) (o : PeOp) (s : State) : Host.Outcome State Fault Refusal :=
  .next (s.peStep e 0x00 o peNop)

/-- SADD (R235). -/
def execPeSadd (e : Nat) (o : PeOp) (s : State) : Host.Outcome State Fault Refusal :=
  .next (s.peStep e 0x01 o peSadd)

/-- SSUB (R235). -/
def execPeSsub (e : Nat) (o : PeOp) (s : State) : Host.Outcome State Fault Refusal :=
  .next (s.peStep e 0x02 o peSsub)

/-- SADDI (R235). -/
def execPeSaddi (e : Nat) (o : PeOp) (s : State) : Host.Outcome State Fault Refusal :=
  .next (s.peStep e 0x03 o peSaddi)

/-- SMUL (R235). -/
def execPeSmul (e : Nat) (o : PeOp) (s : State) : Host.Outcome State Fault Refusal :=
  .next (s.peStep e 0x04 o peSmul)

/-- SAND (R235). -/
def execPeSand (e : Nat) (o : PeOp) (s : State) : Host.Outcome State Fault Refusal :=
  .next (s.peStep e 0x05 o peSand)

/-- SOR (R235). -/
def execPeSor (e : Nat) (o : PeOp) (s : State) : Host.Outcome State Fault Refusal :=
  .next (s.peStep e 0x06 o peSor)

/-- SXOR (R235). -/
def execPeSxor (e : Nat) (o : PeOp) (s : State) : Host.Outcome State Fault Refusal :=
  .next (s.peStep e 0x07 o peSxor)

/-- SSHLI (R235). -/
def execPeSshli (e : Nat) (o : PeOp) (s : State) : Host.Outcome State Fault Refusal :=
  .next (s.peStep e 0x08 o peSshli)

/-- SSRLI (R235). -/
def execPeSsrli (e : Nat) (o : PeOp) (s : State) : Host.Outcome State Fault Refusal :=
  .next (s.peStep e 0x09 o peSsrli)

/-- SSRAI (R235). -/
def execPeSsrai (e : Nat) (o : PeOp) (s : State) : Host.Outcome State Fault Refusal :=
  .next (s.peStep e 0x0A o peSsrai)

/-- SLI (R235). -/
def execPeSli (e : Nat) (o : PeOp) (s : State) : Host.Outcome State Fault Refusal :=
  .next (s.peStep e 0x0B o peSli)

/-- SLIH (R235). -/
def execPeSlih (e : Nat) (o : PeOp) (s : State) : Host.Outcome State Fault Refusal :=
  .next (s.peStep e 0x0C o peSlih)

/-- SLT (R235). -/
def execPeSlt (e : Nat) (o : PeOp) (s : State) : Host.Outcome State Fault Refusal :=
  .next (s.peStep e 0x0D o peSlt)

/-- SPRM (R241). -/
def execPeSprm (e : Nat) (o : PeOp) (s : State) : Host.Outcome State Fault Refusal :=
  .next (s.peStep e 0x0E o peSprm)

/-- BR (R235). -/
def execPeBr (e : Nat) (o : PeOp) (s : State) : Host.Outcome State Fault Refusal :=
  .next (s.peStep e 0x10 o peBr)

/-- END (R230). -/
def execPeEnd (e : Nat) (o : PeOp) (s : State) : Host.Outcome State Fault Refusal :=
  .next (s.peStep e 0x11 o peEnd)

/-- VADD (R235). -/
def execPeVadd (e : Nat) (o : PeOp) (s : State) : Host.Outcome State Fault Refusal :=
  .next (s.peStep e 0x20 o peVadd)

/-- VSUB (R235). -/
def execPeVsub (e : Nat) (o : PeOp) (s : State) : Host.Outcome State Fault Refusal :=
  .next (s.peStep e 0x21 o peVsub)

/-- VMULSH (R235). -/
def execPeVmulsh (e : Nat) (o : PeOp) (s : State) : Host.Outcome State Fault Refusal :=
  .next (s.peStep e 0x22 o peVmulsh)

/-- VMADSH (R235). -/
def execPeVmadsh (e : Nat) (o : PeOp) (s : State) : Host.Outcome State Fault Refusal :=
  .next (s.peStep e 0x23 o peVmadsh)

/-- VMIN (R235). -/
def execPeVmin (e : Nat) (o : PeOp) (s : State) : Host.Outcome State Fault Refusal :=
  .next (s.peStep e 0x24 o peVmin)

/-- VMAX (R235). -/
def execPeVmax (e : Nat) (o : PeOp) (s : State) : Host.Outcome State Fault Refusal :=
  .next (s.peStep e 0x25 o peVmax)

/-- VABS (R235). -/
def execPeVabs (e : Nat) (o : PeOp) (s : State) : Host.Outcome State Fault Refusal :=
  .next (s.peStep e 0x26 o peVabs)

/-- VAND (R235). -/
def execPeVand (e : Nat) (o : PeOp) (s : State) : Host.Outcome State Fault Refusal :=
  .next (s.peStep e 0x27 o peVand)

/-- VOR (R235). -/
def execPeVor (e : Nat) (o : PeOp) (s : State) : Host.Outcome State Fault Refusal :=
  .next (s.peStep e 0x28 o peVor)

/-- VXOR (R235). -/
def execPeVxor (e : Nat) (o : PeOp) (s : State) : Host.Outcome State Fault Refusal :=
  .next (s.peStep e 0x29 o peVxor)

/-- VSHLI (R235). -/
def execPeVshli (e : Nat) (o : PeOp) (s : State) : Host.Outcome State Fault Refusal :=
  .next (s.peStep e 0x2A o peVshli)

/-- VSRLI (R235). -/
def execPeVsrli (e : Nat) (o : PeOp) (s : State) : Host.Outcome State Fault Refusal :=
  .next (s.peStep e 0x2B o peVsrli)

/-- VSRAI (R235). -/
def execPeVsrai (e : Nat) (o : PeOp) (s : State) : Host.Outcome State Fault Refusal :=
  .next (s.peStep e 0x2C o peVsrai)

/-- VRSH (R235). -/
def execPeVrsh (e : Nat) (o : PeOp) (s : State) : Host.Outcome State Fault Refusal :=
  .next (s.peStep e 0x2D o peVrsh)

/-- VCLAMP (R235). -/
def execPeVclamp (e : Nat) (o : PeOp) (s : State) : Host.Outcome State Fault Refusal :=
  .next (s.peStep e 0x2E o peVclamp)

/-- VSEL (R235). -/
def execPeVsel (e : Nat) (o : PeOp) (s : State) : Host.Outcome State Fault Refusal :=
  .next (s.peStep e 0x2F o peVsel)

/-- VCMPLT (R235). -/
def execPeVcmplt (e : Nat) (o : PeOp) (s : State) : Host.Outcome State Fault Refusal :=
  .next (s.peStep e 0x30 o peVcmplt)

/-- VCMPEQ (R235). -/
def execPeVcmpeq (e : Nat) (o : PeOp) (s : State) : Host.Outcome State Fault Refusal :=
  .next (s.peStep e 0x31 o peVcmpeq)

/-- VCMPLE (R235). -/
def execPeVcmple (e : Nat) (o : PeOp) (s : State) : Host.Outcome State Fault Refusal :=
  .next (s.peStep e 0x32 o peVcmple)

/-- VSPL (R235). -/
def execPeVspl (e : Nat) (o : PeOp) (s : State) : Host.Outcome State Fault Refusal :=
  .next (s.peStep e 0x33 o peVspl)

/-- VBRD (R235). -/
def execPeVbrd (e : Nat) (o : PeOp) (s : State) : Host.Outcome State Fault Refusal :=
  .next (s.peStep e 0x34 o peVbrd)

/-- VPACK (R235). -/
def execPeVpack (e : Nat) (o : PeOp) (s : State) : Host.Outcome State Fault Refusal :=
  .next (s.peStep e 0x35 o peVpack)

/-- VUNPL (R235). -/
def execPeVunpl (e : Nat) (o : PeOp) (s : State) : Host.Outcome State Fault Refusal :=
  .next (s.peStep e 0x36 o peVunpl)

/-- VUNPH (R235). -/
def execPeVunph (e : Nat) (o : PeOp) (s : State) : Host.Outcome State Fault Refusal :=
  .next (s.peStep e 0x37 o peVunph)

/-- VSHUF (R235). -/
def execPeVshuf (e : Nat) (o : PeOp) (s : State) : Host.Outcome State Fault Refusal :=
  .next (s.peStep e 0x38 o peVshuf)

/-- VEXT (R235). -/
def execPeVext (e : Nat) (o : PeOp) (s : State) : Host.Outcome State Fault Refusal :=
  .next (s.peStep e 0x39 o peVext)

/-- VINS (R235). -/
def execPeVins (e : Nat) (o : PeOp) (s : State) : Host.Outcome State Fault Refusal :=
  .next (s.peStep e 0x3A o peVins)

/-- VRED (R235). -/
def execPeVred (e : Nat) (o : PeOp) (s : State) : Host.Outcome State Fault Refusal :=
  .next (s.peStep e 0x3B o peVred)

/-- FADD (R236). -/
def execPeFadd (e : Nat) (o : PeOp) (s : State) : Host.Outcome State Fault Refusal :=
  .next (s.peStep e 0x40 o peFadd)

/-- FSUB (R236). -/
def execPeFsub (e : Nat) (o : PeOp) (s : State) : Host.Outcome State Fault Refusal :=
  .next (s.peStep e 0x41 o peFsub)

/-- FMUL (R236). -/
def execPeFmul (e : Nat) (o : PeOp) (s : State) : Host.Outcome State Fault Refusal :=
  .next (s.peStep e 0x42 o peFmul)

/-- FMA (R236). -/
def execPeFma (e : Nat) (o : PeOp) (s : State) : Host.Outcome State Fault Refusal :=
  .next (s.peStep e 0x43 o peFma)

/-- FMIN (R235). -/
def execPeFmin (e : Nat) (o : PeOp) (s : State) : Host.Outcome State Fault Refusal :=
  .next (s.peStep e 0x44 o peFmin)

/-- FMAX (R235). -/
def execPeFmax (e : Nat) (o : PeOp) (s : State) : Host.Outcome State Fault Refusal :=
  .next (s.peStep e 0x45 o peFmax)

/-- FCVTIF (R235). -/
def execPeFcvtif (e : Nat) (o : PeOp) (s : State) : Host.Outcome State Fault Refusal :=
  .next (s.peStep e 0x46 o peFcvtif)

/-- FCVTFI (R235). -/
def execPeFcvtfi (e : Nat) (o : PeOp) (s : State) : Host.Outcome State Fault Refusal :=
  .next (s.peStep e 0x47 o peFcvtfi)

/-- FRCP (R235). -/
def execPeFrcp (e : Nat) (o : PeOp) (s : State) : Host.Outcome State Fault Refusal :=
  .next (s.peStep e 0x48 o peFrcp)

/-- FRSQ (R235). -/
def execPeFrsq (e : Nat) (o : PeOp) (s : State) : Host.Outcome State Fault Refusal :=
  .next (s.peStep e 0x49 o peFrsq)

/-- FLOG2 (R235). -/
def execPeFlog2 (e : Nat) (o : PeOp) (s : State) : Host.Outcome State Fault Refusal :=
  .next (s.peStep e 0x4A o peFlog2)

/-- FEXP2 (R235). -/
def execPeFexp2 (e : Nat) (o : PeOp) (s : State) : Host.Outcome State Fault Refusal :=
  .next (s.peStep e 0x4B o peFexp2)

/-- VLD (R238). -/
def execPeVld (e : Nat) (o : PeOp) (s : State) : Host.Outcome State Fault Refusal :=
  .next (s.peStep e 0x60 o peVld)

/-- VST (R238). -/
def execPeVst (e : Nat) (o : PeOp) (s : State) : Host.Outcome State Fault Refusal :=
  .next (s.peStep e 0x61 o peVst)

/-- VGATH (R238). -/
def execPeVgath (e : Nat) (o : PeOp) (s : State) : Host.Outcome State Fault Refusal :=
  .next (s.peStep e 0x62 o peVgath)

/-- SLD (R238). -/
def execPeSld (e : Nat) (o : PeOp) (s : State) : Host.Outcome State Fault Refusal :=
  .next (s.peStep e 0x63 o peSld)

/-- SST (R238). -/
def execPeSst (e : Nat) (o : PeOp) (s : State) : Host.Outcome State Fault Refusal :=
  .next (s.peStep e 0x64 o peSst)

/-- WLD (R239). -/
def execPeWld (e : Nat) (o : PeOp) (s : State) : Host.Outcome State Fault Refusal :=
  .next (s.peStep e 0x70 o peWld)

/-- WST (R240). -/
def execPeWst (e : Nat) (o : PeOp) (s : State) : Host.Outcome State Fault Refusal :=
  .next (s.peStep e 0x71 o peWst)

end Sys2Proof.Machine
end

