-- ==== Sys2Proof/Machine/ThermOps.lean ====
section
/-!
DEFINITION. Thermal sensors, policy and trip as shared operations (spec/17_power_thermal_reset.md, R494 to R501).
-/

namespace Sys2Proof.Machine

/-! ## Sensors (R494, R495) -/

/-- The 28 sensors. -/
def sensors : List Nat := List.range 28

/-- A sensor takes part: those of absent HBM stacks do not. -/
def State.sensorOn (s : State) (k : Nat) : Bool := decide (k < 24 + s.variant.hbmStacks)

/-- The trimmed reading: offset plus raw times gain, the gain in G2.14 (R494, R504). -/
def State.trimmed (s : State) (k : Nat) (raw : Int) : Int :=
  if !s.sensorOn k then 0
  else match calPart s.seed.cal 2 with
    | some p => signedOf 16 (fieldAt s.seed.cal (p + 4 * k) 2)
        + raw * (fieldAt s.seed.cal (p + 4 * k + 2) 2 : Nat) / (16384 : Nat)
    | none => raw

/-- The newest reading of a sensor. -/
def State.temp (s : State) (k : Nat) : Int := (s.power.samples.at [] k).headD 0

/-- The rate of a sensor over the last 64 ms, rounded towards zero (R495); none while fewer samples have been taken. -/
def State.sensorRate (s : State) (k : Nat) : Option Int :=
  let l := s.power.samples.at [] k
  match l.head?, l[64]? with
  | some a, some b => some (Int.tdiv ((a - b) * 1000) 64)
  | _, _ => none

/-- Every sensor takes a sample: its reading and its rate. A rate for which the reading 64 ms ago is missing is a free
value; an absent sensor reads 0. -/
def State.sampleAll (s : State) (raw : List Int) : State :=
  sensors.foldl (fun (x : State) k =>
    let t := x.trimmed k (raw.getD k 0)
    let y := { x with power := { x.power with samples := x.power.samples.put [] k ((t :: x.power.samples.at [] k).take 65) } }
    let z := y.setF (F.THM_SENSOR_TEMP k) (patternOf 16 t)
    if !y.sensorOn k then z.setF (F.THM_SENSOR_RATE k) 0
    else match y.sensorRate k with
      | some r => z.setF (F.THM_SENSOR_RATE k) (patternOf 16 r)
      | none => (z.setF (F.THM_SENSOR_RATE k) (z.free % 65536)).freed) s

/-- HOT_REFRESH of each stack: its sensor reads above 85 °C (R354). -/
def State.hotRefresh (s : State) : State :=
  if s.up 8 then
    (List.range s.variant.hbmStacks).foldl (fun x k => x.setB (F.MEM_STK_STATUS_HOT_REFRESH k) (decide (680 < x.temp (24 + k)))) s
  else s

/-- The rate a sensor reports, 1/8 °C/s. -/
def State.rateOf (s : State) (k : Nat) : Int := s.getS (F.THM_SENSOR_RATE k)

/-- The sensors that take part. -/
def State.liveSensors (s : State) : List Nat := sensors.filter s.sensorOn

/-! ## Limits (R57, R495) -/

def State.warnRate (s : State) : Int := s.getF (F.THM_LIMIT_LOW 0)
def State.throttleRate (s : State) : Int := s.getF (F.THM_LIMIT_HIGH 0)
def State.throttleHold (s : State) : Nat := s.getF (F.THM_LIMIT_LOW 1)
def State.graceMs (s : State) : Nat := s.getF (F.THM_LIMIT_HIGH 1)
def State.absLevel (s : State) : Int := s.getF F.THM_ABS_LEVEL

/-! ## Steps in force (R496 to R498) -/

/-- Bring STEPS and THERM_ALERT_N up to date: the ball is low while REQ is 1 or a step is in force. -/
def State.alertSync (s : State) : State :=
  (s.setF F.THM_STATUS_STEPS (min s.power.steps.length 31)).setAlert (s.bit F.THM_STATUS_REQ || !s.power.steps.isEmpty)

/-- What a thermal step did, found by comparing the states before and after it: taps stopped, contexts marked to end, bed
clocks lowered, heads stopped. -/
def stepUndo (s t : State) : List (Nat × Nat × Nat) :=
  let beds := List.range s.variant.beds
  let newly (f : Nat → Field) (n : Nat) : Bool := !s.bit (f n) && t.bit (f n)
  let ctxs := beds.flatMap fun e => (List.range 8).map fun c => (e, c)
  let shed (x : State) (a : Nat × Nat) : Bool := (x.encCtx a.1 a.2).shedDue || (x.stream a.1 a.2).dec.shedDue
  (beds.filter (newly F.BED_STATUS_PROXY_OFF)).map (fun n => (1, n, 0))
    ++ (beds.filter (newly F.BED_STATUS_RAW_OFF)).map (fun n => (4, n, 0))
    ++ (ctxs.filter fun a => !shed s a && shed t a).map (fun a => (2, a.1, a.2))
    ++ (s.bedLeads.filter fun n => s.clockNow n != t.clockNow n).map (fun n => (3, n, 0))
    ++ (s.headList.filter fun h => !(s.head h).offDue && (t.head h).offDue).map (fun h => (5, h, 0))

/-- The next step of trigger 1 that is not in force, or the built-in step (R60, R497): lowering every bed's clock, unless
all are at the lowest. The records carry KEPT 1 and REASON 0x0002. -/
def State.thermalStep (s : State) : State :=
  let used := s.power.steps.filterMap (·.index)
  let c : StepCause := { trigger := 1, inst := 0xFFFF }
  let finish (t : State) (recs : List StepRecord) (i : Option Nat) : State :=
    let t1 := { t with power := { t.power with steps := { index := i, undo := stepUndo s t } :: t.power.steps } }
    (recs.foldl (fun x r => x.concede r.block r.inst r.broken 1 0x0002 r.detail) (t1.flag F.THM_ERR_ENFORCED)).alertSync
  match (s.planSteps 1).find? fun p => !used.contains p.index with
  | some p => let (t, recs, _) := s.applyStep c p; finish t recs (some p.index)
  | none =>
    let (t, recs) := foldSteps (fun x n => x.clockMove n false) s s.bedLeads
    if (s.bedLeads.all fun n => s.clockNow n == t.clockNow n) then s else finish t recs none

/-- Undo one thing a thermal step did (R498): what a step of another trigger holds stays. -/
def State.undoOne (s : State) (u : Nat × Nat × Nat) : State :=
  let n := u.2.1
  if s.power.forced.contains (u.1, n) && u.1 != 3 then s
  else match u.1 with
    | 1 => s.unflag (F.BED_STATUS_PROXY_OFF n)
    | 4 => s.unflag (F.BED_STATUS_RAW_OFF n)
    | 5 => s.setHead n { s.head n with offDue := false }
    | 3 => (s.clockMove n true).1
    | 2 =>
      let c := u.2.2
      if s.ctxIs n c 0 then
        if s.getF (F.SE_CTX_STATUS_STATE n c) = 3 then s.shedReverse n c
        else (s.cells n c).foldl (fun (x : State) (a, b) => x.setEnc a b { x.encCtx a b with shedDue := false }) s
      else
        let x := s.stream n c
        let s1 := s.setStream n c { x with dec := if s.getF (F.DEC_STATUS_STATE n c) = 3 then {} else { x.dec with shedDue := false } }
        if s.getF (F.DEC_STATUS_STATE n c) = 3 then s1.setF (F.DEC_STATUS_STATE n c) 0 else s1
    | _ => s

/-- The newest thermal step is reversed, and is unused again (R498). The built-in step raises every bed one clock step. -/
def State.stepReverse (s : State) : State :=
  match s.power.steps with
  | [] => s
  | x :: rest =>
    let s1 := { s with power := { s.power with steps := rest, reliefRun := 1001 } }
    (match x.index with
      | some _ => x.undo.foldl State.undoOne s1
      | none => (foldSteps (fun y n => y.clockMove n true) s1 s1.bedLeads).1).alertSync

/-! ## Policy (R495, R496) -/

/-- The policy is evaluated: in Growing, once seeding is over (R495). -/
def State.policyOn (s : State) : Bool := s.alive && s.pwr == 0 && s.seed.running && s.seed.due == 0

/-- Warn: its entry sets WARN and ERR.WARN and fires source 158. -/
def State.warnPolicy (s : State) : State :=
  let warn := s.liveSensors.any fun k => decide (s.warnRate ≤ s.rateOf k)
  let was := s.bit F.THM_STATUS_WARN
  (s.setB F.THM_STATUS_WARN warn).when (warn && !was) fun x => (x.flag F.THM_ERR_WARN).fireSource 158

/-- The throttle request begins (R496). -/
def State.throttleBegin (s : State) : State :=
  let s1 := ((s.flag F.THM_STATUS_REQ).flag F.THM_ERR_REQ).setF F.THM_STATUS_GRACE_LEFT s.graceMs
  let s2 := { s1 with power := { s1.power with grace := true, stepTimer := false, relieved := false } }
  ((s2.alertSync).when (s2.bit F.THM_CTL_MSIX_EN) (·.raise 65)).fireSource 159

/-- The throttle condition: it begins by a rate held for THROTTLE_HOLD ms or a reading at LEVEL, and ends at the first
sample with neither a rate at THROTTLE_RATE nor a reading at LEVEL. -/
def State.throttlePolicy (s : State) : State :=
  let hot := s.liveSensors.filter fun k => decide (s.throttleRate ≤ s.rateOf k)
  let s1 := { s with power := { s.power with
    hotRun := sensors.foldl (fun m k => m.put 0 k (if hot.contains k then s.power.hotRun.at 0 k + 1 else 0)) s.power.hotRun } }
  let above := s.liveSensors.any fun k => decide (s.absLevel ≤ s.temp k)
  let held := hot.any fun k => decide (s.throttleHold + 1 ≤ s1.power.hotRun.at 0 k)
  let was := s.bit F.THM_STATUS_COND
  let cond := above || held || (was && !hot.isEmpty)
  (s1.setB F.THM_STATUS_COND cond).when (cond && !was && !s.bit F.THM_STATUS_REQ) State.throttleBegin

/-- Relief counts while every rate is below WARN_RATE and every reading below LEVEL less 2 °C. -/
def State.reliefPolicy (s : State) : State :=
  let calm := s.liveSensors.all fun k => decide (s.rateOf k < s.warnRate) && decide (s.temp k < s.absLevel - 16)
  if calm then { s with power := { s.power with reliefRun := s.power.reliefRun + 1 } }
  else { s with power := { s.power with reliefRun := 0, relieved := false } }.unflag F.THM_STATUS_RELIEF

/-- One millisecond of the grace time passes. -/
def State.graceTick (s : State) : State :=
  if s.power.grace then s.setF F.THM_STATUS_GRACE_LEFT (s.getF F.THM_STATUS_GRACE_LEFT - 1) else s

/-! ## The trip (R499) -/

/-- The long stamp at a resolution of 8 ns. -/
def State.coarseStamp (s : State) : Nat := patternOf 64 (s.corrAt (s.time.counter.toNat * 256 % 2 ^ 64) / 2048)

/-- The trip acts: every domain outside the Rootstock domain loses power, and a load is abandoned (R71, R499). Registers
outside it return to their reset values at the restart, and nothing can read them before. -/
def State.trip (s : State) (k : Nat) (t : Int) : State :=
  let stamp := s.coarseStamp
  let level := s.getF (F.THM_LIMIT_LOW 2)
  let retired := s.retiredEngines
  let s1 := ((s.clearParts (fastBlocks ++ [12])).plotsLost).markRetired retired
  let s2 := { s1 with
    held := [], staged := []
    seed := { s1.seed with image := [], running := false, due := 0, job := none, pllFails := 0, fwFails := 0 }
    power := { s1.power.fresh with
      restartLevel := if level = 0 then 680 else level, tripDue := some (k, t, stamp), pcieUp := false } }
  let s3 := (((s2.setF F.THM_TRIP_STAMP stamp).setF F.THM_TRIP_INFO_SENSOR k).bump F.THM_TRIP_INFO_COUNT).setPwr 5
  (((s3.unflag F.TIME_STATUS_INTERP_LOCK).setBypass true).setTrip true).setAlert true |>.setDriveReset true

/-- A tripped device counts the samples at which every sensor is below RESTART_LEVEL (R500). -/
def State.coolTick (s : State) : State :=
  let cool := s.liveSensors.all fun k => decide (s.temp k < s.power.restartLevel)
  { s with power := { s.power with coolRun := if cool then s.power.coolRun + 1 else 0 } }

/-- One sample of every sensor (R495, R496, R499, R500). -/
def State.thermalSample (s : State) (raw : List Int) : State :=
  let s1 := (s.sampleAll raw).hotRefresh
  if s.pwr = 5 then s1.coolTick
  else match s1.liveSensors.find? fun k => decide (944 ≤ s1.temp k) with
    | some k => s1.trip k (s1.temp k)
    | none => if s1.policyOn then s1.graceTick.warnPolicy.throttlePolicy.reliefPolicy else s1

end Sys2Proof.Machine
end

