-- ==== Sys2Proof/Machine/Thermal.lean ====
section
/-!
DEFINITION. The commands of thermal protection (spec/17_power_thermal_reset.md, R494 to R501) and of boundary scan (R520).
-/

namespace Sys2Proof.Machine

/-- THERMAL_SAMPLE (R494 to R496): the raw readings of the 28 sensors, in 1/8 °C. -/
def execThermalSample (raw : List Int) (s : State) : Host.Outcome State Fault Refusal :=
  .next (if s.power.powerGood then s.thermalSample raw else s)

/-- THROTTLE_GRACE_EXPIRE (R497): the grace time ends before relief. -/
def execThrottleGraceExpire (s : State) : Host.Outcome State Fault Refusal :=
  .next <|
    if s.policyOn && s.power.grace && s.bit F.THM_STATUS_REQ && s.getF F.THM_STATUS_GRACE_LEFT == 0 then
      ({ s with power := { s.power with grace := false, stepTimer := true } }).thermalStep
    else s

/-- THROTTLE_STEP_TIMER (R497): a further second of the throttle condition. -/
def execThrottleStepTimer (s : State) : Host.Outcome State Fault Refusal :=
  .next <|
    if s.policyOn && s.power.stepTimer && s.bit F.THM_STATUS_REQ && s.bit F.THM_STATUS_COND then s.thermalStep else s

/-- THERMAL_RELIEF (R495, R497): relief has held for 1 s. -/
def execThermalRelief (s : State) : Host.Outcome State Fault Refusal :=
  .next <|
    if s.policyOn && decide (1001 ≤ s.power.reliefRun) && !s.power.relieved then
      let s1 := ((s.flag F.THM_STATUS_RELIEF).unflag F.THM_STATUS_REQ).unflag F.THM_STATUS_GRACE_LEFT
      ({ s1 with power := { s1.power with grace := false, stepTimer := false, relieved := true } }).alertSync
    else s

/-- THERMAL_STEP_REVERSE (R498): relief has held for 10 s more. -/
def execThermalStepReverse (s : State) : Host.Outcome State Fault Refusal :=
  .next (if s.policyOn && s.bit F.THM_STATUS_RELIEF && decide (11001 ≤ s.power.reliefRun) then s.stepReverse else s)

/-- THERMAL_TRIP (R499): a sensor reads 118 °C or more. -/
def execThermalTrip (sensor : Nat) (reading : Int) (s : State) : Host.Outcome State Fault Refusal :=
  .next <|
    if s.power.powerGood && decide (s.pwr ≠ 5) && decide (sensor < 28) && s.sensorOn sensor && decide (944 ≤ reading) then
      s.trip sensor reading
    else s

/-- TRIP_RESTART (R500, R501): 10 s below RESTART_LEVEL, and RESET_N high. -/
def execTripRestart (s : State) : Host.Outcome State Fault Refusal :=
  .next (if s.alive && s.pwr == 5 && decide (10000 ≤ s.power.coolRun) then (s.pinReset .trip).setTrip false else s)

/-! ## Boundary scan (R520) -/

/-- The TAP works while VDD_AO and VDD_IO are within tolerance. -/
def State.scanOn (s : State) : Bool := s.power.railFault != 2

/-- The identification code. -/
def idcodeOf : Variant → Nat
  | .qc8816 => 0x188165E3 | .qc8808 => 0x188085E3 | .qc8804 => 0x188045E3

/-- Levels at the balls that a capture sees: RESET_N, THERM_ALERT_N, THERM_TRIP_N, PCIE_WAKE_N, RPr_PERST_N, EVT 0 to 31. -/
def State.ballLevels (s : State) : List Bool :=
  [!s.power.resetLow, !s.power.thermAlert, !s.power.thermTrip, !s.power.pcieWakeLow, !s.power.driveReset]
    ++ (List.range 32).map s.ballLevel

/-- An instruction is loaded. `pins` marks those that act only while RESET_N is low and act as BYPASS otherwise, `capture`
those that capture the balls. -/
def State.tapLoad (s : State) (i : TapInstr) (pins capture : Bool) : State :=
  if !s.scanOn then s
  else
    let acts := !pins || s.power.resetLow
    { s with tap := { instr := i, acts, captured := if capture && acts then s.ballLevels else s.tap.captured } }

/-- EXTEST (R520). -/
def execJtagExtest (s : State) : Host.Outcome State Fault Refusal := .next (s.tapLoad .extest true true)

/-- SAMPLE/PRELOAD (R520). -/
def execJtagSamplePreload (s : State) : Host.Outcome State Fault Refusal := .next (s.tapLoad .samplePreload false true)

/-- IDCODE (R520): the identification code is selected. -/
def execJtagIdcode (s : State) : Host.Outcome State Fault Refusal :=
  .next (if s.scanOn then { s.tapLoad .idcode false false with lastRead := [idcodeOf s.variant] } else s)

/-- CLAMP (R520). -/
def execJtagClamp (s : State) : Host.Outcome State Fault Refusal := .next (s.tapLoad .clamp true false)

/-- HIGHZ (R520). -/
def execJtagHighz (s : State) : Host.Outcome State Fault Refusal := .next (s.tapLoad .highz true false)

/-- BYPASS (R520). -/
def execJtagBypass (s : State) : Host.Outcome State Fault Refusal := .next (s.tapLoad .bypass false false)

/-- TAP_RESET (R520): IDCODE is selected. -/
def execTapReset (s : State) : Host.Outcome State Fault Refusal := .next { s with tap := { s.tap with instr := .idcode, acts := true } }

end Sys2Proof.Machine
end

