-- ==== Sys2Proof/Machine/Twine.lean ====
section
/-!
DEFINITION. The commands of Twine (spec/16_signalling.md, R450 to R468).
-/

namespace Sys2Proof.Machine

/-! ## Events at the balls (R451, R454) -/

/-- The edge of a source 0 to 31 that a channel record selects: 0 rising, 1 falling, 2 both (R462). -/
def State.edgeMatches (s : State) (c : Nat) (level : Bool) : Bool :=
  match s.chanRec c with
  | some r =>
    let e := bitsOf (byteAt s.seed.image (r + 7)) 1 2
    e == 2 || (e == 0 && level) || (e == 1 && !level)
  | none => false

/-- The channels that carry the events of a source. -/
def State.sourceChannels (s : State) (src : Nat) : List Nat :=
  (List.range 256).filter fun c => s.chanValid c && s.getF (F.TWN_CH_CFG_SOURCE c) == src

/-- The level at ball `b` changes from outside. -/
def State.evtEdge (s : State) (b : Nat) (level : Bool) : State :=
  if s.twine.evtIn.at false b = level then s
  else
    let s1 := { s with twine := { s.twine with evtIn := s.twine.evtIn.put false b level } }
    if s1.twineRuns then
      (((s1.sourceChannels b).filter fun c => s1.edgeMatches c level).foldl State.placeEvent s1).ballChanged b
    else s1

/-- EVT_EDGE (R451, R454, R458). -/
def execEvtEdge (ball : Nat) (level : Bool) (s : State) : Host.Outcome State Fault Refusal :=
  .next (if ball < 32 then s.evtEdge ball level else s)

/-! ## Tasks (R454 to R456) -/

/-- The state of task `t`. -/
def State.task (s : State) (t : Nat) : TwineTask := s.twine.tasks.at {} t
def State.setTask (s : State) (t : Nat) (x : TwineTask) : State :=
  { s with twine := { s.twine with tasks := s.twine.tasks.put {} t x } }

/-- Whether a task is busy (R454): a pulse that is high, a wake not yet complete, a stream engine request accepted within
20 ns or an engine that does not run. -/
def State.taskBusy (s : State) (t : Nat) : Bool :=
  if t < 32 then (s.task t).busy
  else if t < 128 then false
  else if t = 128 then s.power.wakeWaits != 0 || s.pwr == 4
  else
    !s.up 6 || (match (s.task t).last with
      | some x => decide ((s.ticks + 2 ^ 64 - x) % 2 ^ 64 < 640)
      | none => false)

/-- What a task does when it accepts an event (R454, R475, R485, R269, R270). -/
def State.taskAct (s : State) (t param : Nat) : State :=
  if t < 32 then
    match bitsOf param 0 2 with
    | 0 => (s.setTask t { s.task t with busy := true }).driveBall t true
    | 1 => s.driveBall t (!s.twine.evtOut.at false t)
    | 2 => s.driveBall t true
    | _ => s.driveBall t false
  else if t < 48 then s.groupEnTask (t - 32)
  else if t < 64 then s.groupDisable (t - 48) true
  else if t < 128 then (if s.mailBound (t - 64) then s.mailRing (t - 64) 0x80000000#32 else s)
  else if t = 128 then s.wake 1
  else
    let k := t - 256
    s.keyRequest (k / 16) (k % 16 / 2) (k % 2 == 1)

/-- An event reaches a task (R455, R456): a second one within the acceptance window merges, one at a busy task is
discarded. -/
def State.taskEvent (s : State) (t param : Nat) : State :=
  if s.coincides (s.task t).last then s.bump (F.TWN_TASK_MERGED t)
  else if s.taskBusy t then
    ((s.flag (F.TWN_TASK_OVERRUN t)).bump (F.TWN_TASK_OVERRUNS t)).flag F.TWN_ERR_OVERRUN
  else (s.setTask t { s.task t with last := some s.ticks }).taskAct t param

/-! ## Channels (R450, R453, R457, R460, R468) -/

/-- The vector of a channel (R457). -/
def State.chanVector (s : State) (c : Nat) : State :=
  if s.bit (F.TWN_CH_CFG_VEC c) then
    (s.flag ⟨R.TWN_PEND (c / 32), c % 32, 1⟩).when (s.bit F.TWN_CTL_MSIX_EN && s.power.pcieUp) (·.raise (132 + c))
  else s

/-- An event of a channel is delivered: to its vector, to the flip-flops it clocks, to the knots that read it, and to
the tasks of its fork. -/
def State.deliver (s : State) (c : Nat) : State :=
  let s1 := ((s.chanVector c).knotClock c).pulseRise c
  (s.forks c).foldl (fun x f => x.taskEvent f.1 f.2) s1

/-- The oldest event waiting on channel `c` happens. One that coincides with the event before is one event with it
(R468); the counters and the stamp count events of a disabled group too, which go nowhere (R460). -/
def State.channelEvent (s : State) (c : Nat) : State :=
  match s.twine.due.find? fun e => e.channel == c with
  | none => s
  | some e =>
    let s0 := { s with twine := { s.twine with due := s.twine.due.erase e } }
    if !s0.twineRuns || !s0.chanValid c then s0
    else if s0.coincides (s0.twine.lastEvent.at none c) then
      (s0.forks c).foldl (fun x f => x.bump (F.TWN_TASK_MERGED f.1)) (s0.bump (F.TWN_CH_COUNT_MERGED c))
    else
      let s1 := { s0 with twine := { s0.twine with lastEvent := s0.twine.lastEvent.put none c (some s0.ticks) } }
      let s2 := (s1.bump (F.TWN_CH_COUNT_EVENTS c)).setF (F.TWN_CH_STAMP_STAMP c) (patternOf 64 (s1.corrAt e.tick / 2048))
      let g := s2.getF (F.TWN_CH_CFG_GROUP c)
      if s2.groupOpen g then s2.deliver c else s2

/-- TWINE_CHANNEL_EVENT (R450, R453 to R457). -/
def execTwineChannelEvent (channel : Nat) (s : State) : Host.Outcome State Fault Refusal := .next (s.channelEvent channel)

/-- EVT_OUT_PULSE_END (R454): the pulse of an EVT_OUT task ends. -/
def execEvtOutPulseEnd (ball : Nat) (s : State) : Host.Outcome State Fault Refusal :=
  .next <|
    if decide (ball < 32) && (s.task ball).busy then
      (s.setTask ball { s.task ball with busy := false }).driveBall ball false
    else s

/-! ## Knots (R459, R461) -/

/-- KNOT_FILTER_PASS (R459): a change of L has held for the filter width. -/
def execKnotFilterPass (knot : Nat) (s : State) : Host.Outcome State Fault Refusal :=
  .next <| match (s.knot knot).filtering, s.knotRec knot with
    | some l, some r => if s.twineRuns then s.knotPass knot r l else s
    | _, _ => s

/-- The limit of the loop guard of the knot at a record: 0 stands for 64 (R44, R461). -/
def guardLimit (img : List Byte) (r : Nat) : Nat :=
  let g := fieldAt img (r + 16) 2
  if g = 0 then 64 else g

/-- The changes of O of a knot within the last 1 µs exceed its limit. -/
def State.guardExceeded (s : State) (k : Nat) : Bool :=
  match s.knotRec k with
  | some r => decide (guardLimit s.seed.image r <
      ((s.knot k).changes.filter fun t => decide ((s.ticks + 2 ^ 64 - t) % 2 ^ 64 < 32000)).length)
  | none => false

/-- The loop guard of a knot trips. -/
def State.guardTrip (s : State) (k : Nat) : State :=
  let g := s.getF (F.TWN_CH_CFG_GROUP (s.getF (F.TWN_KNOT_CFG_OUT_CH k)))
  let s1 := (s.groupDisable g true).flag (F.TWN_KNOT_STATE_LOOP_GUARD k)
  (s1.flag ⟨R.TWN_GUARD_MAP, g, 1⟩).flag F.TWN_ERR_LOOP_GUARD

/-- LOOP_GUARD_TRIP (R461). -/
def execLoopGuardTrip (knot : Nat) (s : State) : Host.Outcome State Fault Refusal :=
  .next (if s.twineRuns && s.guardExceeded knot then s.guardTrip knot else s)

/-! ## Registers and timers (R460, R466, R467) -/

/-- A write of a Twine register acts where it reaches the block (R28, R484). -/
def State.twnWrite (s : State) (f : State → State) : State := s.bus 12 f

/-- TWN_FIRE_WRITE (R466). -/
def execTwnFireWrite (k : Nat) (val : Word) (s : State) : Host.Outcome State Fault Refusal :=
  .next (s.twnWrite fun x => if k < 8 then x.fireWrite k val else x)

/-- TWINE_TIMER_FIRE (R467): AT of an armed timer has come. -/
def execTwineTimerFire (k : Nat) (s : State) : Host.Outcome State Fault Refusal :=
  .next (if decide (k < 8) && s.bit (F.TWN_TIMER_CTL_EN k) && s.timerDue k then s.timerFire k else s)

/-- TWN_TIMER_AT_WRITE (R12, R467): the high word applies with the low word held, or in force. -/
def execTwnTimerAtWrite (k : Nat) (high : Word) (s : State) : Host.Outcome State Fault Refusal :=
  .next <| s.twnWrite fun x =>
    if k < 8 then
      let off := R.TWN_TIMER_AT k + 4
      ({ x with held := x.held.erase (off - 4) }).timerAt k (x.wide off high)
    else x

/-- TWN_GROUP_WRITE (R460, R468). -/
def execTwnGroupWrite (val : Word) (s : State) : Host.Outcome State Fault Refusal :=
  .next (s.twnWrite (·.groupWrite (val.toNat % 65536)))

/-! ## Parameter pages (R476, R478) -/

/-- The device serves a parameter-page channel: message bytes go to PARAM of the splice point and slot that the receiver
names, and the slot is taken. A slot with an error beyond correction is taken without a write. -/
def State.paramServe (s : State) (c : Nat) (bad : Bool) : State :=
  let x := s.mailReceiver c - 16
  let p := x / 8
  let k := x % 8
  let n := p / 2
  let page := s.page c
  if !s.mailBound c || !s.paramChannel c || page.full == 0 || !s.growing || !s.up 4 || !s.up 5
      || !s.bit (F.BED_SENSOR_VALID n k) || s.bit (F.BED_SHADOW_PENDING n k) then s
  else if bad || page.bad.getLsbD page.head then (s.flag F.MBX_ERR_BAD_TAKEN).mailTake c
  else
    let m := padTo 64 (page.slots.at [] page.head)
    ((List.range 16).foldl (fun y i => y.bedStage n k (R.PE_SPLICE_PARAM p k i) (BitVec.ofNat 32 (fieldAt m (4 * i) 4)))
      s).mailTake c

/-- MBX_PARAM_SERVE (R476, R478). -/
def execMbxParamServe (c : Nat) (bad : Bool) (s : State) : Host.Outcome State Fault Refusal := .next (s.paramServe c bad)

end Sys2Proof.Machine
end

