-- ==== Sys2Proof/Machine/Dispatch.lean ====
section
/-!
DEFINITION. The dispatch: one arm per command, each a direct call of its meaning.
-/

namespace Sys2Proof.Machine

/-- The effect of a command on everything but the queue. -/
def exec (i : Instr) (s : State) : Host.Outcome State Fault Refusal :=
  match i with
  | .registerWrite who off val => Sys2Proof.Machine.execRegisterWrite who off val s
  | .regAccessTimeout write => Sys2Proof.Machine.execRegAccessTimeout write s
  | .bar2Read off len errs => Sys2Proof.Machine.execBar2Read off len errs s
  | .bar2Write off data errs => Sys2Proof.Machine.execBar2Write off data errs s
  | .glbLogRdWrite val meets => Sys2Proof.Machine.execGlbLogRdWrite val meets s
  | .powerOnReset => Sys2Proof.Machine.execPowerOnReset s
  | .powerGood headStrap => Sys2Proof.Machine.execPowerGood headStrap s
  | .pinReset => Sys2Proof.Machine.execPinReset s
  | .resetNRelease => Sys2Proof.Machine.execResetNRelease s
  | .railFault aoOrIo => Sys2Proof.Machine.execRailFault aoOrIo s
  | .railRecover => Sys2Proof.Machine.execRailRecover s
  | .seeding env => Sys2Proof.Machine.execSeeding env s
  | .pllLockTimeout => Sys2Proof.Machine.execPllLockTimeout s
  | .fwStartTimeout => Sys2Proof.Machine.execFwStartTimeout s
  | .loadSlot slot confirm unreadable => Sys2Proof.Machine.execLoadSlot slot confirm unreadable s
  | .loadHostImage confirm img unreadable => Sys2Proof.Machine.execLoadHostImage confirm img unreadable s
  | .storeHostImage slot confirm img unreadable => Sys2Proof.Machine.execStoreHostImage slot confirm img unreadable s
  | .eraseSlot slot confirm => Sys2Proof.Machine.execEraseSlot slot confirm s
  | .checkHostImage img unreadable => Sys2Proof.Machine.execCheckHostImage img unreadable s
  | .slotWriteDone ok => Sys2Proof.Machine.execSlotWriteDone ok s
  | .graftCheckComplete => Sys2Proof.Machine.execGraftCheckComplete s
  | .seedBootWrite val => Sys2Proof.Machine.execSeedBootWrite val s
  | .keyProgram slot confirm => Sys2Proof.Machine.execKeyProgram slot confirm s
  | .keyRevoke slot confirm => Sys2Proof.Machine.execKeyRevoke slot confirm s
  | .tarborOff confirm => Sys2Proof.Machine.execTarborOff confirm s
  | .timeRateWrite high => Sys2Proof.Machine.execTimeRateWrite high s
  | .timeOffsetWrite ns => Sys2Proof.Machine.execTimeOffsetWrite ns s
  | .timeSnapRead => Sys2Proof.Machine.execTimeSnapRead s
  | .timeStepCmd confirm => Sys2Proof.Machine.execTimeStepCmd confirm s
  | .servoReset => Sys2Proof.Machine.execServoReset s
  | .timeCtlWrite val => Sys2Proof.Machine.execTimeCtlWrite val s
  | .servoHoldoverTimeout => Sys2Proof.Machine.execServoHoldoverTimeout s
  | .interpLocked => Sys2Proof.Machine.execInterpLocked s
  | .ptpAnnounceRx m => Sys2Proof.Machine.execPtpAnnounceRx m s
  | .ptpAnnounceTimeout => Sys2Proof.Machine.execPtpAnnounceTimeout s
  | .ptpSyncRx m => Sys2Proof.Machine.execPtpSyncRx m s
  | .ptpFollowUpRx m => Sys2Proof.Machine.execPtpFollowUpRx m s
  | .ptpDelayReqSend => Sys2Proof.Machine.execPtpDelayReqSend s
  | .ptpDelayRespRx m => Sys2Proof.Machine.execPtpDelayRespRx m s
  | .ptpManagementRx port domain smpteTlv body => Sys2Proof.Machine.execPtpManagementRx port domain smpteTlv body s
  | .ppsEdge => Sys2Proof.Machine.execPpsEdge s
  | .frefBoundary n => Sys2Proof.Machine.execFrefBoundary n s
  | .genlockEdge n tri interlaced lines => Sys2Proof.Machine.execGenlockEdge n tri interlaced lines s
  | .genlockLost n => Sys2Proof.Machine.execGenlockLost n s
  | .trugWrite n val last => Sys2Proof.Machine.execTrugWrite n val last s
  | .trugRead n errs tagErrs => Sys2Proof.Machine.execTrugRead n errs tagErrs s
  | .trugReadUnstall n errs tagErrs => Sys2Proof.Machine.execTrugReadUnstall n errs tagErrs s
  | .trugFlush n => Sys2Proof.Machine.execTrugFlush n s
  | .trugFlushDeferred n => Sys2Proof.Machine.execTrugFlushDeferred n s
  | .runRetrain n => Sys2Proof.Machine.execRunRetrain n s
  | .runTierCapWrite n cap => Sys2Proof.Machine.execRunTierCapWrite n cap s
  | .runPstateReq n v => Sys2Proof.Machine.execRunPstateReq n v s
  | .clockActivityDetect n => Sys2Proof.Machine.execClockActivityDetect n s
  | .clockLaneLock n => Sys2Proof.Machine.execClockLaneLock n s
  | .lanesAligned n skews trims => Sys2Proof.Machine.execLanesAligned n skews trims s
  | .trainBlockRx n block ownDone => Sys2Proof.Machine.execTrainBlockRx n block ownDone s
  | .equaliseTimeout n => Sys2Proof.Machine.execEqualiseTimeout n s
  | .trainStateTimeout n => Sys2Proof.Machine.execTrainStateTimeout n s
  | .checkWindowPass n => Sys2Proof.Machine.execCheckWindowPass n s
  | .checkFail n => Sys2Proof.Machine.execCheckFail n s
  | .tierStep n => Sys2Proof.Machine.execTierStep n s
  | .failedRetry n => Sys2Proof.Machine.execFailedRetry n s
  | .restepRx n block => Sys2Proof.Machine.execRestepRx n block s
  | .laneLockLost n lanes => Sys2Proof.Machine.execLaneLockLost n lanes s
  | .laneDegraded n lane corr blkerr => Sys2Proof.Machine.execLaneDegraded n lane corr blkerr s
  | .spareRequestRx n block => Sys2Proof.Machine.execSpareRequestRx n block s
  | .spareDuplicatingRx n block => Sys2Proof.Machine.execSpareDuplicatingRx n block s
  | .spareCompareDone n lost => Sys2Proof.Machine.execSpareCompareDone n lost s
  | .spareSwitchedRx n block => Sys2Proof.Machine.execSpareSwitchedRx n block s
  | .spareNarrowRx n block => Sys2Proof.Machine.execSpareNarrowRx n block s
  | .clockLaneLost n lanes => Sys2Proof.Machine.execClockLaneLost n lanes s
  | .l1IdleTimeout n => Sys2Proof.Machine.execL1IdleTimeout n s
  | .l1EnterRx n block => Sys2Proof.Machine.execL1EnterRx n block s
  | .l1Exit n => Sys2Proof.Machine.execL1Exit n s
  | .l1ExitRx n block => Sys2Proof.Machine.execL1ExitRx n block s
  | .l2EnterRx n => Sys2Proof.Machine.execL2EnterRx n s
  | .l2ExitCheckDone n clean => Sys2Proof.Machine.execL2ExitCheckDone n clean s
  | .rawClockActive n => Sys2Proof.Machine.execRawClockActive n s
  | .rawClockLock n mbps => Sys2Proof.Machine.execRawClockLock n mbps s
  | .sofCode c => Sys2Proof.Machine.execSofCode c s
  | .eofCode c => Sys2Proof.Machine.execEofCode c s
  | .solCode c => Sys2Proof.Machine.execSolCode c s
  | .eolCode c => Sys2Proof.Machine.execEolCode c s
  | .segmentWindowExpire p => Sys2Proof.Machine.execSegmentWindowExpire p s
  | .sofWindowExpire p lanes => Sys2Proof.Machine.execSofWindowExpire p lanes s
  | .frameTimeout p lanes => Sys2Proof.Machine.execFrameTimeout p lanes s
  | .cutMarkerWrite trug => Sys2Proof.Machine.execCutMarkerWrite trug s
  | .ingPruneWrite p vertical val => Sys2Proof.Machine.execIngPruneWrite p vertical val s
  | .mergerEmit m errs => Sys2Proof.Machine.execMergerEmit m errs s
  | .mergerWindowExpire m errs => Sys2Proof.Machine.execMergerWindowExpire m errs s
  | .bedUnitAccept n mem => Sys2Proof.Machine.execBedUnitAccept n mem s
  | .bedLineEmit n slot tap => Sys2Proof.Machine.execBedLineEmit n slot tap s
  | .bedTablePointerWrite n slot k val => Sys2Proof.Machine.execBedTablePointerWrite n slot k val s
  | .tableCopyDone n slot k mem => Sys2Proof.Machine.execTableCopyDone n slot k mem s
  | .bedShadowHoldWrite n slot hold => Sys2Proof.Machine.execBedShadowHoldWrite n slot hold s
  | .bedCropWrite n slot vertical val => Sys2Proof.Machine.execBedCropWrite n slot vertical val s
  | .bedEncWrite n slot enc param val => Sys2Proof.Machine.execBedEncWrite n slot enc param val s
  | .bedScaleWrite n slot val => Sys2Proof.Machine.execBedScaleWrite n slot val s
  | .peNop e o => Sys2Proof.Machine.execPeNop e o s
  | .peSadd e o => Sys2Proof.Machine.execPeSadd e o s
  | .peSsub e o => Sys2Proof.Machine.execPeSsub e o s
  | .peSaddi e o => Sys2Proof.Machine.execPeSaddi e o s
  | .peSmul e o => Sys2Proof.Machine.execPeSmul e o s
  | .peSand e o => Sys2Proof.Machine.execPeSand e o s
  | .peSor e o => Sys2Proof.Machine.execPeSor e o s
  | .peSxor e o => Sys2Proof.Machine.execPeSxor e o s
  | .peSshli e o => Sys2Proof.Machine.execPeSshli e o s
  | .peSsrli e o => Sys2Proof.Machine.execPeSsrli e o s
  | .peSsrai e o => Sys2Proof.Machine.execPeSsrai e o s
  | .peSli e o => Sys2Proof.Machine.execPeSli e o s
  | .peSlih e o => Sys2Proof.Machine.execPeSlih e o s
  | .peSlt e o => Sys2Proof.Machine.execPeSlt e o s
  | .peSprm e o => Sys2Proof.Machine.execPeSprm e o s
  | .peBr e o => Sys2Proof.Machine.execPeBr e o s
  | .peEnd e o => Sys2Proof.Machine.execPeEnd e o s
  | .peVadd e o => Sys2Proof.Machine.execPeVadd e o s
  | .peVsub e o => Sys2Proof.Machine.execPeVsub e o s
  | .peVmulsh e o => Sys2Proof.Machine.execPeVmulsh e o s
  | .peVmadsh e o => Sys2Proof.Machine.execPeVmadsh e o s
  | .peVmin e o => Sys2Proof.Machine.execPeVmin e o s
  | .peVmax e o => Sys2Proof.Machine.execPeVmax e o s
  | .peVabs e o => Sys2Proof.Machine.execPeVabs e o s
  | .peVand e o => Sys2Proof.Machine.execPeVand e o s
  | .peVor e o => Sys2Proof.Machine.execPeVor e o s
  | .peVxor e o => Sys2Proof.Machine.execPeVxor e o s
  | .peVshli e o => Sys2Proof.Machine.execPeVshli e o s
  | .peVsrli e o => Sys2Proof.Machine.execPeVsrli e o s
  | .peVsrai e o => Sys2Proof.Machine.execPeVsrai e o s
  | .peVrsh e o => Sys2Proof.Machine.execPeVrsh e o s
  | .peVclamp e o => Sys2Proof.Machine.execPeVclamp e o s
  | .peVsel e o => Sys2Proof.Machine.execPeVsel e o s
  | .peVcmplt e o => Sys2Proof.Machine.execPeVcmplt e o s
  | .peVcmpeq e o => Sys2Proof.Machine.execPeVcmpeq e o s
  | .peVcmple e o => Sys2Proof.Machine.execPeVcmple e o s
  | .peVspl e o => Sys2Proof.Machine.execPeVspl e o s
  | .peVbrd e o => Sys2Proof.Machine.execPeVbrd e o s
  | .peVpack e o => Sys2Proof.Machine.execPeVpack e o s
  | .peVunpl e o => Sys2Proof.Machine.execPeVunpl e o s
  | .peVunph e o => Sys2Proof.Machine.execPeVunph e o s
  | .peVshuf e o => Sys2Proof.Machine.execPeVshuf e o s
  | .peVext e o => Sys2Proof.Machine.execPeVext e o s
  | .peVins e o => Sys2Proof.Machine.execPeVins e o s
  | .peVred e o => Sys2Proof.Machine.execPeVred e o s
  | .peFadd e o => Sys2Proof.Machine.execPeFadd e o s
  | .peFsub e o => Sys2Proof.Machine.execPeFsub e o s
  | .peFmul e o => Sys2Proof.Machine.execPeFmul e o s
  | .peFma e o => Sys2Proof.Machine.execPeFma e o s
  | .peFmin e o => Sys2Proof.Machine.execPeFmin e o s
  | .peFmax e o => Sys2Proof.Machine.execPeFmax e o s
  | .peFcvtif e o => Sys2Proof.Machine.execPeFcvtif e o s
  | .peFcvtfi e o => Sys2Proof.Machine.execPeFcvtfi e o s
  | .peFrcp e o => Sys2Proof.Machine.execPeFrcp e o s
  | .peFrsq e o => Sys2Proof.Machine.execPeFrsq e o s
  | .peFlog2 e o => Sys2Proof.Machine.execPeFlog2 e o s
  | .peFexp2 e o => Sys2Proof.Machine.execPeFexp2 e o s
  | .peVld e o => Sys2Proof.Machine.execPeVld e o s
  | .peVst e o => Sys2Proof.Machine.execPeVst e o s
  | .peVgath e o => Sys2Proof.Machine.execPeVgath e o s
  | .peSld e o => Sys2Proof.Machine.execPeSld e o s
  | .peSst e o => Sys2Proof.Machine.execPeSst e o s
  | .peWld e o => Sys2Proof.Machine.execPeWld e o s
  | .peWst e o => Sys2Proof.Machine.execPeWst e o s
  | .lineCapExceeded e => Sys2Proof.Machine.execLineCapExceeded e s
  | .peDegraded e memCorr vecCorr => Sys2Proof.Machine.execPeDegraded e memCorr vecCorr s
  | .peHardFault e kind addr => Sys2Proof.Machine.execPeHardFault e kind addr s
  | .constRestored e addr => Sys2Proof.Machine.execConstRestored e addr s
  | .peTargetLoaded t => Sys2Proof.Machine.execPeTargetLoaded t s
  | .encPictureStart e errs mem => Sys2Proof.Machine.execEncPictureStart e errs mem s
  | .encCtuRowCode e errs mem refCorr refBad => Sys2Proof.Machine.execEncCtuRowCode e errs mem refCorr refBad s
  | .encKeyIdr e c => Sys2Proof.Machine.execEncKeyIdr e c s
  | .encKeySweep e c => Sys2Proof.Machine.execEncKeySweep e c s
  | .seCapWrite e c val => Sys2Proof.Machine.execSeCapWrite e c val s
  | .decNalUnit e c seen errs mem => Sys2Proof.Machine.execDecNalUnit e c seen errs mem s
  | .decPictureOutput e c late => Sys2Proof.Machine.execDecPictureOutput e c late s
  | .decWrWrite e c val => Sys2Proof.Machine.execDecWrWrite e c val s
  | .decFlush e c => Sys2Proof.Machine.execDecFlush e c s
  | .decResync e c => Sys2Proof.Machine.execDecResync e c s
  | .decEos e c => Sys2Proof.Machine.execDecEos e c s
  | .mosaicHeaderTimeout e c => Sys2Proof.Machine.execMosaicHeaderTimeout e c s
  | .headLine h errs mem => Sys2Proof.Machine.execHeadLine h errs mem s
  | .headUnderrun h plane x thermal => Sys2Proof.Machine.execHeadUnderrun h plane x thermal s
  | .headCommitReq h => Sys2Proof.Machine.execHeadCommitReq h s
  | .headGroupCommitReq g => Sys2Proof.Machine.execHeadGroupCommitReq g s
  | .headStatusRead h => Sys2Proof.Machine.execHeadStatusRead h s
  | .headCrcRectWrite h r size val => Sys2Proof.Machine.execHeadCrcRectWrite h r size val s
  | .memRequest op => Sys2Proof.Machine.execMemRequest op s
  | .memIssue pc errs => Sys2Proof.Machine.execMemIssue pc errs s
  | .memDrainIdleTimeout pc => Sys2Proof.Machine.execMemDrainIdleTimeout pc s
  | .memIdlePowerdown pc sid => Sys2Proof.Machine.execMemIdlePowerdown pc sid s
  | .memRefresh pc bank => Sys2Proof.Machine.execMemRefresh pc bank s
  | .memRetrain pc ok => Sys2Proof.Machine.execMemRetrain pc ok s
  | .memRetrainForced pc ok => Sys2Proof.Machine.execMemRetrainForced pc ok s
  | .memScrub addr errs => Sys2Proof.Machine.execMemScrub addr errs s
  | .memRowRemap pc errs => Sys2Proof.Machine.execMemRowRemap pc errs s
  | .memPcRetire pc => Sys2Proof.Machine.execMemPcRetire pc s
  | .memRetireComplete pc errs => Sys2Proof.Machine.execMemRetireComplete pc errs s
  | .memWmWrite val => Sys2Proof.Machine.execMemWmWrite val s
  | .recIfaceWrite major minor => Sys2Proof.Machine.execRecIfaceWrite major minor s
  | .recSqSizeWrite n size cq cls => Sys2Proof.Machine.execRecSqSizeWrite n size cq cls s
  | .recCqSizeWrite n size vecEn => Sys2Proof.Machine.execRecCqSizeWrite n size vecEn s
  | .recSqDoorbell n tail => Sys2Proof.Machine.execRecSqDoorbell n tail s
  | .recCqDoorbell n head => Sys2Proof.Machine.execRecCqDoorbell n head s
  | .recFetch entry => Sys2Proof.Machine.execRecFetch entry s
  | .recCompletionPost cq => Sys2Proof.Machine.execRecCompletionPost cq s
  | .identify ok => Sys2Proof.Machine.execIdentify ok s
  | .mediaInfo ok => Sys2Proof.Machine.execMediaInfo ok s
  | .mediaFormat => Sys2Proof.Machine.execMediaFormat s
  | .mediaTrim => Sys2Proof.Machine.execMediaTrim s
  | .mediaFlush => Sys2Proof.Machine.execMediaFlush s
  | .recordStart => Sys2Proof.Machine.execRecordStart s
  | .recordStop => Sys2Proof.Machine.execRecordStop s
  | .clipMark => Sys2Proof.Machine.execClipMark s
  | .clipRead ok => Sys2Proof.Machine.execClipRead ok s
  | .recSqReset n => Sys2Proof.Machine.execRecSqReset n s
  | .recResetAll => Sys2Proof.Machine.execRecResetAll s
  | .recArbWrite val => Sys2Proof.Machine.execRecArbWrite val s
  | .recTempWinWrite d val => Sys2Proof.Machine.execRecTempWinWrite d val s
  | .recPortLinkReset r wa sa wb sb => Sys2Proof.Machine.execRecPortLinkReset r wa sa wb sb s
  | .recItemTake k errs mem => Sys2Proof.Machine.execRecItemTake k errs mem s
  | .recMediaWrite k => Sys2Proof.Machine.execRecMediaWrite k s
  | .nvmeCompletion id ok => Sys2Proof.Machine.execNvmeCompletion id ok s
  | .nvmeTimeout id => Sys2Proof.Machine.execNvmeTimeout id s
  | .recCheckpoint k => Sys2Proof.Machine.execRecCheckpoint k s
  | .recTempPoll d temp => Sys2Proof.Machine.execRecTempPoll d temp s
  | .recStopWaitExpire k => Sys2Proof.Machine.execRecStopWaitExpire k s
  | .driveLost d => Sys2Proof.Machine.execDriveLost d s
  | .driveAttached d info => Sys2Proof.Machine.execDriveAttached d info s
  | .hrwItemRx n words => Sys2Proof.Machine.execHrwItemRx n words s
  | .hrwForwardStart p => Sys2Proof.Machine.execHrwForwardStart p s
  | .hrwSendItem k errs => Sys2Proof.Machine.execHrwSendItem k errs s
  | .hello n block => Sys2Proof.Machine.execHello n block s
  | .helloTimer p => Sys2Proof.Machine.execHelloTimer p s
  | .enumToken n block => Sys2Proof.Machine.execEnumToken n block s
  | .enumAck n block => Sys2Proof.Machine.execEnumAck n block s
  | .enumTokenRepeat => Sys2Proof.Machine.execEnumTokenRepeat s
  | .enumAckTimeout => Sys2Proof.Machine.execEnumAckTimeout s
  | .enumEnd n block => Sys2Proof.Machine.execEnumEnd n block s
  | .enumDone n block => Sys2Proof.Machine.execEnumDone n block s
  | .enumStartTimer => Sys2Proof.Machine.execEnumStartTimer s
  | .hrwEnumCmd => Sys2Proof.Machine.execHrwEnumCmd s
  | .join n block => Sys2Proof.Machine.execJoin n block s
  | .timeReq n block turn => Sys2Proof.Machine.execTimeReq n block turn s
  | .timeResp n block => Sys2Proof.Machine.execTimeResp n block s
  | .hrwTimeExchange => Sys2Proof.Machine.execHrwTimeExchange s
  | .graftStatus n block => Sys2Proof.Machine.execGraftStatus n block s
  | .graftCommit n block => Sys2Proof.Machine.execGraftCommit n block s
  | .graftCommitAt => Sys2Proof.Machine.execGraftCommitAt s
  | .wake n block => Sys2Proof.Machine.execWake n block s
  | .hrwGraftSend dest bcast confirm img unreadable => Sys2Proof.Machine.execHrwGraftSend dest bcast confirm img unreadable s
  | .hrwGraftCommitCmd dest bcast confirm => Sys2Proof.Machine.execHrwGraftCommitCmd dest bcast confirm s
  | .hrwBrokenRetry p => Sys2Proof.Machine.execHrwBrokenRetry p s
  | .hrwLinkLost p => Sys2Proof.Machine.execHrwLinkLost p s
  | .hrwRouteWrite k val => Sys2Proof.Machine.execHrwRouteWrite k val s
  | .hrwSendWrite k low high => Sys2Proof.Machine.execHrwSendWrite k low high s
  | .wakePatternDetect p => Sys2Proof.Machine.execWakePatternDetect p s
  | .wakePatternEnd p => Sys2Proof.Machine.execWakePatternEnd p s
  | .audFrameIn k slots bad room => Sys2Proof.Machine.execAudFrameIn k slots bad room s
  | .audBlockComplete k => Sys2Proof.Machine.execAudBlockComplete k s
  | .audFrameOut k held errs => Sys2Proof.Machine.execAudFrameOut k held errs s
  | .audOutBlockBoundary k => Sys2Proof.Machine.execAudOutBlockBoundary k s
  | .aesCsBlock k bytes => Sys2Proof.Machine.execAesCsBlock k bytes s
  | .aesLockLost k => Sys2Proof.Machine.execAesLockLost k s
  | .audNonaudioEnd k pair => Sys2Proof.Machine.execAudNonaudioEnd k pair s
  | .audSlotMaskWrite k val late => Sys2Proof.Machine.execAudSlotMaskWrite k val late s
  | .audSlotMaskApply k => Sys2Proof.Machine.execAudSlotMaskApply k s
  | .audTx30Packet t errs => Sys2Proof.Machine.execAudTx30Packet t errs s
  | .evtEdge ball level => Sys2Proof.Machine.execEvtEdge ball level s
  | .twineChannelEvent channel => Sys2Proof.Machine.execTwineChannelEvent channel s
  | .evtOutPulseEnd ball => Sys2Proof.Machine.execEvtOutPulseEnd ball s
  | .knotFilterPass knot => Sys2Proof.Machine.execKnotFilterPass knot s
  | .loopGuardTrip knot => Sys2Proof.Machine.execLoopGuardTrip knot s
  | .twnFireWrite k val => Sys2Proof.Machine.execTwnFireWrite k val s
  | .twineTimerFire k => Sys2Proof.Machine.execTwineTimerFire k s
  | .twnTimerAtWrite k high => Sys2Proof.Machine.execTwnTimerAtWrite k high s
  | .twnGroupWrite val => Sys2Proof.Machine.execTwnGroupWrite val s
  | .pcieLinkRestore => Sys2Proof.Machine.execPcieLinkRestore s
  | .mbxPost c who => Sys2Proof.Machine.execMbxPost c who s
  | .mbxTake c who bad => Sys2Proof.Machine.execMbxTake c who bad s
  | .mbxRing c who bits => Sys2Proof.Machine.execMbxRing c who bits s
  | .mbxPendingClear c who bits => Sys2Proof.Machine.execMbxPendingClear c who bits s
  | .mbxLockRead c who => Sys2Proof.Machine.execMbxLockRead c who s
  | .mbxLockWrite c who val => Sys2Proof.Machine.execMbxLockWrite c who val s
  | .mbxSlotWrite c who off val => Sys2Proof.Machine.execMbxSlotWrite c who off val s
  | .mbxParamServe c bad => Sys2Proof.Machine.execMbxParamServe c bad s
  | .pwrReqDormant confirm => Sys2Proof.Machine.execPwrReqDormant confirm s
  | .pwrReqFallow confirm => Sys2Proof.Machine.execPwrReqFallow confirm s
  | .pwrEntryComplete => Sys2Proof.Machine.execPwrEntryComplete s
  | .pwrReqWake confirm => Sys2Proof.Machine.execPwrReqWake confirm s
  | .pcieL2ExitWake => Sys2Proof.Machine.execPcieL2ExitWake s
  | .softReset block => Sys2Proof.Machine.execSoftReset block s
  | .softResetDone block => Sys2Proof.Machine.execSoftResetDone block s
  | .perstAssert => Sys2Proof.Machine.execPerstAssert s
  | .wdtKick who key => Sys2Proof.Machine.execWdtKick who key s
  | .wdtExpire => Sys2Proof.Machine.execWdtExpire s
  | .thermalSample raw => Sys2Proof.Machine.execThermalSample raw s
  | .throttleGraceExpire => Sys2Proof.Machine.execThrottleGraceExpire s
  | .throttleStepTimer => Sys2Proof.Machine.execThrottleStepTimer s
  | .thermalRelief => Sys2Proof.Machine.execThermalRelief s
  | .thermalStepReverse => Sys2Proof.Machine.execThermalStepReverse s
  | .thermalTrip sensor reading => Sys2Proof.Machine.execThermalTrip sensor reading s
  | .tripRestart => Sys2Proof.Machine.execTripRestart s
  | .calOverwrite confirm img => Sys2Proof.Machine.execCalOverwrite confirm img s
  | .calCopy confirm => Sys2Proof.Machine.execCalCopy confirm s
  | .calWriteDone => Sys2Proof.Machine.execCalWriteDone s
  | .jtagExtest => Sys2Proof.Machine.execJtagExtest s
  | .jtagSamplePreload => Sys2Proof.Machine.execJtagSamplePreload s
  | .jtagIdcode => Sys2Proof.Machine.execJtagIdcode s
  | .jtagClamp => Sys2Proof.Machine.execJtagClamp s
  | .jtagHighz => Sys2Proof.Machine.execJtagHighz s
  | .jtagBypass => Sys2Proof.Machine.execJtagBypass s
  | .unknownMessageRx n block => Sys2Proof.Machine.execUnknownMessageRx n block s
  | .aesLockGained k => Sys2Proof.Machine.execAesLockGained k s
  | .pcieLinkDown => Sys2Proof.Machine.execPcieLinkDown s
  | .msixEnable => Sys2Proof.Machine.execMsixEnable s
  | .tapReset => Sys2Proof.Machine.execTapReset s
  | .keyBurnDone => Sys2Proof.Machine.execKeyBurnDone s
  | .rawRateBand n mbps => Sys2Proof.Machine.execRawRateBand n mbps s

end Sys2Proof.Machine
end

