-- ==== Sys2Proof/Machine/Tick.lean ====
section
/-!
DEFINITION. The passing of time: one tick of the 32 GHz time base (R77, R78).
-/

namespace Sys2Proof.Machine

/-- One tick of 31.25 ps passes: the place within the 8 ns count moves on, and with its 256th tick the Rootstock
counter counts (R77, R78). Channel pulses whose 4 ns are over fall (R450). -/
def State.tick (s : State) : State :=
  let p := s.time.phase + 1#8
  ({ s with time := { s.time with
      phase := p
      counter := if p = 0#8 then s.time.counter + 1#64 else s.time.counter } } : State).pulseFall

end Sys2Proof.Machine
end

