-- ==== Sys2Proof/Safety.lean ====
section
/-!
DEFINITION. What a run and a statement about it are said in: a safe step, a command that answers a next state, and how two
states differ.
-/

namespace Sys2Proof.Machine

/-- A step is safe when it answers a next state. -/
def State.safe (s : State) : Prop := ∃ t, step s = .next t

/-- Command `c` at state `s` answers a next state, and `P` holds of it. -/
def does (c : Instr) (s : State) (P : State → Prop) : Prop := ∃ t, exec c s = .next t ∧ P t

/-- From `s` to `t` nothing changes but the register words at the offsets listed. -/
def State.onlyWords (s t : State) (l : List Nat) : Prop :=
  (∀ o, o ∉ l → t.rd o = s.rd o) ∧ t = { s with regs := t.regs }

/-- The register window, plot space and the maps that mark its words are in canonical form: keys rise and no entry equals
what an unlisted key reads as. -/
def State.canonical (s : State) : Prop :=
  SMap.wf (resetWord s.variant) s.regs = true ∧ SMap.wf (fun _ => (0#8 : Byte)) s.hbm.bytes = true

/-- Command `c` on Runner `n` has an effect of its own, of which `P` holds; lanes of the Runner that wait are then dealt
with, and its hedgerow port, where it has one, notes the change. -/
def runs (c : Instr) (s : State) (n : Nat) (P : State → Prop) : Prop :=
  ∃ u : State, exec c s = .next ((u.runWaiting n 9).hedgeHook n) ∧ P u

/-! ## Pixel engines -/

/-- Every scalar register is a 32-bit word, and every vector register holds 16 of them. -/
def PeEngine.words (g : PeEngine) : Prop :=
  (∀ n, g.sr n < 2 ^ 32) ∧ ∀ n, (g.vr n).length = 16 ∧ ∀ x ∈ g.vr n, x < 2 ^ 32

/-- Engine `e` has stepped over an instruction that writes `v` to scalar `d` and to nothing else; a write to s0 is
discarded. -/
def State.peScalar (s t : State) (e d v : Nat) : Prop :=
  (∀ n, (t.engine e).sr n = if n % 32 = d % 32 ∧ n % 32 ≠ 0 then v else (s.engine e).sr n) ∧
  (t.engine e).v = (s.engine e).v ∧ (t.engine e).mem = (s.engine e).mem ∧ (t.engine e).out = (s.engine e).out ∧
  (t.engine e).pc = ((s.engine e).pc + 1) % 2 ^ 32

/-- Engine `e` has stepped over an instruction that writes the lanes `l` to vector `d` and to nothing else. -/
def State.peVector (s t : State) (e d : Nat) (l : List Nat) : Prop :=
  (∀ n, (t.engine e).vr n = if n % 64 = d % 64 then l else (s.engine e).vr n) ∧
  (t.engine e).s = (s.engine e).s ∧ (t.engine e).mem = (s.engine e).mem ∧ (t.engine e).out = (s.engine e).out ∧
  (t.engine e).pc = ((s.engine e).pc + 1) % 2 ^ 32

/-- Engine `e` has stepped over an instruction that stores the bytes `l` from address `base` on, but for those within the
constant region, and writes no register. -/
def State.peStored (s t : State) (e base : Nat) (l : List Byte) : Prop :=
  (∀ k, k < 2 ^ 18 → (t.engine e).byte k =
    if base ≤ k ∧ k < base + l.length ∧ (s.engine e).constLen ≤ k then some (l.getD (k - base) 0#8)
    else (s.engine e).byte k) ∧
  (base < (s.engine e).constLen → t.bit (F.PE_ERR_CONST_WR e) = true) ∧
  (t.engine e).s = (s.engine e).s ∧ (t.engine e).v = (s.engine e).v ∧ (t.engine e).out = (s.engine e).out ∧
  (t.engine e).pc = ((s.engine e).pc + 1) % 2 ^ 32

/-- The instructions of the pixel engines by operation code. -/
def peCommands (e : Nat) (o : PeOp) : List (Nat × Instr) :=
  [(0x00, .peNop e o), (0x01, .peSadd e o), (0x02, .peSsub e o), (0x03, .peSaddi e o), (0x04, .peSmul e o),
   (0x05, .peSand e o), (0x06, .peSor e o), (0x07, .peSxor e o), (0x08, .peSshli e o), (0x09, .peSsrli e o),
   (0x0A, .peSsrai e o), (0x0B, .peSli e o), (0x0C, .peSlih e o), (0x0D, .peSlt e o), (0x0E, .peSprm e o),
   (0x10, .peBr e o), (0x11, .peEnd e o), (0x20, .peVadd e o), (0x21, .peVsub e o), (0x22, .peVmulsh e o),
   (0x23, .peVmadsh e o), (0x24, .peVmin e o), (0x25, .peVmax e o), (0x26, .peVabs e o), (0x27, .peVand e o),
   (0x28, .peVor e o), (0x29, .peVxor e o), (0x2A, .peVshli e o), (0x2B, .peVsrli e o), (0x2C, .peVsrai e o),
   (0x2D, .peVrsh e o), (0x2E, .peVclamp e o), (0x2F, .peVsel e o), (0x30, .peVcmplt e o), (0x31, .peVcmpeq e o),
   (0x32, .peVcmple e o), (0x33, .peVspl e o), (0x34, .peVbrd e o), (0x35, .peVpack e o), (0x36, .peVunpl e o),
   (0x37, .peVunph e o), (0x38, .peVshuf e o), (0x39, .peVext e o), (0x3A, .peVins e o), (0x3B, .peVred e o),
   (0x40, .peFadd e o), (0x41, .peFsub e o), (0x42, .peFmul e o), (0x43, .peFma e o), (0x44, .peFmin e o),
   (0x45, .peFmax e o), (0x46, .peFcvtif e o), (0x47, .peFcvtfi e o), (0x48, .peFrcp e o), (0x49, .peFrsq e o),
   (0x4A, .peFlog2 e o), (0x4B, .peFexp2 e o), (0x60, .peVld e o), (0x61, .peVst e o), (0x62, .peVgath e o),
   (0x63, .peSld e o), (0x64, .peSst e o), (0x70, .peWld e o), (0x71, .peWst e o)]

/-! ## The recording engine -/

/-- Entry `e` is the oldest fetched one of opcode `op`, and its block works. -/
def State.fetchedFirst (s : State) (op : Nat) (e : RecEntry) : Prop :=
  s.up 9 = true ∧ s.recorder.fetched.find? (fun x => byteAt x.bytes 0 == op) = some e

/-- The state that differs from `s` in that entry `e` has been taken and completes with a status code and a RESULT. -/
def State.completes (s : State) (e : RecEntry) (code result : Nat) : State :=
  { s with recorder := { s.recorder with
    fetched := s.recorder.fetched.erase e
    done := s.recorder.done ++ [{ cq := s.getF (F.REC_SQ_CTL_CQ e.sq), sq := e.sq, head := e.head
                                  cid := fieldAt e.bytes 2 2, code, zero := false, result }] } }

/-- From `s` to `t` the engine has issued these NVMe commands, in this order. -/
def State.issues (s t : State) (l : List (Nat × NvmeKind)) : Prop :=
  ∃ n, t.recorder.nvme = s.recorder.nvme ++ n ∧ n.map (fun c => (c.drive, c.kind)) = l

/-! ## The hedgerow -/

/-- Command `c` on hedgerow Runner `n` has an effect of its own, of which `P` holds; its port then notes the change. -/
def hears (c : Instr) (s : State) (n : Nat) (P : State → Prop) : Prop := ∃ u, exec c s = .next (u.hedgeHook n) ∧ P u

/-- A MESSAGE block as it leaves on Runner `r`: TYPE, byte 2 and the bytes from 3 on (R407). -/
def messageOut (r type flags : Nat) (body : List Byte) : Output :=
  .control r 0x4B ((closeBlock 0x4B (BitVec.ofNat 8 type :: BitVec.ofNat 8 flags :: padTo 11 body)).drop 1)

/-- Port `p` sends on Runner `r`: it is the port's lowest ACTIVE one, and not in L1. -/
def State.sendsOn (s : State) (p r : Nat) : Prop := (s.hedgeActive p).head? = some r ∧ (s.runner r).l1Tx = false

/-- The command that a link message of a TYPE on Runner `n` is (R408). -/
def linkMessage (n turn : Nat) (b : List Byte) (type : Nat) (c : Instr) : Prop :=
  (type = 1 ∧ c = .hello n b) ∨ (type = 2 ∧ c = .enumToken n b) ∨ (type = 3 ∧ c = .enumAck n b) ∨
  (type = 4 ∧ c = .timeReq n b turn) ∨ (type = 5 ∧ c = .timeResp n b)

/-- The command that a routed message of a TYPE on Runner `n` is (R408). -/
def routedMessage (n : Nat) (b : List Byte) (type : Nat) (c : Instr) : Prop :=
  (type = 0x10 ∧ c = .enumEnd n b) ∨ (type = 0x11 ∧ c = .enumDone n b) ∨ (type = 0x12 ∧ c = .join n b) ∨
  (type = 0x13 ∧ c = .graftStatus n b) ∨ (type = 0x14 ∧ c = .graftCommit n b) ∨ (type = 0x15 ∧ c = .wake n b)

/-- The gap of port `p` to a peer of a given address, as R419 counts it. -/
def State.gapTo (s : State) (p peer : Nat) (valid head : Bool) : Nat :=
  let own := if s.bit F.HRW_STATUS_HEAD then 0 else s.getF F.HRW_ADDR_ADDR
  if s.bit F.HRW_ADDR_VALID = false ∨ valid = false then 0
  else if s.bit F.HRW_STATUS_HEAD = true ∧ p = 0 then s.getF F.HRW_STATUS_COUNT - 1 - peer
  else if head = true ∧ p = 1 then s.getF F.HRW_STATUS_COUNT - 1 - own
  else (max own peer - min own peer) - 1

end Sys2Proof.Machine
end

