-- ==== Sys2Proof/WellFormed.lean ====
section
/-!
DEFINITION. Well-formed commands: operands within the ranges the spec gives them. The bounds are those of the largest
bonding (R1); what a bonding does not fit is part of the state, and a command that names it does nothing.
-/

namespace Sys2Proof

/-- Symbol errors of a Qoreth word: symbol 0 to 35, and a change that is one (R344, R345). -/
def errsOk (l : List SymErr) : Bool := l.all fun e => decide (e.sym < 36) && (e.add != 0#8)

/-- Symbol errors of words of plot space. -/
def memErrsOk (l : List MemErr) : Bool := l.all fun m => errsOk m.errs

/-- Errors of trug words: symbols, and of the 13 coded bits of a tag (R111). -/
def wordErrsOk (l : List WordErr) : Bool := l.all fun w => errsOk w.errs && decide (w.tagErrs < 14)

/-- A block and an instance as a log record numbers them (R39). -/
def Occurrence.ok (o : Occurrence) : Bool := decide (o.block < 16) && decide (o.inst < 65536)

/-- What happens around a seeding: slots 0 to 3, pseudo-channels and Runners of the part, tiers 0 to 3. -/
def SeedEnv.ok (e : SeedEnv) : Bool :=
  (e.bad.all fun b => decide (b.1 < 4)) && (e.pcFails.all fun q => decide (q < 128)) &&
    e.runners.all fun r => decide (r.1 < 64) && decide (r.2 < 4)

/-- The ports and field widths of an Announce message (R89). -/
def PtpAnnounce.ok (m : PtpAnnounce) : Bool :=
  decide (m.port < 2) && decide (m.domain < 256) && decide (m.priority1 < 256) && decide (m.clockClass < 256) &&
    decide (m.accuracy < 256) && decide (m.variance < 65536) && decide (m.priority2 < 256) && decide (m.stepsRemoved < 65536)

/-- The ports and field widths of a Sync, Follow_Up or Delay_Resp message (R89). -/
def PtpTimed.ok (m : PtpTimed) : Bool := decide (m.port < 2) && decide (m.domain < 256) && decide (m.seq < 65536)

/-- A request names a class from 4 to 8 and a level in sixteenths (R348). -/
def MemOp.ok (o : MemOp) : Bool := decide (4 ≤ o.cls) && decide (o.cls ≤ 8) && decide (o.level ≤ 16)

/-- A code of a Runner of the part, of at most 16 bits (R151). -/
def SyncCode.ok (c : SyncCode) : Bool := decide (c.runner < 64) && decide (c.word < 65536)

/-- An instruction word's fields (R232), on an engine of the part. -/
def peOk (e : Nat) (o : PeOp) : Bool :=
  decide (e < 68) && decide (o.mode < 4) && decide (o.d < 64) && decide (o.a < 64) && decide (o.b < 64) && decide (o.c < 64)

/-- The error classes of R299. -/
def NalSeen.ok (n : NalSeen) : Bool := decide (n.err ≤ 10)

/-- A 256-bit word. -/
def NawenWord.ok (w : NawenWord) : Bool := decide (w.data.length = 32)

/-- The lengths of the model and serial numbers. -/
def DriveInfo.ok (d : DriveInfo) : Bool := decide (d.model.length = 40) && decide (d.serial.length = 20)

/-- Whether a command's operands lie within the ranges the spec gives them. -/
def Instr.wf : Instr → Bool
  | .registerWrite who off _ => decide (who < 65536) && (off % 4 == 0) && decide (off < 0x4000000)
  | .regAccessTimeout _ => true
  | .bar2Read _ _ errs => memErrsOk errs
  | .bar2Write _ _ errs => memErrsOk errs
  | .glbLogRdWrite _ meets => meets.all Occurrence.ok
  | .powerOnReset => true
  | .powerGood _ => true
  | .pinReset => true
  | .resetNRelease => true
  | .railFault _ => true
  | .railRecover => true
  | .seeding env => SeedEnv.ok env
  | .pllLockTimeout => true
  | .fwStartTimeout => true
  | .loadSlot slot confirm _ => decide (slot < 4) && decide (confirm < 65536)
  | .loadHostImage confirm _ _ => decide (confirm < 65536)
  | .storeHostImage slot confirm _ _ => decide (slot < 4) && decide (confirm < 65536)
  | .eraseSlot slot confirm => decide (slot < 4) && decide (confirm < 65536)
  | .checkHostImage _ _ => true
  | .slotWriteDone _ => true
  | .graftCheckComplete => true
  | .seedBootWrite _ => true
  | .keyProgram slot confirm => decide (slot < 8) && decide (confirm < 65536)
  | .keyRevoke slot confirm => decide (slot < 8) && decide (confirm < 65536)
  | .tarborOff confirm => decide (confirm < 65536)
  | .timeRateWrite _ => true
  | .timeOffsetWrite _ => true
  | .timeSnapRead => true
  | .timeStepCmd confirm => decide (confirm < 65536)
  | .servoReset => true
  | .timeCtlWrite _ => true
  | .servoHoldoverTimeout => true
  | .interpLocked => true
  | .ptpAnnounceRx m => PtpAnnounce.ok m
  | .ptpAnnounceTimeout => true
  | .ptpSyncRx m => PtpTimed.ok m
  | .ptpFollowUpRx m => PtpTimed.ok m
  | .ptpDelayReqSend => true
  | .ptpDelayRespRx m => PtpTimed.ok m
  | .ptpManagementRx port domain _ _ => decide (port < 2) && decide (domain < 256)
  | .ppsEdge => true
  | .frefBoundary n => decide (n < 16)
  | .genlockEdge n _ _ _ => decide (n < 2)
  | .genlockLost n => decide (n < 2)
  | .trugWrite n _ _ => decide (n < 512)
  | .trugRead n errs tagErrs => decide (n < 512) && errsOk errs && decide (tagErrs < 14)
  | .trugReadUnstall n errs tagErrs => decide (n < 512) && errsOk errs && decide (tagErrs < 14)
  | .trugFlush n => decide (n < 512)
  | .trugFlushDeferred n => decide (n < 512)
  | .runRetrain n => decide (n < 64)
  | .runTierCapWrite n cap => decide (n < 64) && decide (cap < 4)
  | .runPstateReq n v => decide (n < 64) && decide (v < 4)
  | .clockActivityDetect n => decide (n < 64)
  | .clockLaneLock n => decide (n < 64)
  | .lanesAligned n skews trims => decide (n < 64) && decide (skews.length = 9) && decide (trims.length = 9)
  | .trainBlockRx n block _ => decide (n < 64) && decide (block.length = 16)
  | .equaliseTimeout n => decide (n < 64)
  | .trainStateTimeout n => decide (n < 64)
  | .checkWindowPass n => decide (n < 64)
  | .checkFail n => decide (n < 64)
  | .tierStep n => decide (n < 64)
  | .failedRetry n => decide (n < 64)
  | .restepRx n block => decide (n < 64) && decide (block.length = 16)
  | .laneLockLost n lanes => decide (n < 64) && lanes.all fun k => decide (k < 9)
  | .laneDegraded n lane _ _ => decide (n < 64) && decide (lane < 9)
  | .spareRequestRx n block => decide (n < 64) && decide (block.length = 16)
  | .spareDuplicatingRx n block => decide (n < 64) && decide (block.length = 16)
  | .spareCompareDone n lost => decide (n < 64) && decide (lost < 9)
  | .spareSwitchedRx n block => decide (n < 64) && decide (block.length = 16)
  | .spareNarrowRx n block => decide (n < 64) && decide (block.length = 16)
  | .clockLaneLost n _ => decide (n < 64)
  | .l1IdleTimeout n => decide (n < 64)
  | .l1EnterRx n block => decide (n < 64) && decide (block.length = 16)
  | .l1Exit n => decide (n < 64)
  | .l1ExitRx n block => decide (n < 64) && decide (block.length = 16)
  | .l2EnterRx n => decide (n < 64)
  | .l2ExitCheckDone n _ => decide (n < 64)
  | .rawClockActive n => decide (n < 64)
  | .rawClockLock n _ => decide (n < 64)
  | .sofCode c => SyncCode.ok c
  | .eofCode c => SyncCode.ok c
  | .solCode c => SyncCode.ok c
  | .eolCode c => SyncCode.ok c
  | .segmentWindowExpire p => decide (p < 64)
  | .sofWindowExpire p _ => decide (p < 64)
  | .frameTimeout p _ => decide (p < 64)
  | .cutMarkerWrite trug => decide (trug < 512)
  | .ingPruneWrite p _ _ => decide (p < 64)
  | .mergerEmit m errs => decide (m < 32) && wordErrsOk errs
  | .mergerWindowExpire m errs => decide (m < 32) && wordErrsOk errs
  | .bedUnitAccept n mem => decide (n < 16) && memErrsOk mem
  | .bedLineEmit n slot tap => decide (n < 16) && decide (slot < 8) && decide (tap < 3)
  | .bedTablePointerWrite n slot k _ => decide (n < 16) && decide (slot < 8) && decide (k < 8)
  | .tableCopyDone n slot k mem => decide (n < 16) && decide (slot < 8) && decide (k < 8) && memErrsOk mem
  | .bedShadowHoldWrite n slot _ => decide (n < 16) && decide (slot < 8)
  | .bedCropWrite n slot _ _ => decide (n < 16) && decide (slot < 8)
  | .bedEncWrite n slot enc _ _ => decide (n < 16) && decide (slot < 8) && decide (enc < 2)
  | .bedScaleWrite n slot _ => decide (n < 16) && decide (slot < 8)
  | .peNop e o => peOk e o
  | .peSadd e o => peOk e o
  | .peSsub e o => peOk e o
  | .peSaddi e o => peOk e o
  | .peSmul e o => peOk e o
  | .peSand e o => peOk e o
  | .peSor e o => peOk e o
  | .peSxor e o => peOk e o
  | .peSshli e o => peOk e o
  | .peSsrli e o => peOk e o
  | .peSsrai e o => peOk e o
  | .peSli e o => peOk e o
  | .peSlih e o => peOk e o
  | .peSlt e o => peOk e o
  | .peSprm e o => peOk e o
  | .peBr e o => peOk e o
  | .peEnd e o => peOk e o
  | .peVadd e o => peOk e o
  | .peVsub e o => peOk e o
  | .peVmulsh e o => peOk e o
  | .peVmadsh e o => peOk e o
  | .peVmin e o => peOk e o
  | .peVmax e o => peOk e o
  | .peVabs e o => peOk e o
  | .peVand e o => peOk e o
  | .peVor e o => peOk e o
  | .peVxor e o => peOk e o
  | .peVshli e o => peOk e o
  | .peVsrli e o => peOk e o
  | .peVsrai e o => peOk e o
  | .peVrsh e o => peOk e o
  | .peVclamp e o => peOk e o
  | .peVsel e o => peOk e o
  | .peVcmplt e o => peOk e o
  | .peVcmpeq e o => peOk e o
  | .peVcmple e o => peOk e o
  | .peVspl e o => peOk e o
  | .peVbrd e o => peOk e o
  | .peVpack e o => peOk e o
  | .peVunpl e o => peOk e o
  | .peVunph e o => peOk e o
  | .peVshuf e o => peOk e o
  | .peVext e o => peOk e o
  | .peVins e o => peOk e o
  | .peVred e o => peOk e o
  | .peFadd e o => peOk e o
  | .peFsub e o => peOk e o
  | .peFmul e o => peOk e o
  | .peFma e o => peOk e o
  | .peFmin e o => peOk e o
  | .peFmax e o => peOk e o
  | .peFcvtif e o => peOk e o
  | .peFcvtfi e o => peOk e o
  | .peFrcp e o => peOk e o
  | .peFrsq e o => peOk e o
  | .peFlog2 e o => peOk e o
  | .peFexp2 e o => peOk e o
  | .peVld e o => peOk e o
  | .peVst e o => peOk e o
  | .peVgath e o => peOk e o
  | .peSld e o => peOk e o
  | .peSst e o => peOk e o
  | .peWld e o => peOk e o
  | .peWst e o => peOk e o
  | .lineCapExceeded e => decide (e < 68)
  | .peDegraded e _ _ => decide (e < 68)
  | .peHardFault e kind _ => decide (e < 68) && decide (kind < 4)
  | .constRestored e _ => decide (e < 68)
  | .peTargetLoaded t => decide (t < 68)
  | .encPictureStart e errs mem => decide (e < 16) && wordErrsOk errs && memErrsOk mem
  | .encCtuRowCode e errs mem _ _ => decide (e < 16) && wordErrsOk errs && memErrsOk mem
  | .encKeyIdr e c => decide (e < 16) && decide (c < 8)
  | .encKeySweep e c => decide (e < 16) && decide (c < 8)
  | .seCapWrite e c _ => decide (e < 16) && decide (c < 8)
  | .decNalUnit e c seen errs mem =>
      decide (e < 16) && decide (c < 8) && NalSeen.ok seen && wordErrsOk errs && memErrsOk mem
  | .decPictureOutput e c _ => decide (e < 16) && decide (c < 8)
  | .decWrWrite e c _ => decide (e < 16) && decide (c < 8)
  | .decFlush e c => decide (e < 16) && decide (c < 8)
  | .decResync e c => decide (e < 16) && decide (c < 8)
  | .decEos e c => decide (e < 16) && decide (c < 8)
  | .mosaicHeaderTimeout e c => decide (e < 16) && decide (c < 8)
  | .headLine h errs mem => decide (h < 8) && wordErrsOk errs && memErrsOk mem
  | .headUnderrun h plane _ _ => decide (h < 8) && decide (plane < 4)
  | .headCommitReq h => decide (h < 8)
  | .headGroupCommitReq g => decide (g < 4)
  | .headStatusRead h => decide (h < 8)
  | .headCrcRectWrite h r _ _ => decide (h < 8) && decide (r < 16)
  | .memRequest op => MemOp.ok op
  | .memIssue pc errs => decide (pc < 128) && memErrsOk errs
  | .memDrainIdleTimeout pc => decide (pc < 128)
  | .memIdlePowerdown pc sid => decide (pc < 128) && decide (sid < 3)
  | .memRefresh pc bank => decide (pc < 128) && decide (bank < 48)
  | .memRetrain pc _ => decide (pc < 128)
  | .memRetrainForced pc _ => decide (pc < 128)
  | .memScrub _ errs => errsOk errs
  | .memRowRemap pc errs => decide (pc < 128) && memErrsOk errs
  | .memPcRetire pc => decide (pc < 128)
  | .memRetireComplete pc errs => decide (pc < 128) && memErrsOk errs
  | .memWmWrite _ => true
  | .recIfaceWrite _ _ => true
  | .recSqSizeWrite n _ cq cls => decide (n < 64) && decide (cq < 64) && decide (cls < 4)
  | .recCqSizeWrite n _ _ => decide (n < 64)
  | .recSqDoorbell n _ => decide (n < 64)
  | .recCqDoorbell n _ => decide (n < 64)
  | .recFetch entry => decide (entry.length = 64)
  | .recCompletionPost cq => decide (cq < 64)
  | .identify _ => true
  | .mediaInfo _ => true
  | .mediaFormat => true
  | .mediaTrim => true
  | .mediaFlush => true
  | .recordStart => true
  | .recordStop => true
  | .clipMark => true
  | .clipRead _ => true
  | .recSqReset n => decide (n < 64)
  | .recResetAll => true
  | .recArbWrite _ => true
  | .recTempWinWrite d _ => decide (d < 4)
  | .recPortLinkReset r wa sa wb sb =>
      decide (r < 2) && decide (wa < 16) && decide (sa < 6) && decide (wb < 16) && decide (sb < 6)
  | .recItemTake k errs mem => decide (k < 32) && wordErrsOk errs && memErrsOk mem
  | .recMediaWrite k => decide (k < 32)
  | .nvmeCompletion _ _ => true
  | .nvmeTimeout _ => true
  | .recCheckpoint k => decide (k < 32)
  | .recTempPoll d _ => decide (d < 4)
  | .recStopWaitExpire k => decide (k < 32)
  | .driveLost d => decide (d < 4)
  | .driveAttached d info => decide (d < 4) && DriveInfo.ok info
  | .hrwItemRx n words => decide (n < 64) && words.all NawenWord.ok
  | .hrwForwardStart p => decide (p < 2)
  | .hrwSendItem k errs => decide (k < 64) && wordErrsOk errs
  | .hello n block => decide (n < 64) && decide (block.length = 16)
  | .helloTimer p => decide (p < 2)
  | .enumToken n block => decide (n < 64) && decide (block.length = 16)
  | .enumAck n block => decide (n < 64) && decide (block.length = 16)
  | .enumTokenRepeat => true
  | .enumAckTimeout => true
  | .enumEnd n block => decide (n < 64) && decide (block.length = 16)
  | .enumDone n block => decide (n < 64) && decide (block.length = 16)
  | .enumStartTimer => true
  | .hrwEnumCmd => true
  | .join n block => decide (n < 64) && decide (block.length = 16)
  | .timeReq n block _ => decide (n < 64) && decide (block.length = 16)
  | .timeResp n block => decide (n < 64) && decide (block.length = 16)
  | .hrwTimeExchange => true
  | .graftStatus n block => decide (n < 64) && decide (block.length = 16)
  | .graftCommit n block => decide (n < 64) && decide (block.length = 16)
  | .graftCommitAt => true
  | .wake n block => decide (n < 64) && decide (block.length = 16)
  | .hrwGraftSend dest _ confirm _ _ => decide (dest < 4096) && decide (confirm < 65536)
  | .hrwGraftCommitCmd dest _ confirm => decide (dest < 4096) && decide (confirm < 65536)
  | .hrwBrokenRetry p => decide (p < 2)
  | .hrwLinkLost p => decide (p < 2)
  | .hrwRouteWrite k _ => decide (k < 64)
  | .hrwSendWrite k _ _ => decide (k < 64)
  | .wakePatternDetect p => decide (p < 2)
  | .wakePatternEnd p => decide (p < 2)
  | .audFrameIn k _ _ _ => decide (k < 12)
  | .audBlockComplete k => decide (k < 12)
  | .audFrameOut k _ errs => decide (k < 12) && memErrsOk errs
  | .audOutBlockBoundary k => decide (k < 12)
  | .aesCsBlock k bytes => decide (k < 12) && decide (bytes.length = 24)
  | .aesLockLost k => decide (k < 12)
  | .audNonaudioEnd k pair => decide (k < 12) && decide (pair < 32)
  | .audSlotMaskWrite k _ _ => decide (k < 12)
  | .audSlotMaskApply k => decide (k < 12)
  | .audTx30Packet t errs => decide (t < 2) && memErrsOk errs
  | .evtEdge ball _ => decide (ball < 32)
  | .twineChannelEvent channel => decide (channel < 256)
  | .evtOutPulseEnd ball => decide (ball < 32)
  | .knotFilterPass knot => decide (knot < 128)
  | .loopGuardTrip knot => decide (knot < 128)
  | .twnFireWrite k _ => decide (k < 8)
  | .twineTimerFire k => decide (k < 8)
  | .twnTimerAtWrite k _ => decide (k < 8)
  | .twnGroupWrite _ => true
  | .pcieLinkRestore => true
  | .mbxPost c who => decide (c < 64) && decide (who < 65536)
  | .mbxTake c who _ => decide (c < 64) && decide (who < 65536)
  | .mbxRing c who _ => decide (c < 64) && decide (who < 65536)
  | .mbxPendingClear c who _ => decide (c < 64) && decide (who < 65536)
  | .mbxLockRead c who => decide (c < 64) && decide (who < 65536)
  | .mbxLockWrite c who _ => decide (c < 64) && decide (who < 65536)
  | .mbxSlotWrite c who _ _ => decide (c < 64) && decide (who < 65536)
  | .mbxParamServe c _ => decide (c < 64)
  | .pwrReqDormant confirm => decide (confirm < 65536)
  | .pwrReqFallow confirm => decide (confirm < 65536)
  | .pwrEntryComplete => true
  | .pwrReqWake confirm => decide (confirm < 65536)
  | .pcieL2ExitWake => true
  | .softReset block => decide (block < 32)
  | .softResetDone block => decide (block < 32)
  | .perstAssert => true
  | .wdtKick _ _ => true
  | .wdtExpire => true
  | .thermalSample _ => true
  | .throttleGraceExpire => true
  | .throttleStepTimer => true
  | .thermalRelief => true
  | .thermalStepReverse => true
  | .thermalTrip sensor _ => decide (sensor < 28)
  | .tripRestart => true
  | .calOverwrite confirm _ => decide (confirm < 65536)
  | .calCopy confirm => decide (confirm < 65536)
  | .calWriteDone => true
  | .jtagExtest => true
  | .jtagSamplePreload => true
  | .jtagIdcode => true
  | .jtagClamp => true
  | .jtagHighz => true
  | .jtagBypass => true
  | .unknownMessageRx n block => decide (n < 64) && decide (block.length = 16)
  | .aesLockGained k => decide (k < 12)
  | .pcieLinkDown => true
  | .msixEnable => true
  | .tapReset => true
  | .keyBurnDone => true
  | .rawRateBand n _ => decide (n < 64)

end Sys2Proof
end

