-- ==== Sys2Proof/Certificates/Slice0/Obligations.lean ====
section
/-!
DEFINITION. The statements for the provers, chapter by chapter of the spec.
-/

open Sys2Proof Sys2Proof.Machine in
/-- For every command c and state s, a step of s with c at the front of its queue is exec of c on s with the queue's
rest. A step on an empty queue answers a state whose place within the 8 ns count is one further; the counter counts
with every 256th tick and stays otherwise, and nothing differs but the time base, Twine and register words. The
model's choices in it: log 2, 3. -/
def Obligations.StepRunsFrontCommand : Prop :=
  (∀ (s : State) (c : Instr) (rest : List Instr), s.pending = c :: rest → step s = exec c { s with pending := rest }) ∧
  (∀ s : State, s.pending = [] → ∃ t, step s = .next t ∧
    t.time.phase = s.time.phase + 1#8 ∧
    (t.time.counter = if s.time.phase = 255#8 then s.time.counter + 1#64 else s.time.counter) ∧
    t = { s with time := t.time, twine := t.twine, regs := t.regs })

open Sys2Proof Sys2Proof.Machine in
/-- A write that is not aligned, or beyond the window, stops by name. A write while the window cannot be reached
changes nothing; one to a block that cannot be reached sets GLB_ERR.REG_IN_RESET and changes nothing else; one to an
offset that holds no register, or to the registers of an absent instance, changes nothing; a word of the MSI-X table
takes the value written. The model's choices in it: log 11, 12, 15, 16. -/
def Obligations.RegisterWriteReach : Prop :=
  ∀ (s : State) (who off : Nat) (v : Word),
    (off % 4 ≠ 0 → exec (.registerWrite who off v) s = .fault .unaligned) ∧
    (off % 4 = 0 → 0x4000000 ≤ off → exec (.registerWrite who off v) s = .fault .outsideWindow) ∧
    (off % 4 = 0 → off < 0x4000000 → s.rootReach = false → exec (.registerWrite who off v) s = .next s) ∧
    (off % 4 = 0 → off < 0x3c00000 → s.rootReach = true → s.reaches (blockOfOffset off) = false →
      does (.registerWrite who off v) s fun t => t.bit F.GLB_ERR_REG_IN_RESET = true ∧ s.onlyWords t [R.GLB_ERR]) ∧
    (off % 4 = 0 → off < 0x3c00000 → s.rootReach = true → s.reaches (blockOfOffset off) = true → mailOffset off = none →
      (s.desc off = none ∨ presentAt s.variant off = false) → exec (.registerWrite who off v) s = .next s) ∧
    (off % 4 = 0 → 0x3c00000 ≤ off → off < 0x3c08000 → s.rootReach = true →
      does (.registerWrite who off v) s fun t => t.rd off = v ∧ s.onlyWords t [off])

open Sys2Proof Sys2Proof.Machine in
/-- A write that reaches a 32-bit register without shadowed or staged fields, whose write has no effect of its own
and whose chapter ignores no value of it, takes the written bit in read-write bits, clears a write-1-to-clear bit
and sets a write-1-to-set bit where 1 is written, and leaves every other bit, every other register and all the rest
of the state as they were. The model's choices in it: log 12. -/
def Obligations.RegisterWriteAccessCodes : Prop :=
  ∀ (s : State) (who off : Nat) (v : Word) (d : RegDesc),
    off % 4 = 0 → off < 0x3c00000 → s.rootReach = true → s.reaches (blockOfOffset off) = true → mailOffset off = none →
    s.desc off = some d → presentAt s.variant off = true → d.half = .one → d.access.rws = 0 → d.access.rwc = 0 →
    (let ix := indices d.dims (off - d.base)
     s.ownWrite d.base (ix.getD 0 0) (ix.getD 1 0) (ix.getD 2 0) off v = none ∧
     s.ignoredBits d.base (ix.getD 0 0) (ix.getD 1 0) v.toNat = 0) →
    d.base ≠ R.TRUG_STAT 0 → d.base ≠ R.ING_PORT_ERR 0 →
    does (.registerWrite who off v) s fun t =>
      s.onlyWords t [off] ∧
      ∀ i, i < 32 →
        (d.access.rw.testBit i = true → d.access.w1c.testBit i = false → d.access.w1s.testBit i = false →
          (t.rd off).getLsbD i = v.getLsbD i) ∧
        (d.access.rw.testBit i = false → d.access.w1c.testBit i = true → d.access.w1s.testBit i = false →
          (t.rd off).getLsbD i = ((s.rd off).getLsbD i && !v.getLsbD i)) ∧
        (d.access.rw.testBit i = false → d.access.w1c.testBit i = false → d.access.w1s.testBit i = true →
          (t.rd off).getLsbD i = ((s.rd off).getLsbD i || v.getLsbD i)) ∧
        (d.access.rw.testBit i = false → d.access.w1c.testBit i = false → d.access.w1s.testBit i = false →
          (t.rd off).getLsbD i = (s.rd off).getLsbD i)

open Sys2Proof Sys2Proof.Machine in
/-- A write of the low word of SEED_HOST_ADDR is held and changes no register. The write of its high word then
applies the held word and the high word together, drops the held word, and changes nothing else. An access that is
not answered sets GLB_ERR.REG_TIMEOUT and, where it is a read, returns 0. A write of GLB_LOG_RD in ring order from
RD_INDEX to WR_INDEX sets RD_INDEX; any other value is ignored and sets LOG_RD_BAD. Nothing else changes. The
model's choices in it: log 13. -/
def Obligations.WideWriteTimeoutAndReadIndex : Prop :=
  (∀ (s : State) (who : Nat) (lo hi : Word), s.rootReach = true →
    does (.registerWrite who R.SEED_HOST_ADDR lo) s fun t =>
      t = { s with held := s.held.insert R.SEED_HOST_ADDR lo } ∧
      does (.registerWrite who (R.SEED_HOST_ADDR + 4) hi) t fun u =>
        u.rd R.SEED_HOST_ADDR = ((s.rd R.SEED_HOST_ADDR &&& 0xff#32) ||| (lo &&& 0xffffff00#32)) ∧
        u.rd (R.SEED_HOST_ADDR + 4) = hi ∧
        (∀ o, o ≠ R.SEED_HOST_ADDR → o ≠ R.SEED_HOST_ADDR + 4 → u.rd o = s.rd o) ∧
        u = { s with regs := u.regs, held := (s.held.insert R.SEED_HOST_ADDR lo).erase R.SEED_HOST_ADDR }) ∧
  (∀ (s : State) (write : Bool) (v : Word),
    (does (.regAccessTimeout write) s fun t =>
      t.bit F.GLB_ERR_REG_TIMEOUT = true ∧
      ({ s with lastRead := if write then s.lastRead else [0] } : State).onlyWords t [R.GLB_ERR]) ∧
    (let n := s.logSize
     let x := v.toNat % 2 ^ 25
     let rd := s.getF F.GLB_LOG_RD_RD_INDEX
     if x < n ∧ (x + n - rd) % n ≤ (s.getF F.GLB_LOG_WR_WR_INDEX + n - rd) % n then
       does (.glbLogRdWrite v none) s fun t => t.getF F.GLB_LOG_RD_RD_INDEX = x ∧ s.onlyWords t [R.GLB_LOG_RD]
     else
       does (.glbLogRdWrite v none) s fun t => t.bit F.GLB_ERR_LOG_RD_BAD = true ∧ s.onlyWords t [R.GLB_ERR]))

open Sys2Proof Sys2Proof.Machine in
/-- A BAR2 read beyond the plot space sets GLB_ERR.BAR2_RANGE and completes as Unsupported Request; one that does
not lie in a plot the host may read, or comes while the HBM controller does not work, completes as Unsupported
Request and changes nothing else; one whose words are all good and meet no error completes with the bytes stored
there and changes nothing else. A BAR2 write beyond the plot space sets GLB_ERR.BAR2_RANGE, and one that does not
lie in a plot the host may write sets BAR2_WR_DENY; neither stores anything. One whose words are all good and meet
no error stores its bytes at its address, leaves every other byte as it was, and changes nothing but plot space. The
model's choices in it: log 84, 85. -/
def Obligations.Bar2Accesses : Prop :=
  (∀ (s : State) (off len : Nat), 0 < len →
    let a := s.bar2Addr off
    (s.variant.plotGiB * 2 ^ 30 < a + len → ∀ errs, does (.bar2Read off len errs) s fun t =>
      t.bit F.GLB_ERR_BAR2_RANGE = true ∧ (s.emit (.bar2Completion 1 [])).onlyWords t [R.GLB_ERR]) ∧
    (a + len ≤ s.variant.plotGiB * 2 ^ 30 → (s.up 8 = false ∨ s.inPlot a len Plot.hostRd = false) →
      ∀ errs, exec (.bar2Read off len errs) s = .next (s.emit (.bar2Completion 1 []))) ∧
    (a + len ≤ s.variant.plotGiB * 2 ^ 30 → s.up 8 = true → s.inPlot a len Plot.hostRd = true →
      (∀ x, x < len → s.hbm.bad (a + x) = false) →
      exec (.bar2Read off len []) s
        = .next { s.emit (.bar2Completion 0 (s.hbm.read a len)) with lastRead := [leNat (s.hbm.read a len)] })) ∧
  (∀ (s : State) (off : Nat) (data : List Byte), data ≠ [] →
    let a := s.bar2Addr off
    (s.variant.plotGiB * 2 ^ 30 < a + data.length → ∀ errs, does (.bar2Write off data errs) s fun t =>
      t.bit F.GLB_ERR_BAR2_RANGE = true ∧ s.onlyWords t [R.GLB_ERR]) ∧
    (a + data.length ≤ s.variant.plotGiB * 2 ^ 30 → s.inPlot a data.length Plot.hostWr = false →
      ∀ errs, does (.bar2Write off data errs) s fun t =>
        t.bit F.GLB_ERR_BAR2_WR_DENY = true ∧ s.onlyWords t [R.GLB_ERR]) ∧
    (a + data.length ≤ s.variant.plotGiB * 2 ^ 30 → s.inPlot a data.length Plot.hostWr = true → s.up 8 = true →
      (∀ x, x < data.length → s.hbm.bad (a + x) = false) →
      does (.bar2Write off data []) s fun t =>
        (∀ x, t.hbm.byte x = if a ≤ x ∧ x < a + data.length then data.getD (x - a) 0#8 else s.hbm.byte x) ∧
        t = { s with hbm := t.hbm }))

open Sys2Proof Sys2Proof.Machine in
/-- Seeding that is not due changes nothing. Seeding due after a graft reset, with a PLL that locks, firmware that
starts and a pseudo-channel that trains, ends READY: STATE 8, the watchdog on, the mailbox binding locked, nothing
due. Seeding from the boot slots with no slot enabled ends BARE: STATE 9, SOURCE 0, no image. A first PLL lock
failure or firmware start failure is counted, and a firmware failure sets FW_FALLBACK; the second of either ends
BARE with CODE 0x14 and the step in SEED_DETAIL. The model's choices in it: log 31. -/
def Obligations.SeedingOutcome : Prop :=
  ∀ (s : State) (env : SeedEnv),
    (s.seedDue = false → exec (.seeding env) s = .next s) ∧
    (s.seedDue = true → s.seed.due = 2 → s.seed.pllFails + env.pllFails < 2 → s.seed.fwFails + env.fwFails < 2 →
      (∃ q, q < Variant.pcs s.variant ∧ env.pcFails.contains q = false ∧ s.inService q = true) →
      does (.seeding env) s fun t => t.getF F.SEED_STATUS_STATE = 8 ∧ t.seed.due = 0 ∧ t.power.wdtOn = true ∧
        t.seed.locked.isSome = true ∧ t.bit F.MBX_LOCKED_LOCKED = true) ∧
    (s.seedDue = true → s.seed.due ≠ 2 → s.flash.enable = 0#4 → s.power.tripDue = none →
      does (.seeding env) s fun t => t.getF F.SEED_STATUS_STATE = 9 ∧ t.getF F.SEED_STATUS_SOURCE = 0 ∧
        t.seed.running = false ∧ t.seed.image = [] ∧ t.seed.due = 0) ∧
    (s.seedDue = true → s.seed.pllFails = 0 →
      exec .pllLockTimeout s = .next { s with seed := { s.seed with pllFails := 1 } }) ∧
    (s.seedDue = true → s.seed.fwFails = 0 →
      does .fwStartTimeout s fun t => t.bit F.SEED_STATUS_FW_FALLBACK = true ∧
        ({ s with seed := { s.seed with fwFails := 1 } } : State).onlyWords t [R.SEED_STATUS]) ∧
    (s.seedDue = true → s.seed.pllFails = 1 → s.power.tripDue = none →
      does .pllLockTimeout s fun t => t.getF F.SEED_STATUS_STATE = 9 ∧ t.getF F.SEED_STATUS_CODE = 0x14 ∧
        t.getF F.SEED_DETAIL_OFFSET = 4 ∧ t.seed.running = false) ∧
    (s.seedDue = true → s.seed.fwFails = 1 → s.power.tripDue = none →
      does .fwStartTimeout s fun t => t.getF F.SEED_STATUS_STATE = 9 ∧ t.getF F.SEED_STATUS_CODE = 0x14 ∧
        t.getF F.SEED_DETAIL_OFFSET = 8 ∧ t.seed.running = false)

open Sys2Proof Sys2Proof.Machine in
/-- A loader command that the registers can be reached for and that is confirmed, where it needs that, starts while
no load is under way: STATE reads LOADING, the job notes the image and where it cannot be read, and nothing else
changes; an erase also spoils its slot. While a load is under way it is refused: CODE is BUSY and the job under way
goes on. A host command with SEED_HOST_LEN 0 only sets CMD_ZERO. A command that is not confirmed changes nothing.
The model's choices in it: log 27, 30. -/
def Obligations.LoaderCommandsStart : Prop :=
  ∀ (s : State) (slot : Nat) (img : List Byte) (bad : Option Nat),
    s.rootReach = true →
    (∀ confirm, confirm ≠ 0x5EED →
      exec (.loadSlot slot confirm bad) s = .next s ∧ exec (.loadHostImage confirm img bad) s = .next s ∧
      exec (.storeHostImage slot confirm img bad) s = .next s ∧ exec (.eraseSlot slot confirm) s = .next s) ∧
    (s.loading = true →
      (does (.loadSlot slot 0x5EED bad) s fun t => t.getF F.SEED_STATUS_CODE = 0x12 ∧ t.seed = s.seed ∧ t.flash = s.flash) ∧
      (does (.eraseSlot slot 0x5EED) s fun t => t.getF F.SEED_STATUS_CODE = 0x12 ∧ t.seed = s.seed ∧ t.flash = s.flash)) ∧
    (s.loading = false →
      (does (.loadSlot slot 0x5EED bad) s fun t => t.getF F.SEED_STATUS_STATE = 10 ∧
        (∃ j, t.seed.job = some j ∧ j.kind = .load ∧ j.slot = slot % 4 ∧
          j.image = (s.flash.slots.at {} (slot % 4)).image ∧
          j.unreadable = if (s.flash.slots.at {} (slot % 4)).valid then bad else some 0) ∧
        ({ s with seed := t.seed } : State).onlyWords t [R.SEED_STATUS]) ∧
      (does (.eraseSlot slot 0x5EED) s fun t => t.getF F.SEED_STATUS_STATE = 10 ∧
        (t.flash.slots.at {} (slot % 4)).valid = false ∧ (∃ j, t.seed.job = some j ∧ j.kind = .erase (slot % 4)) ∧
        ({ s with seed := t.seed, flash := t.flash } : State).onlyWords t [R.SEED_STATUS]) ∧
      (0 < s.getF F.SEED_HOST_LEN_LEN →
        ∀ c ∈ [(Instr.loadHostImage 0x5EED img bad, LoadKind.load),
               (Instr.storeHostImage slot 0x5EED img bad, LoadKind.store (slot % 4)),
               (Instr.checkHostImage img bad, LoadKind.check)],
          does c.1 s fun t => t.getF F.SEED_STATUS_STATE = 10 ∧
            t.seed.job = some { kind := c.2, source := 2, slot := 0, image := img.take (s.getF F.SEED_HOST_LEN_LEN)
                                readLen := s.getF F.SEED_HOST_LEN_LEN, unreadable := bad } ∧
            ({ s with seed := t.seed } : State).onlyWords t [R.SEED_STATUS])) ∧
    (s.getF F.SEED_HOST_LEN_LEN = 0 →
      ∀ c ∈ [Instr.loadHostImage 0x5EED img bad, Instr.storeHostImage slot 0x5EED img bad, Instr.checkHostImage img bad],
        does c s fun t => t.bit F.SEED_STATUS_CMD_ZERO = true ∧ s.onlyWords t [R.SEED_STATUS])

open Sys2Proof Sys2Proof.Machine in
/-- The end of a check that finds a fault reports its code, section and offset and ends the job. The end of a good
load begins a graft reset on the image: it is the image, none runs, and seeding is due. The end of a good check ends
the job, and that of a good store begins the write of its slot. The end of a slot write leaves the slot with the
image, the end of an erase leaves it erased, and a failed one leaves it invalid. STATE reads READY or BARE again
when a job ends. The model's choices in it: log 28, 30. -/
def Obligations.LoaderCommandsEnd : Prop :=
  ∀ (s : State) (j : LoadJob), s.seed.job = some j →
    (∀ f, s.checkImage j.image j.readLen j.unreadable = .inl f → j.source ≠ 3 →
      (j.kind = .load ∨ j.kind = .check ∨ ∃ n, j.kind = .store n) →
      does .graftCheckComplete s fun t => t.getF F.SEED_STATUS_CODE = f.code % 256 ∧
        t.getF F.SEED_STATUS_SECTION = f.sec % 256 ∧ t.getF F.SEED_DETAIL_OFFSET = f.off % 2 ^ 32 ∧ t.seed.job = none ∧
        t.getF F.SEED_STATUS_STATE = (if s.seed.running then 8 else 9)) ∧
    (∀ img, s.checkImage j.image j.readLen j.unreadable = .inr img →
      (j.kind = .load → j.source ≠ 3 →
        does .graftCheckComplete s fun t => t.seed.image = img ∧ t.seed.running = false ∧ t.seed.due = 2 ∧
          t.seed.job = none ∧ t.getF F.SEED_STATUS_SOURCE = j.source % 8) ∧
      (j.kind = .check → does .graftCheckComplete s fun t => t.seed.job = none ∧
        t.getF F.SEED_STATUS_STATE = (if s.seed.running then 8 else 9) ∧
        ({ s with seed := t.seed } : State).onlyWords t [R.SEED_STATUS]) ∧
      (∀ n, j.kind = .store n → does .graftCheckComplete s fun t =>
        t.seed.job = some { j with kind := .write n, image := img } ∧ (t.flash.slots.at {} n).valid = false)) ∧
    (∀ n ok, j.kind = .write n → does (.slotWriteDone ok) s fun t =>
      t.flash.slots.at {} n = (if ok then { image := j.image, valid := true } else { image := [], valid := false }) ∧
      t.seed.job = none ∧ t.getF F.SEED_STATUS_STATE = (if s.seed.running then 8 else 9) ∧
      (∀ m, m ≠ n → t.flash.slots.at {} m = s.flash.slots.at {} m)) ∧
    (∀ n ok, j.kind = .erase n → does (.slotWriteDone ok) s fun t =>
      t.flash.slots.at {} n = { image := [], valid := ok } ∧ t.seed.job = none ∧
      (∀ m, m ≠ n → t.flash.slots.at {} m = s.flash.slots.at {} m))

open Sys2Proof Sys2Proof.Machine in
/-- A write of SEED_BOOT sets ORDER and ENABLE and the flash header alike. A confirmed KEY_PROGRAM of an
unprogrammed customer slot starts its burn and writes the hash; KEY_REVOKE of a customer slot and TARBOR_OFF start
theirs while another usable key remains; each sets BUSY. A command on any other slot, or while a burn is under way,
only sets REFUSED. The end of a burn sets the slot's state or TARBOR_OFF, shows it in SEED_KEYS and clears BUSY. The
model's choices in it: log 34. -/
def Obligations.BootRecordAndKeyFuses : Prop :=
  ∀ (s : State) (slot : Nat) (v : Word), s.rootReach = true →
    (does (.seedBootWrite v) s fun t => t.getF F.SEED_BOOT_ORDER = v.toNat % 256 ∧
      t.getF F.SEED_BOOT_ENABLE = v.toNat / 256 % 16 ∧ t.flash.order = v.setWidth 8 ∧
      t.flash.enable = (v >>> 8).setWidth 4 ∧ ({ s with flash := t.flash } : State).onlyWords t [R.SEED_BOOT]) ∧
    (s.seed.burn = none → customerSlot slot = true → s.fuses.slot slot = 0 →
      does (.keyProgram slot 0x5EED) s fun t => t.seed.burn = some (1, slot) ∧ t.bit F.SEED_KEY_CMD_BUSY = true ∧
        t.fuses.hashes.at [] slot = s.keyDigest ∧ t.fuses.slotState = s.fuses.slotState ∧
        ({ s with seed := t.seed, fuses := t.fuses } : State).onlyWords t [R.SEED_KEY_CMD]) ∧
    (s.seed.burn = none → customerSlot slot = true → (s.fuses.tarborOff = false ∨ s.fuses.usableBut slot = true) →
      does (.keyRevoke slot 0x5EED) s fun t => t.seed.burn = some (2, slot) ∧ t.bit F.SEED_KEY_CMD_BUSY = true ∧
        ({ s with seed := t.seed } : State).onlyWords t [R.SEED_KEY_CMD]) ∧
    (s.seed.burn = none → s.fuses.usableBut 0 = true →
      does (.tarborOff 0x5EED) s fun t => t.seed.burn = some (3, 0) ∧ t.bit F.SEED_KEY_CMD_BUSY = true ∧
        ({ s with seed := t.seed } : State).onlyWords t [R.SEED_KEY_CMD]) ∧
    ((s.seed.burn ≠ none ∨ customerSlot slot = false) →
      (does (.keyProgram slot 0x5EED) s fun t => t.bit F.SEED_KEY_CMD_REFUSED = true ∧ s.onlyWords t [R.SEED_KEY_CMD]) ∧
      (does (.keyRevoke slot 0x5EED) s fun t => t.bit F.SEED_KEY_CMD_REFUSED = true ∧ s.onlyWords t [R.SEED_KEY_CMD])) ∧
    (∀ cmd, s.seed.burn = some (cmd, slot) → cmd ≤ 3 →
      does .keyBurnDone s fun t => t.seed.burn = none ∧ t.bit F.SEED_KEY_CMD_BUSY = false ∧
        t.fuses.tarborOff = (s.fuses.tarborOff || cmd == 3) ∧
        (cmd ≠ 3 → customerSlot slot = true → t.fuses.slot slot = cmd) ∧
        (cmd ≠ 3 → ∀ k, customerSlot k = true → customerSlot slot = true → k ≠ slot → t.fuses.slot k = s.fuses.slot k) ∧
        t.bit F.SEED_KEYS_TARBOR_OFF = t.fuses.tarborOff)

open Sys2Proof Sys2Proof.Machine in
/-- In Growing, with no load and no calibration command under way, CAL_OVERWRITE with a sensor outside 0 to 85 °C
sets TEMP_REFUSED, one with a bad image sets FORMAT_REFUSED, and any other writes the store and sets BUSY. CAL_COPY
sends the whole 4 MiB store to host memory and changes nothing else. The end of the write clears BUSY and FACTORY.
The model's choices in it: log 33. -/
def Obligations.CalibrationStore : Prop :=
  ∀ (s : State) (img : List Byte), s.rootReach = true → s.pwr = 0 → s.loading = false →
    (s.bit F.SEED_CAL_STATUS_BUSY = false →
      (s.calTemp = false → does (.calOverwrite 0x5EED img) s fun t =>
        t.bit F.SEED_CAL_STATUS_TEMP_REFUSED = true ∧ s.onlyWords t [R.SEED_CAL_STATUS]) ∧
      (s.calTemp = true → calOk (img.take (s.getF F.SEED_HOST_LEN_LEN)) = false →
        does (.calOverwrite 0x5EED img) s fun t =>
          t.bit F.SEED_CAL_STATUS_FORMAT_REFUSED = true ∧ s.onlyWords t [R.SEED_CAL_STATUS]) ∧
      (s.calTemp = true → calOk (img.take (s.getF F.SEED_HOST_LEN_LEN)) = true →
        does (.calOverwrite 0x5EED img) s fun t => t.bit F.SEED_CAL_STATUS_BUSY = true ∧
          t.flash.cal.take 6 = img.take 6 ∧ fieldAt t.flash.cal 6 2 = 0 ∧
          fieldAt t.flash.cal 8 8 = (fieldAt img 8 8 + 1) % 2 ^ 64 ∧
          ({ s with flash := t.flash } : State).onlyWords t [R.SEED_CAL_STATUS]) ∧
      (exec (.calCopy 0x5EED) s = .next (s.emit (.hostWrite (s.getF F.SEED_HOST_ADDR_ADDR * 256)
        (s.flash.cal ++ List.replicate (4194304 - s.flash.cal.length) 0xFF#8))))) ∧
    (s.bit F.SEED_CAL_STATUS_BUSY = true → does .calWriteDone s fun t =>
      t.bit F.SEED_CAL_STATUS_BUSY = false ∧ t.bit F.SEED_CAL_STATUS_FACTORY = false ∧
      s.onlyWords t [R.SEED_CAL_STATUS])

open Sys2Proof Sys2Proof.Machine in
/-- With no servo source selected and the block reached, the write of the high word of TIME_RATE sets the rate
written, within 2^RATE_MAX, by a fold that leaves the corrected time as it was; with a servo source it sets
WR_IGNORED and the rate stays. A write of TIME_OFFSET_NS in range commits the held words with it at the present
tick; a value of a second or more, or a servo source, sets WR_IGNORED. A confirmed step of a servo in FREE moves the
corrected time by TIME_STEP; one that is not confirmed, or of 0, changes nothing. TIME_SNAP returns the tick count
and changes nothing but the snapshot. The model's choices in it: log 50. -/
def Obligations.TimeSettings : Prop :=
  ∀ s : State, s.reaches 1 = true →
    (s.getF F.TIME_CTL_SOURCE = 0 → 0 ≤ s.corr → s.corr < 2 ^ 48 * unitsPerSec → ∀ hi : Word,
      does (.timeRateWrite hi) s fun t => t.corr = s.corr ∧ t.getF F.TIME_EPOCH_EPOCH = s.ticks ∧
        t.rate = clampInt (-s.rateBound) s.rateBound
          (signedOf 64 ((s.held.at (s.rd R.TIME_RATE) R.TIME_RATE).toNat + hi.toNat * 2 ^ 32))) ∧
    (s.getF F.TIME_CTL_SOURCE ≠ 0 → ∀ hi : Word,
      does (.timeRateWrite hi) s fun t => t.bit F.TIME_ERR_WR_IGNORED = true ∧ t.rate = s.rate ∧ t.corr = s.corr) ∧
    (∀ ns : Word, s.getF F.TIME_CTL_SOURCE = 0 → ns.toNat % 2 ^ 30 ≤ 999999999 → does (.timeOffsetWrite ns) s fun t =>
      t.getF F.TIME_OFFSET_NS_NS = ns.toNat % 2 ^ 30 ∧ t.getF F.TIME_EPOCH_EPOCH = s.ticks ∧
      t.rd R.TIME_OFFSET_SEC = s.held.at (s.rd R.TIME_OFFSET_SEC) R.TIME_OFFSET_SEC ∧
      t.rd (R.TIME_OFFSET_SEC + 4) = s.held.at (s.rd (R.TIME_OFFSET_SEC + 4)) (R.TIME_OFFSET_SEC + 4)) ∧
    (∀ ns : Word, (s.getF F.TIME_CTL_SOURCE ≠ 0 ∨ 999999999 < ns.toNat % 2 ^ 30) → does (.timeOffsetWrite ns) s fun t =>
      t.bit F.TIME_ERR_WR_IGNORED = true ∧ (∀ o, o ≠ R.TIME_ERR → t.rd o = s.rd o)) ∧
    (s.getF F.TIME_STATUS_STATE = 0 → s.getS F.TIME_STEP_STEP ≠ 0 → 0 ≤ s.corr + s.getS F.TIME_STEP_STEP →
      s.corr + s.getS F.TIME_STEP_STEP < 2 ^ 48 * unitsPerSec → does (.timeStepCmd 0x5EED) s fun t =>
        t.corr = s.corr + s.getS F.TIME_STEP_STEP ∧ t.bit F.TIME_ERR_STEPPED = true ∧ t.rate = s.rate) ∧
    (∀ confirm, (confirm ≠ 0x5EED ∨ s.getS F.TIME_STEP_STEP = 0) → exec (.timeStepCmd confirm) s = .next s) ∧
    (does .timeSnapRead s fun t => t.lastRead = [s.ticks % 2 ^ 32] ∧ t.getF F.TIME_SNAP_TICKS_TICKS = s.ticks ∧
      ({ s with lastRead := t.lastRead } : State).onlyWords t
        [R.TIME_SNAP_TICKS, R.TIME_SNAP_TICKS + 4, R.TIME_SNAP_SEC, R.TIME_SNAP_SEC + 4, R.TIME_SNAP_NS])

open Sys2Proof Sys2Proof.Machine in
/-- A servo reset in FREE changes nothing, and in any other state enters ACQUIRE afresh: STATE 1, no measurement
counted, the integral at the current rate. TIME_CTL sets SOURCE and MSIX_EN, takes a RATE_MAX of 24 to 36, sets
WR_IGNORED for any other, and sends the servo to FREE with SOURCE 0. The holdover timeout of a servo in ACQUIRE or
LOCKED, where HOLDOVER is not 0, leads to HOLDOVER with the integral as the rate; elsewhere it changes nothing. The
interpolator lock is noted while the fast clocks run. The model's choices in it: log 50, 52, 55. -/
def Obligations.ServoCommands : Prop :=
  ∀ s : State,
    (s.reaches 1 = true → s.getF F.TIME_STATUS_STATE = 0 → exec .servoReset s = .next s) ∧
    (s.reaches 1 = true → s.getF F.TIME_STATUS_STATE ≠ 0 → does .servoReset s fun t =>
      t.getF F.TIME_STATUS_STATE = 1 ∧ t.time.locks = 0 ∧ t.time.discards = 0 ∧ t.time.acq = 0 ∧
      t.time.integral = s.rate ∧ t.rate = s.rate ∧ t.corr = s.corr) ∧
    (s.reaches 1 = true → ∀ v : Word, does (.timeCtlWrite v) s fun t =>
      t.getF F.TIME_CTL_SOURCE = bitsOf v.toNat 0 2 ∧ t.getF F.TIME_CTL_MSIX_EN = bitsOf v.toNat 16 1 ∧
      (if 24 ≤ bitsOf v.toNat 8 6 ∧ bitsOf v.toNat 8 6 ≤ 36 then t.getF F.TIME_CTL_RATE_MAX = bitsOf v.toNat 8 6
       else t.getF F.TIME_CTL_RATE_MAX = s.getF F.TIME_CTL_RATE_MAX ∧ t.bit F.TIME_ERR_WR_IGNORED = true) ∧
      (bitsOf v.toNat 0 2 = 0 → t.getF F.TIME_STATUS_STATE = 0)) ∧
    (s.getF F.TIME_HOLD_HOLDOVER ≠ 0 → (s.getF F.TIME_STATUS_STATE = 1 ∨ s.getF F.TIME_STATUS_STATE = 2) →
      does .servoHoldoverTimeout s fun t => t.getF F.TIME_STATUS_STATE = 3 ∧ t.bit F.TIME_ERR_HOLDOVER = true ∧
        (-(2 ^ 63) ≤ s.time.integral → s.time.integral < 2 ^ 63 → t.rate = s.time.integral)) ∧
    ((s.getF F.TIME_HOLD_HOLDOVER = 0 ∨ s.getF F.TIME_STATUS_STATE = 0 ∨ 3 ≤ s.getF F.TIME_STATUS_STATE) →
      exec .servoHoldoverTimeout s = .next s) ∧
    (does .interpLocked s fun t => (s.fastOn = true → t.bit F.TIME_STATUS_INTERP_LOCK = true) ∧
      (s.fastOn = false → t = s) ∧ s.onlyWords t [R.TIME_STATUS])

open Sys2Proof Sys2Proof.Machine in
/-- A message of a port that is not enabled or of another domain changes nothing. An Announce in range adds its
sender to the masters heard, and the best of them is the master. The end of the announce interval of the master
forgets it. A two-step Sync of the master is kept with its corrected time of receipt until its Follow_Up, which
completes it. A Delay_Req goes out while a master is selected, and the answer to it gives the mean path delay, never
negative. A Management message with the SMPTE metadata goes to the control cores. A PPS edge fires Twine source 156,
and changes nothing else unless PPS is the servo's source. The model's choices in it: log 53. -/
def Obligations.PtpMessages : Prop :=
  ∀ s : State,
    (∀ m : PtpAnnounce, s.ptpHears m.port m.domain = false → exec (.ptpAnnounceRx m) s = .next s) ∧
    (∀ m : PtpTimed, s.ptpHears m.port m.domain = false →
      exec (.ptpSyncRx m) s = .next s ∧ exec (.ptpFollowUpRx m) s = .next s ∧ exec (.ptpDelayRespRx m) s = .next s) ∧
    (∀ m : PtpAnnounce, s.ptpHears m.port m.domain = true → -3 ≤ m.logInterval → m.logInterval ≤ 1 →
      does (.ptpAnnounceRx m) s fun t =>
        (∃ x ∈ t.time.masters, x.senderId = m.sender ∧ x.port = m.port ∧ x.gmId = m.gmId ∧ x.clockClass = m.clockClass) ∧
        t.time.best = bestMaster t.time.masters ∧
        ∀ y ∈ s.time.masters, (y.senderId ≠ m.sender ∨ y.port ≠ m.port) → y ∈ t.time.masters) ∧
    (∀ b, s.time.best = some b → does .ptpAnnounceTimeout s fun t =>
      (∀ y ∈ t.time.masters, y ∈ s.time.masters ∧ (y.senderId ≠ b.senderId ∨ y.port ≠ b.port)) ∧
      t.time.best = bestMaster t.time.masters) ∧
    (∀ m : PtpTimed, s.fromMaster m = true → -7 ≤ m.logInterval → m.logInterval ≤ -1 → m.twoStep = true →
      does (.ptpSyncRx m) s fun t =>
        t.time.sync = some { seq := m.seq, t2 := s.corr - (s.rxLatency m.port : Int) * 2048, t1 := none
                             correction := m.correction } ∧
        ({ s with time := t.time } : State).onlyWords t [R.TIME_PTP_STATUS]) ∧
    (∀ (m : PtpTimed) (y : PtpSync), s.fromMaster m = true → s.time.sync = some y → y.seq = m.seq → y.t1 = none →
      s.getF F.TIME_CTL_SOURCE ≠ 1 → exec (.ptpFollowUpRx m) s = .next { s with time := { s.time with
        sync := some { y with t1 := some (m.time + m.correction + y.correction) } } }) ∧
    (∀ b, s.time.best = some b → s.up 1 = true → does .ptpDelayReqSend s fun t =>
      t.time.delaySeq = (s.time.delaySeq + 1) % 65536 ∧ t.out = s.out ++
        [.ptpDelayReq b.port ((s.time.delaySeq + 1) % 65536) (s.bit F.TIME_PTP_CTL_HYBRID)] ∧
      t = { s with time := t.time, out := t.out }) ∧
    (∀ (m : PtpTimed) (seq : Nat) (t3 : Int) (y : PtpSync) (t1 : Int), s.fromMaster m = true →
      s.time.delayReq = some (seq, t3) → s.time.sync = some y → y.t1 = some t1 → seq = m.seq →
      s.getF F.TIME_CTL_SOURCE ≠ 1 → does (.ptpDelayRespRx m) s fun t =>
        t.time.delayReq = none ∧ t.time.pathKnown = true ∧
        t.getF F.TIME_PTP_PATH_MEAN_PATH
          = min (max 0 (((y.t2 - t1) + (m.time - m.correction - t3)) / 2) / 256).toNat (2 ^ 32 - 1) ∧
        ({ s with time := t.time } : State).onlyWords t [R.TIME_PTP_PATH]) ∧
    (∀ port domain body, s.ptpHears port domain = true →
      exec (.ptpManagementRx port domain true body) s = .next (s.emit (.ptpManagement port body)) ∧
      exec (.ptpManagementRx port domain false body) s = .next s) ∧
    (s.getF F.TIME_CTL_SOURCE ≠ 3 → does .ppsEdge s fun t => t = { s with twine := t.twine } ∧
      ∃ l, t.twine = { s.twine with due := s.twine.due ++ l })

open Sys2Proof Sys2Proof.Machine in
/-- A frame-start edge of a GENLOCK input is stamped, its kind and lines are reported, and from the second edge on
its period is measured. The loss of an input that had an edge and is not lost yet sets GL_LOST, clears PRESENT and
makes every reference that it feeds freewheel; another loss changes nothing. A boundary of a reference that is off
leaves it neither locked nor freewheeling. A command on a number that does not exist changes nothing. The model's
choices in it: log 54. -/
def Obligations.GenlockAndFrameReferences : Prop :=
  ∀ (s : State) (n : Nat),
    (∀ tri il lines, s.up 1 = true → n < 2 → does (.genlockEdge n tri il lines) s fun t =>
      (t.gen n).lastEdge = some s.corrTicks ∧ (t.gen n).lost = false ∧
      (∀ e, (s.gen n).lastEdge = some e → (s.gen n).lost = false → (t.gen n).period = (s.corrTicks - e).toNat) ∧
      t.bit (F.TIME_GL_STAT_PRESENT n) = true ∧ t.bit (F.TIME_GL_STAT_TRI n) = tri ∧
      t.bit (F.TIME_GL_STAT_INTERLACED n) = il ∧ t.getF (F.TIME_GL_STAT_LINES n) = lines % 4096 ∧
      (∀ m, m ≠ n → t.gen m = s.gen m) ∧ (∀ o, o ≠ R.TIME_GL_STAT n → o ≠ R.TIME_GL_PERIOD n → t.rd o = s.rd o)) ∧
    (2 ≤ n → ∀ tri il lines, exec (.genlockEdge n tri il lines) s = .next s ∧ exec (.genlockLost n) s = .next s) ∧
    (n < 2 → (s.gen n).lastEdge.isSome = true → (s.gen n).lost = false → does (.genlockLost n) s fun t =>
      (t.gen n).lost = true ∧ t.bit F.TIME_ERR_GL_LOST = true ∧ t.bit (F.TIME_GL_STAT_PRESENT n) = false ∧
      ∀ k, k < 16 → (s.fref k).source = 3 + n →
        t.bit (F.TIME_FREF_STAT_FREEWHEEL k) = true ∧ t.bit (F.TIME_FREF_STAT_LOCKED k) = false) ∧
    (((s.gen n).lastEdge = none ∨ (s.gen n).lost = true) → exec (.genlockLost n) s = .next s) ∧
    ((s.up 1 = false ∨ 16 ≤ n) → exec (.frefBoundary n) s = .next s) ∧
    (s.up 1 = true → n < 16 → (s.frefSettings n).off = true → does (.frefBoundary n) s fun t =>
        (t.fref n).last = none ∧ t.bit (F.TIME_FREF_STAT_LOCKED n) = false ∧ t.bit (F.TIME_FREF_STAT_FREEWHEEL n) = false)

open Sys2Proof Sys2Proof.Machine in
/-- A write to a trug that is in use, takes writes and is not FULL: bytes that do not fill a word wait in the
packing stage, a full word enters the ring with tag 0, and an END write enters the last word with END and its valid
count. A write that finds the trug FULL is dropped with its item, which is cut in the ring if words of it are there,
sets OVERRUN and counts. OCCUPANCY follows the ring. Every other trug is as it was, and nothing beside the trugs and
the registers changes. A write to an unused trug, beyond the last one, or while the block does not work changes
nothing. -/
def Obligations.TrugWritePort : Prop :=
  ∀ (s : State) (n : Nat) (val : BitVec 64) (last : Option Nat), last ≠ some 0 →
    let w := 2 ^ s.getF (F.TRUG_CFG_WIDTH n)
    let bytes := leBytes (match last with | none => w | some v => min v w) val.toNat
    let p := (s.trug n).pack ++ bytes
    ((s.up 14 = false ∨ 512 ≤ n ∨ s.trugDepth n = 0) → exec (.trugWrite n val last) s = .next s) ∧
    (s.up 14 = true → n < 512 → s.trugDepth n ≠ 0 →
      does (.trugWrite n val last) s fun t =>
        (∀ m, m ≠ n → t.trug m = s.trug m) ∧ t = { s with trugs := t.trugs, regs := t.regs } ∧
        t.getF (F.TRUG_STAT_OCCUPANCY n) = (t.trug n).ring.length % 2 ^ (F.TRUG_STAT_OCCUPANCY n).width ∧
        ((s.trug n).skip = true → (t.trug n).ring = (s.trug n).ring ∧ (t.trug n).skip = last.isNone) ∧
        ((s.trug n).skip = false → s.trugFull n = false →
          (t.trug n).ring = (s.trug n).ring ++ (if last.isSome then
            [{ data := padTo 32 p, tag := BitVec.ofNat 8 (p.length % 32 + 0x20) }]
            else if 32 ≤ p.length then [{ data := padTo 32 p, tag := 0#8 }] else []) ∧
          (t.trug n).pack = (if last.isSome = true ∨ 32 ≤ p.length then [] else p) ∧
          (t.trug n).inItem = last.isNone) ∧
        ((s.trug n).skip = false → s.trugFull n = true →
          (t.trug n).ring = (s.trug n).ring ++ (if (s.trug n).committed = 0 then [] else [cutWord]) ∧
          t.bit (F.TRUG_STAT_OVERRUN n) = true ∧ (t.trug n).skip = last.isNone ∧
          t.getF (F.TRUG_OVR_COUNT n)
            = min (s.getF (F.TRUG_OVR_COUNT n) + 1) (2 ^ (F.TRUG_OVR_COUNT n).width - 1)))

open Sys2Proof Sys2Proof.Machine in
/-- A read of a trug that holds a word without error returns its data and tag, takes it off the ring, and leaves
every other trug as it was. A read of an empty trug returns the idle word where the mode or RECOVERY says so, and
stalls otherwise; a stalled read completes with a word once there is one. A flush empties the ring and the packing
stage at once, unless the trug is privileged and its consumer is within an item: then FLUSH reads 1 until the item's
END has been read. The rest of an item in progress is ignored. -/
def Obligations.TrugReadPort : Prop :=
  ∀ (s : State) (n : Nat), s.up 14 = true → n < 512 →
    (∀ w rest, (s.trug n).ring = w :: rest → does (.trugRead n [] 0) s fun t =>
      t.lastRead = [leNat w.data, w.tag.toNat] ∧ (t.trug n).ring = rest ∧ (t.trug n).reading = !w.tag.getLsbD 5 ∧
      (∀ m, m ≠ n → t.trug m = s.trug m) ∧ t = { s with trugs := t.trugs, regs := t.regs, lastRead := t.lastRead }) ∧
    ((s.trug n).ring = [] → s.trugDepth n ≠ 0 → s.trugIdles n = true →
      exec (.trugRead n [] 0) s = .next { s with lastRead := [leNat s.trugIdle.data, 0x40] }) ∧
    ((s.trug n).ring = [] → (s.trugDepth n = 0 ∨ s.trugIdles n = false) → does (.trugRead n [] 0) s fun t =>
      (t.trug n).stalled = true ∧ (t.trug n).ring = [] ∧ t.lastRead = s.lastRead) ∧
    (∀ w rest, (s.trug n).stalled = true → (s.trug n).ring = w :: rest → does (.trugReadUnstall n [] 0) s fun t =>
      t.lastRead = [leNat w.data, w.tag.toNat] ∧ (t.trug n).ring = rest ∧ (t.trug n).stalled = false) ∧
    ((s.trug n).stalled = false → ∀ e k, exec (.trugReadUnstall n e k) s = .next s) ∧
    (s.reaches 14 = true → s.bit (F.TRUG_CTL_FLUSH n) = false →
      does (.trugFlush n) s fun t =>
        (if s.bit (F.TRUG_CFG_PRIV n) = true ∧ (s.trug n).reading = true then
          (t.trug n).flushWait = true ∧ t.bit (F.TRUG_CTL_FLUSH n) = true ∧ (t.trug n).ring = (s.trug n).ring
         else (t.trug n).ring = [] ∧ (t.trug n).pack = [] ∧ t.bit (F.TRUG_CTL_FLUSH n) = false ∧
           (t.trug n).skip = ((s.trug n).skip || (s.trug n).inItem)) ∧
        ∀ m, m ≠ n → t.trug m = s.trug m) ∧
    ((s.trug n).flushWait = true → (s.trug n).reading = false → does (.trugFlushDeferred n) s fun t =>
      (t.trug n).ring = [] ∧ (t.trug n).flushWait = false ∧ t.bit (F.TRUG_CTL_FLUSH n) = false) ∧
    (((s.trug n).flushWait = false ∨ (s.trug n).reading = true) → exec (.trugFlushDeferred n) s = .next s)

open Sys2Proof Sys2Proof.Machine in
/-- For a Runner with no lane that waits and a role other than a hedgerow port, dealing with waiting lanes and
noting the change at a hedgerow port change nothing. A command on a Runner that is not of a Nawen role changes
nothing. -/
def Obligations.RunnerSettled : Prop :=
  ∀ (s : State) (n : Nat),
    ((s.runner n).waiting = [] → s.runRole n ≠ 2 → s.runRole n ≠ 3 → (s.runWaiting n 9).hedgeHook n = s) ∧
    (s.nawen n = false →
      (∀ c ∈ [Instr.clockActivityDetect n, .clockLaneLock n, .equaliseTimeout n, .trainStateTimeout n, .checkWindowPass n,
          .checkFail n, .tierStep n, .failedRetry n, .l1IdleTimeout n, .l1Exit n, .l2EnterRx n], exec c s = .next s) ∧
      (∀ b, ∀ c ∈ [Instr.restepRx n b, .spareRequestRx n b, .spareDuplicatingRx n b, .spareSwitchedRx n b,
          .spareNarrowRx n b, .l1EnterRx n b, .l1ExitRx n b], exec c s = .next s))

open Sys2Proof Sys2Proof.Machine in
/-- Clock activity takes a Nawen Runner from DETECT to CLOCK, the lock of the clock lane to ALIGN with its lock
noted; aligned lanes lock and take it to EQUALISE, or straight to CHECK where EQUALISE is skipped, and lanes beyond
the deskew range do not count; the end of the time for EQUALISE takes it to CHECK. A pass of its own CHECK is noted,
and steps the link up once the peer has passed too and a higher tier is allowed. A switch at the agreed place moves
the tier by one, up or down. A retry and a retrain request begin again at DETECT and T0. A training block with a
wrong CRC changes nothing; a good one while lanes acknowledge records the peer's version and cap. A CHECK that
fails, or the time of a training state that runs out, at T0 leads to FAILED with TRAIN_FAIL, and above it to a
fallback by one tier with FALLBACK set and counted, unless the link stepped up from the tier it is at. Out of L2 the
time that runs out starts training from T0 with L2_EXIT_RETRAIN. The model's choices in it: log 56, 57, 58. -/
def Obligations.RunnerTraining : Prop :=
  (∀ (s : State) (n : Nat), s.nawen n = true →
    (s.runState n = 1 → runs (.clockActivityDetect n) s n fun u => u.runState n = 2) ∧
    (s.runState n = 2 → runs (.clockLaneLock n) s n fun u => u.runState n = 3 ∧ u.bit (F.RUN_LANE_LOCK n 9) = true) ∧
    (∀ skews trims, s.runState n = 3 → (s.runner n).l2Exit = false → (∀ k ∈ skews, k ≤ 255) →
      runs (.lanesAligned n skews trims) s n fun u =>
        u.runState n = (if (s.runner n).skipEq then 6 else 4) ∧ ∀ k, k < 9 → u.bit (F.RUN_LANE_LOCK n k) = true) ∧
    (∀ skews trims, s.runState n = 3 → (∃ k ∈ skews, 255 < k) → runs (.lanesAligned n skews trims) s n fun u => u = s) ∧
    (s.runState n = 5 → runs (.equaliseTimeout n) s n fun u => u.runState n = 6 ∧ (u.runner n).ownPass = false ∧
      (u.runner n).peerPass = false) ∧
    (s.runState n = 6 → (s.runner n).peerPass = false → runs (.checkWindowPass n) s n fun u =>
      (u.runner n).ownPass = true ∧ u.regs = s.regs) ∧
    (s.runState n = 6 → (s.runner n).peerPass = true → (s.runner n).final = false → s.runTier n < s.tierCap n →
      runs (.checkWindowPass n) s n fun u => u.runState n = 7 ∧ u.runTier n = s.runTier n) ∧
    (s.runState n = 7 → (s.runner n).stepDown = true → runs (.tierStep n) s n fun u =>
      u.runState n = 3 ∧ u.runTier n = s.runTier n - 1 ∧ (u.runner n).final = true ∧ (u.runner n).skipEq = true) ∧
    (s.runState n = 7 → (s.runner n).stepDown = false → (s.runner n).reqRx = true → (s.runner n).ackRx = true →
      runs (.tierStep n) s n fun u => u.runState n = 3 ∧ u.runTier n = (s.runTier n + 1) % 8) ∧
    (s.runState n = 9 → runs (.failedRetry n) s n fun u => u.runState n = 1 ∧ u.runTier n = 0) ∧
    (s.reaches 2 = true → runs (.runRetrain n) s n fun u => u.runState n = 1 ∧ u.runTier n = 0 ∧
      (u.runner n).subst = none)) ∧
  (∀ (s : State) (n : Nat), s.nawen n = true →
    (∀ b own, blockOk 0x1E b = false → runs (.trainBlockRx n b own) s n fun u => u = s) ∧
    (∀ b own, blockOk 0x1E b = true → s.runState n = 4 → (byteAt b 3).testBit 6 = false →
      runs (.trainBlockRx n b own) s n fun u =>
        u.getF (F.RUN_STATUS_VERSION n) = min (byteAt b 1) 0x10 ∧ (u.runner n).peerMax = bitsOf (byteAt b 2) 0 3 ∧
        (u.runState n = 4 ∨ u.runState n = 5)) ∧
    (∀ c st, (c = Instr.checkFail n ∧ st = 6) ∨
        (c = Instr.trainStateTimeout n ∧ st ∈ [2, 3, 4, 7] ∧ (s.runner n).l2Exit = false) → s.runState n = st →
      (s.runTier n = 0 → (s.runner n).floor = none → runs c s n fun u =>
        u.runState n = 9 ∧ u.bit (F.RUN_ERR_TRAIN_FAIL n) = true) ∧
      (s.runTier n ≠ 0 → (s.runner n).floor ≠ some (s.runTier n) → runs c s n fun u =>
        u.runState n = 7 ∧ (u.runner n).stepDown = true ∧ u.bit (F.RUN_ERR_FALLBACK n) = true)) ∧
    (s.runState n ∈ [2, 3, 4, 7] → (s.runner n).l2Exit = true → runs (.trainStateTimeout n) s n fun u =>
      u.runState n = 1 ∧ u.bit (F.RUN_ERR_L2_EXIT_RETRAIN n) = true))

open Sys2Proof Sys2Proof.Machine in
/-- A cap up to MAX_TIER is taken and one above it ignored; PSTATE_REQ 3 is ignored, and on an ACTIVE Runner 1 sends
the entry to L1 and 2 turns it off in L2. The idle time sends the entry to L1 where L1_IDLE is not 0, data to send
leaves it, and the peer's blocks set and clear the receiving side's L1. The peer's entry to L2 turns the Runner off
with its tier noted. Out of L2 a check that fails retrains with L2_EXIT_RETRAIN. A RESTEP that answers the Runner's
own takes the link to CHECK. The model's choices in it: log 57, 58. -/
def Obligations.RunnerPowerStates : Prop :=
  ∀ (s : State) (n : Nat), s.nawen n = true → s.reaches 2 = true →
    (∀ cap, cap ≤ s.maxTier n → cap < 8 → runs (.runTierCapWrite n cap) s n fun u => u.getF (F.RUN_CTL_TIER_CAP n) = cap) ∧
    (∀ cap, s.maxTier n < cap → exec (.runTierCapWrite n cap) s = .next s) ∧
    (∀ v, 3 ≤ v → exec (.runPstateReq n v) s = .next s) ∧
    (s.runState n = 8 → (s.runner n).subst = none → (s.runner n).l1Tx = false → runs (.runPstateReq n 1) s n fun u =>
      u.getF (F.RUN_CTL_PSTATE_REQ n) = 1 ∧ u.getF (F.RUN_STATUS_PSTATE n) = 1 ∧ (u.runner n).l1Tx = true ∧
      u.out = s.out ++ [.control n 0x66 ((closeBlock 0x66 []).drop 1)]) ∧
    (s.runState n = 8 → (s.runner n).subst = none → runs (.runPstateReq n 2) s n fun u =>
      u.getF (F.RUN_CTL_PSTATE_REQ n) = 2 ∧ u.getF (F.RUN_STATUS_PSTATE n) = 2 ∧ u.runState n = 0 ∧
      (u.runner n).l2 = true ∧ (u.runner n).l2Tier = s.runTier n) ∧
    (s.runState n = 8 → s.getF (F.RUN_PM_L1_IDLE n) ≠ 0 → (s.runner n).l1Tx = false → runs (.l1IdleTimeout n) s n fun u =>
      u.getF (F.RUN_STATUS_PSTATE n) = 1 ∧ (u.runner n).l1Tx = true) ∧
    (s.getF (F.RUN_PM_L1_IDLE n) = 0 → runs (.l1IdleTimeout n) s n fun u => u = s) ∧
    (s.runState n = 8 → (s.runner n).l1Tx = true → runs (.l1Exit n) s n fun u => (u.runner n).l1Tx = false ∧
      u.getF (F.RUN_STATUS_PSTATE n) = (if (s.runner n).l1Rx then 1 else 0)) ∧
    (∀ b, s.runState n = 8 → blockOk 0x66 b = true → runs (.l1EnterRx n b) s n fun u =>
      (u.runner n).l1Rx = true ∧ u.getF (F.RUN_STATUS_PSTATE n) = 1) ∧
    (∀ b, s.runState n = 8 → blockOk 0x78 b = true → runs (.l1ExitRx n b) s n fun u =>
      (u.runner n).l1Rx = false ∧ u.getF (F.RUN_STATUS_PSTATE n) = (if (s.runner n).l1Tx then 1 else 0)) ∧
    (s.runState n = 8 → runs (.l2EnterRx n) s n fun u => u.runState n = 0 ∧ (u.runner n).l2 = true ∧
      (u.runner n).l2Tier = s.runTier n ∧ u.getF (F.RUN_STATUS_PSTATE n) = 2) ∧
    (s.runState n = 3 → (s.runner n).l2Exit = true → runs (.l2ExitCheckDone n false) s n fun u =>
      u.runState n = 1 ∧ u.bit (F.RUN_ERR_L2_EXIT_RETRAIN n) = true) ∧
    (s.runState n = 3 → (s.runner n).l2Exit = true → runs (.l2ExitCheckDone n true) s n fun u =>
      (u.runner n).l2Exit = false ∧ (u.runner n).ownPass = false) ∧
    (∀ b, s.runState n = 8 → blockOk 0x99 b = true → (s.runner n).restepTx = true → runs (.restepRx n b) s n fun u =>
      u.runState n = 6 ∧ (u.runner n).floor = some (s.runTier n) ∧ (u.runner n).restepTx = false)

open Sys2Proof Sys2Proof.Machine in
/-- On an ACTIVE Nawen Runner whose spare is unused, the loss of lock of one data lane sets LOCK_LOST and asks for
its substitution, as a lane does that meets the threshold of its window; two lost lanes retrain the Runner.
Corrected symbols and block errors are counted. A SPARE request makes the transmitter copy the lane, the
announcement of the copy is noted, the end of the comparison retires the physical lane and ends the substitution,
and SWITCHED turns the driver of the lane off. A narrowing request of the peer, or the reply to the Runner's own,
takes the mask. The model's choices in it: log 56, 57. -/
def Obligations.RunnerSubstitution : Prop :=
  ∀ (s : State) (n : Nat), s.nawen n = true → s.runState n = 8 →
    (∀ k, k < 8 → s.getF (F.RUN_SPARE_RETIRED n) = 0 → (s.runner n).subst = none → runs (.laneLockLost n [k]) s n fun u =>
      u.bit (F.RUN_ERR_LOCK_LOST n) = true ∧ u.bit (F.RUN_LANE_LOCK n k) = false ∧
      (u.runner n).subst = some { lane := k, phys := k, lockLoss := true, duplicating := false }) ∧
    (∀ j k, j < 9 → k < 9 → s.getF (F.RUN_SPARE_RETIRED n) = 0 → runs (.laneLockLost n [j, k]) s n fun u =>
      u.runState n = 1 ∧ u.bit (F.RUN_ERR_LOCK_LOST n) = true) ∧
    (∀ k corr err, k < 9 → (s.getF (F.RUN_SPARE_THRESH n) = 0 ∨ corr + err < s.getF (F.RUN_SPARE_THRESH n)) →
      runs (.laneDegraded n k corr err) s n fun u =>
        u.getF (F.RUN_CORR_COUNT n k) = min (s.getF (F.RUN_CORR_COUNT n k) + corr) (2 ^ 32 - 1) ∧
        u.getF (F.RUN_BLKERR_COUNT n k) = min (s.getF (F.RUN_BLKERR_COUNT n k) + err) (2 ^ 32 - 1) ∧
        s.onlyWords u [R.RUN_CORR n k, R.RUN_BLKERR n k]) ∧
    (∀ k corr err, k < 8 → s.getF (F.RUN_SPARE_THRESH n) ≠ 0 → s.getF (F.RUN_SPARE_WINDOW_MS n) ≠ 0 →
      s.getF (F.RUN_SPARE_THRESH n) ≤ corr + err → s.getF (F.RUN_SPARE_RETIRED n) = 0 → (s.runner n).subst = none →
      runs (.laneDegraded n k corr err) s n fun u =>
        (u.runner n).subst = some { lane := k, phys := k, lockLoss := false, duplicating := false }) ∧
    (∀ b, blockOk 0x55 b = true → byteAt b 1 = 1 → byteAt b 2 < 8 → (s.runner n).txCopy ≠ some (byteAt b 2) →
      runs (.spareRequestRx n b) s n fun u => (u.runner n).txCopy = some (byteAt b 2) ∧
        u.bit (F.RUN_STATUS_SPARE_TX n) = true) ∧
    (∀ b x, blockOk 0x55 b = true → byteAt b 1 = 2 → (s.runner n).subst = some x → byteAt b 2 = x.lane →
      runs (.spareDuplicatingRx n b) s n fun u => (u.runner n).subst = some { x with duplicating := true }) ∧
    (∀ x lost, (s.runner n).subst = some x → x.duplicating = true → x.phys < 9 →
      runs (.spareCompareDone n lost) s n fun u => (u.runner n).subst = none ∧
        (u.getF (F.RUN_SPARE_RETIRED n)).testBit x.phys = true ∧ u.bit (F.RUN_ERR_SPARE_USED n) = true) ∧
    (∀ b k, blockOk 0x55 b = true → byteAt b 1 = 3 → byteAt b 2 = k → (s.runner n).txCopy = some k →
      runs (.spareSwitchedRx n b) s n fun u => (u.runner n).txOff.at false k = true) ∧
    (∀ b m, blockOk 0x55 b = true → byteAt b 1 = 4 → m = fieldAt b 2 2 % 512 → m ≠ 0 →
      (if (s.runner n).narrowing = some m then
        runs (.spareNarrowRx n b) s n fun u => (u.runner n).rxMask = m ∧ (u.runner n).narrowing = none
       else if (s.runner n).txMask = m then runs (.spareNarrowRx n b) s n fun u => u = s
       else runs (.spareNarrowRx n b) s n fun u => (u.runner n).txMask = m ∧ (u.runner n).rxMask = (s.runner n).rxMask))

open Sys2Proof Sys2Proof.Machine in
/-- A raw Runner that is OFF waits for its clock once it is active; a clock rate within the band of its tier makes
it ACTIVE and is reported, and one outside sets RATE_BAND; while ACTIVE a rate within the band is only reported. A
Nawen Runner that loses its clock lane retrains from T0 with CLOCK_LOST. The model's choices in it: log 59. -/
def Obligations.RawRunners : Prop :=
  ∀ (s : State) (n mbps : Nat),
    (s.rawRunner n = true → s.runState n = 0 → does (.rawClockActive n) s fun t => t.runState n = 2) ∧
    (s.rawRunner n = true → s.runState n = 2 → inBand (s.maxTier n) mbps = true →
      does (.rawClockLock n mbps) s fun t => t.runState n = 8 ∧ t.getF (F.RUN_RAW_RATE_MBPS n) = mbps ∧
        t.getF (F.RUN_STATUS_LANES n) = 2 ^ s.getF (F.RUN_RAW_LANES n)) ∧
    (s.rawRunner n = true → s.runState n = 2 → inBand (s.maxTier n) mbps = false →
      ∀ c ∈ [Instr.rawClockLock n mbps, .rawRateBand n mbps],
        does c s fun t => t.bit (F.RUN_ERR_RATE_BAND n) = true ∧ t.runState n = 2 ∧
          t.getF (F.RUN_RAW_RATE_MBPS n) = min mbps 65535) ∧
    (s.rawRunner n = true → s.runState n = 8 → inBand (s.maxTier n) mbps = true →
      does (.rawRateBand n mbps) s fun t => t.getF (F.RUN_RAW_RATE_MBPS n) = mbps ∧ s.onlyWords t [R.RUN_RAW_RATE n]) ∧
    (s.rawRunner n = false →
      ∀ c ∈ [Instr.rawClockActive n, .rawClockLock n mbps, .rawRateBand n mbps], exec c s = .next s) ∧
    (s.nawen n = true → 2 ≤ s.runState n → s.runState n ≤ 8 → ∀ lanes, runs (.clockLaneLost n lanes) s n fun u =>
      u.runState n = 1 ∧ u.bit (F.RUN_ERR_CLOCK_LOST n) = true)

open Sys2Proof Sys2Proof.Machine in
/-- A code on a Runner of no port, or a type word that spells another code, frames nothing. In SEARCH a code whose
lanes agree on the grid of the codes before it counts, and the fourth locks the matcher; on another grid the count
begins again at 1. In LOCKED a code that disagrees or is off the grid counts as bad and moves nothing while fewer
than four came in a row. On a locked port with no line in progress and no frame waiting to close: an SOL begins a
line with the capture stamp; an SOF where no frame is open opens one, numbered 0 as the port's first and one above
FRAME after it, notes the boundary and closes nothing; an EOF ends the open frame where EOF_USED is set and leaves
it open where not. An EOL on the one open segment of the oldest line completes that line: it leaves the list and the
open frame counts it. -/
def Obligations.SyncCodes : Prop :=
  (∀ (s : State) (c : SyncCode), c.runner < 64 →
    ∀ i k, (i, k) ∈ [(Instr.sofCode c, CodeKind.sof), (.eofCode c, .eof), (.solCode c, .sol), (.eolCode c, .eol)] →
      (s.portOf c.runner = none → exec i s = .next s.mrgRefresh) ∧
      (∀ p, s.portOf c.runner = some p → (s.up 3 = false ∨ s.codeOf p c.word ≠ some k) → exec i s = .next s.mrgRefresh) ∧
      (∀ p, s.portOf c.runner = some p → s.up 3 = true → s.codeOf p c.word = some k →
        let m := s.matcher c.runner
        (m.state = 1 → c.agree = true → m.grid = c.grid → 0 < m.count → m.count < 3 → does i s fun t =>
          t.matcher c.runner = { state := 1, count := m.count + 1, grid := c.grid } ∧ t.ingPort p = s.ingPort p) ∧
        (m.state = 1 → c.agree = true → (m.grid ≠ c.grid ∨ m.count = 0) → does i s fun t =>
          t.matcher c.runner = { state := 1, count := 1, grid := c.grid } ∧ t.ingPort p = s.ingPort p) ∧
        (m.state = 1 → c.agree = true → m.grid = c.grid → m.count = 3 → does i s fun t =>
          t.matcher c.runner = { state := 2, count := 0, grid := c.grid }) ∧
        (m.state = 2 → (c.agree = false ∨ c.grid ≠ m.grid) → m.count < 3 → does i s fun t =>
          t.matcher c.runner = { m with count := m.count + 1 } ∧ t.ingPort p = s.ingPort p) ∧
        (m.state = 2 → (c.agree = false ∨ c.grid ≠ m.grid) → m.count = 3 → does i s fun t =>
          (t.matcher c.runner).state = 1 ∧ t.bit (ingErr p 5) = true))) ∧
  (∀ (s : State) (c : SyncCode) (p : Nat), c.runner < 64 → s.portOf c.runner = some p → s.up 3 = true →
    s.portSync p = 2 → c.agree = true → c.grid = (s.matcher c.runner).grid → (s.ingPort p).closing = none →
    let x := s.ingPort p
    (s.codeOf p c.word = some .sol → x.lines = [] → does (.solCode c) s fun t =>
      ∃ l, (t.ingPort p).lines = [l] ∧ l.stamp = s.captureStamp p ∧ l.coarse = s.coarse ∧ l.start = s.ticks ∧
        l.closed = decide (s.gang p ≤ 1) ∧ l.segs.length = s.gang p) ∧
    (s.codeOf p c.word = some .sof → x.lines = [] → x.frame = none → x.boundary = none → does (.sofCode c) s fun t =>
      (t.ingPort p).frame.map (fun f => (f.number, f.stamp, f.lines, f.dead))
        = some (t.getF (F.ING_PORT_FRAME_FRAME p), t.captureStamp p, 0, false) ∧
      t.getF (F.ING_PORT_FRAME_FRAME p) = (if x.started then (s.getF (F.ING_PORT_FRAME_FRAME p) + 1) % 2 ^ 24 else 0) ∧
      (t.ingPort p).boundary = some s.ticks ∧ (t.ingPort p).prevSof = some s.ticks ∧ (t.ingPort p).started = true ∧
      (t.ingPort p).closing = none ∧ (t.ingPort p).seen = [c.runner - p]) ∧
    (s.codeOf p c.word = some .eof → x.lines = [] → does (.eofCode c) s fun t =>
      (t.ingPort p).frame = (if s.bit (F.ING_PORT_CFG_EOF_USED p) then none else x.frame) ∧ (t.ingPort p).lines = []) ∧
    (∀ l f, s.codeOf p c.word = some .eol → x.lines = [l] → x.frame = some f → l.old = false → f.dead = false →
      f.lines < s.getF (F.ING_PORT_GEOM_SENSOR_H p) →
      (l.segs.getD (c.runner - p) {}).state = 1 →
      (∀ k, k < l.segs.length → k ≠ c.runner - p → (l.segs.getD k {}).state ∈ [2, 3]) →
      does (.eolCode c) s fun t => (t.ingPort p).lines = [] ∧
        (t.ingPort p).frame.map (fun f' => (f'.number, f'.lines, f'.lastStamp)) = some (f.number, f.lines + 1, l.stamp)))

open Sys2Proof Sys2Proof.Machine in
/-- The segment window closes the line that waits: its segments that never began are absent. The SOF window closes
the frame before the boundary once no line of it is left. A frame timeout ends the open frame with TIMEOUT set where
the frame is short, and does nothing with no open frame, a timeout of 0 or a full frame. A pending cut marker is
written once the trug has room, and waits where it has not. A pruning write that asks for too much or too little
sets PRUNE_BAD and stages nothing; a good one is staged for the next SOF. A port that is not in the image ignores
all of them. -/
def Obligations.PortTimers : Prop :=
  ∀ (s : State) (p : Nat),
    let x := s.ingPort p
    (s.portOn p = false → exec (.segmentWindowExpire p) s = .next s.mrgRefresh ∧
      (∀ ls, exec (.sofWindowExpire p ls) s = .next s.mrgRefresh ∧ exec (.frameTimeout p ls) s = .next s) ∧
      (s.reaches 3 = true → ∀ b v, exec (.ingPruneWrite p b v) s = .next s)) ∧
    (s.portOn p = true → ∀ l, x.lines = [l] → x.closing = none → l.closed = false → l.segs.any (·.state == 1) = true →
      l.segs.any (·.state == 0) = true → does (.segmentWindowExpire p) s fun t =>
        ∃ l', (t.ingPort p).lines = [l'] ∧ l'.closed = true ∧ l'.segs.all (·.state != 0) = true ∧ l'.stamp = l.stamp) ∧
    (s.portOn p = true → ∀ f ls, x.lines = [] → x.closing = some f →
      f.lines = s.getF (F.ING_PORT_GEOM_SENSOR_H p) → does (.sofWindowExpire p ls) s fun t =>
        (t.ingPort p).closing = none ∧ (t.ingPort p).ratePrev = f.rate ∧
        (t.ingPort p).frame.map (·.number) = x.frame.map (·.number)) ∧
    (s.portOn p = true → ∀ f ls, x.frame = some f → x.closing = none → x.lines = [] → f.timeout ≠ 0 →
      f.lines < s.getF (F.ING_PORT_GEOM_SENSOR_H p) → does (.frameTimeout p ls) s fun t =>
        (t.ingPort p).frame = none ∧ t.bit (ingErr p 10) = true ∧ t.bit (ingErr p 2) = true) ∧
    (∀ ls, (x.frame = none ∨ ∃ f, x.frame = some f ∧
        (f.timeout = 0 ∨ s.getF (F.ING_PORT_GEOM_SENSOR_H p) ≤ f.lines)) →
      exec (.frameTimeout p ls) s = .next s) ∧
    (∀ n r, n < 512 → s.up 3 = true → (s.band n).run = some r → r.tag.length = 16 →
      (s.trugTakes n 25 = true → (s.trug n).skip = false → (s.trug n).pack = [] → does (.cutMarkerWrite n) s fun t =>
        (t.band n).run = none ∧ (t.trug n).ring = (s.trug n).ring ++ [packedWord r.marker true] ∧
        ∀ m, m ≠ n → t.trug m = s.trug m) ∧
      (s.trugTakes n 25 = false → does (.cutMarkerWrite n) s fun t =>
        t.trugs = s.trugs ∧ t.ingest.bands = s.ingest.bands)) ∧
    (s.portOn p = true → s.reaches 3 = true → ∀ vert v,
      (s.pruneBad p vert v = true → does (.ingPruneWrite p vert v) s fun t =>
        t.bit (ingErr p 9) = true ∧ t.staged = s.staged) ∧
      (s.pruneBad p vert v = false → does (.ingPruneWrite p vert v) s fun t =>
        t.regs = s.regs ∧ ∃ w, (if vert then R.ING_PORT_PRUNE_V p else R.ING_PORT_PRUNE_H p, w) ∈ t.staged ∧
          w = v &&& (if vert then 0x1fff1fff#32 else 0x0fff0fff#32)))

open Sys2Proof Sys2Proof.Machine in
/-- A merger whose bed still holds a unit, that is absent or in a block at reset emits nothing. A unit of one whole
clean word that is the only head of a bed's merger, not late, and before every horizon, leaves its trug and stands
at the bed with its port, and its stamp becomes the merger's last. A head that other inputs could still precede
waits, until the window of 2 ms lets it go. -/
def Obligations.MergerEmission : Prop :=
  ∀ (s : State) (m : Nat) (errs : List WordErr), ∀ c ∈ [Instr.mergerEmit m errs, .mergerWindowExpire m errs],
    ((s.up 3 = false ∨ InstKind.merger.present s.variant m = false ∨ (s.merger m).out.isSome = true) →
      exec c s = .next s) ∧
    (s.up 3 = true → InstKind.merger.present s.variant m = true → m < 16 → (s.merger m).out = none →
      (s.readyHeads m = [] → exec c s = .next (s.mrgStatus m)) ∧
      (∀ p t w rest, candidate (s.readyHeads m) = some (p, t, [[w]]) → errs = [] → (s.trug t).ring = w :: rest → (s.trug t).flushWait = false →
        w.tag = 0x20#8 → w.data.length = 32 → s.unitLate m [[w]] = false →
        (s.mustWait m (unitTag [[w]]).stamp = false ∨ c = .mergerWindowExpire m errs) →
        does c s fun u => (u.trug t).ring = rest ∧ (u.merger m).last = some (unitTag [[w]]).stamp ∧
          (u.merger m).out = some { port := p, marker := (unitTag [[w]]).pad == 3, lines := [[w]] } ∧
          ∀ n, n ≠ m → u.merger n = s.merger n) ∧
      (∀ p t u, candidate (s.readyHeads m) = some (p, t, u) → s.unitLate m u = false →
        s.mustWait m (unitTag u).stamp = true → exec (.mergerEmit m errs) s = .next (s.mrgStatus m)))

open Sys2Proof Sys2Proof.Machine in
/-- A bed with no unit at its merger, or that is no lead in use, takes nothing. A unit of a port in no slot is
dropped: the merger is free and nothing else changes. A unit of a slot whose lines all belong to the frame under
development is taken: the merger is free, STATUS.SLOT names the slot, the controls are latched, and its lines stand
in that frame. -/
def Obligations.BedUnits : Prop :=
  ∀ (s : State) (n : Nat),
    (s.bedUp n = false → ∀ mem, exec (.bedUnitAccept n mem) s = .next s) ∧
    (s.bedUp n = true →
      ((s.merger n).out = none → exec (.bedUnitAccept n []) s = .next s) ∧
      ∀ u, (s.merger n).out = some u →
        (s.slotOf n u.port = none → does (.bedUnitAccept n []) s fun t =>
          (t.merger n).out = none ∧ t = { s with ingest := t.ingest } ∧ ∀ m, m ≠ n → t.merger m = s.merger m) ∧
        (∀ k f, s.slotOf n u.port = some k → (s.bedSlot n k).current = some f →
          (∀ l ∈ s.unitLines u, l.1 = f.number) → does (.bedUnitAccept n []) s fun t =>
            (t.merger n).out = none ∧ t.getF (F.BED_STATUS_SLOT n) = k ∧ (t.bed n).ctl = (s.rd (R.BED_CTL n)).toNat ∧
            ∃ f', (t.bedSlot n k).current = some f' ∧ f'.number = f.number ∧
              f'.lines = (s.unitLines u).foldl (fun m l => m.insert l.2.1 l.2.2) f.lines))

open Sys2Proof Sys2Proof.Machine in
/-- A slot outside the bed's, a tap beyond the third, a slot with no line left and a line whose rows have not come
give nothing. A ready line of the only frame is given once: the tap's count rises by one. With the tap off nothing
is written; a clean row goes, as its bed tag and its bytes, into the trug of a tap that writes one, or to its
address in the plot of one that writes plot space. -/
def Obligations.BedLines : Prop :=
  ∀ (s : State) (n k t : Nat),
    ((s.slotWritable n k = false ∨ 3 ≤ t) → exec (.bedLineEmit n k t) s = .next s) ∧
    (∀ f, s.slotWritable n k = true → t < 3 → (s.bedSlot n k).frames = [f] → f.taps.length = 3 →
      let y := f.taps.getD t 0
      (f.tapH t ≤ y → exec (.bedLineEmit n k t) s = .next s) ∧
      (y < f.tapH t → s.tapReady n t y f = false → exec (.bedLineEmit n k t) s = .next s) ∧
      (y < f.tapH t → s.tapReady n t y f = true → s.tapOn n t f = false → does (.bedLineEmit n k t) s fun u =>
        (u.bedSlot n k).frames = [{ f with taps := f.taps.set t (y + 1) }] ∧
        u = { s with regs := u.regs, beds := u.beds } ∧ ∀ o, o ≠ R.BED_STATUS n → u.rd o = s.rd o) ∧
      (∀ q, t < 2 → y < f.tapH t → s.tapReady n t y f = true → s.tapOn n t f = true →
        (if t = 0 then (s.rawRows n f).1.find? (·.1 == (f.crop true).1 + y) else (f.b.getLastD []).find? (·.1 == y))
          = some q → q.2.cut = false → q.2.poison = false →
        let item := s.bedTag n t y f q.2 false ++ s.tapBytes n t y f q.2
        let g := s.getF (F.BED_TAP_TARGET n t)
        does (.bedLineEmit n k t) s fun u =>
          (y + 1 ≠ f.tapH t → (u.bedSlot n k).frames.map (·.taps) = [f.taps.set t (y + 1)]) ∧
          (s.getF (F.BED_TAP_DEST n t) = 1 → u.trugs = (s.trugItem g item).trugs ∧ u.hbm = s.hbm) ∧
          (∀ a, s.getF (F.BED_TAP_DEST n t) ≠ 1 → s.tapAddr n k t f.number y = some a → y + 1 ≠ f.tapH t →
            u.hbm = s.hbm.store a item ∧ u.trugs = s.trugs)))

open Sys2Proof Sys2Proof.Machine in
/-- A pointer write to an enabled table that does not fit in a readable plot sets its error and stages nothing. One
that fits, or turns the table off, is staged in both words; an enabled small table is then being copied, and its
copy, made from the address that waits, is ready when the copy is done. A copy that is not in progress changes
nothing. -/
def Obligations.BedTables : Prop :=
  ∀ (s : State) (n k i v : Nat), s.reaches 4 = true →
    let a := v % 2 ^ 37 / 256 * 256
    ((s.slotWritable n k = false ∨ 7 < i) → exec (.bedTablePointerWrite n k i v) s = .next s) ∧
    (s.slotWritable n k = true → i ≤ 7 →
      (v % 2 = 1 → s.tableFits a (s.tableSize n k i) = false → does (.bedTablePointerWrite n k i v) s fun t =>
        t.bit (F.BED_ERR_TABLE_BAD n) = true ∧ t.staged = s.staged ∧ t.beds = s.beds) ∧
      ((v % 2 = 0 ∨ s.tableFits a (s.tableSize n k i) = true) → does (.bedTablePointerWrite n k i v) s fun t =>
        (R.BED_LIN_PTR n k + 8 * i, BitVec.ofNat 32 (v % 2 ^ 32 / 256 * 256 + v % 2)) ∈ t.staged ∧
        (R.BED_LIN_PTR n k + 8 * i + 4, BitVec.ofNat 32 (v / 2 ^ 32 % 32)) ∈ t.staged ∧
        t.bit (F.BED_SHADOW_PENDING n k) = true ∧ t.rd (R.BED_LIN_PTR n k + 8 * i) = s.rd (R.BED_LIN_PTR n k + 8 * i) ∧
        ((t.bedSlot n k).copying.contains i = (v % 2 == 1 && smallTable i)))) ∧
    (s.slotWritable n k = true →
      ((s.bedSlot n k).copying.contains i = false → exec (.tableCopyDone n k i []) s = .next s) ∧
      ((s.bedSlot n k).copying.contains i = true →
        let off := R.BED_LIN_PTR n k + 8 * i
        let b := (s.pendingWord off + s.pendingWord (off + 4) * 2 ^ 32) % 2 ^ 37 / 256 * 256
        does (.tableCopyDone n k i []) s fun t =>
          (t.bedSlot n k).copying.contains i = false ∧
          (t.bedSlot n k).copied.at {} i = s.copyTable b (s.tableSize n k i) ∧
          (t.bedSlot n k).frames = (s.bedSlot n k).frames))

open Sys2Proof Sys2Proof.Machine in
/-- A crop that fits the frame and the mosaic, an encoder setting the encoder takes, a PARAM in its range and a
proxy size within the scaler's ratios wait for the next boundary; any other is ignored with its error flag. HOLD is
written at every member of the group. A slot that takes no writes ignores all of them. -/
def Obligations.BedSlotWrites : Prop :=
  ∀ (s : State) (n k : Nat), s.reaches 4 = true →
    (s.slotWritable n k = false → ∀ b v e, e < 2 → exec (.bedCropWrite n k b v) s = .next s ∧
      exec (.bedEncWrite n k e b v) s = .next s ∧ exec (.bedScaleWrite n k v) s = .next s ∧
      exec (.bedShadowHoldWrite n k b) s = .next s) ∧
    (∀ e b v, 2 ≤ e → exec (.bedEncWrite n k e b v) s = .next s) ∧
    (s.slotWritable n k = true →
      let waits (t : State) (o : Nat) (v : Word) := (o, v) ∈ t.staged ∧ t.rd o = s.rd o ∧
        t.bit (F.BED_SHADOW_PENDING n k) = true ∧ t = { s with regs := t.regs, staged := t.staged }
      let bad (t : State) (f : Field) := t.bit f = true ∧ t.staged = s.staged
      (∀ vert v, let a := bitsOf v.toNat 0 16
        let w := bitsOf v.toNat 16 16
        let size := if vert then (s.inputSize n k).2 else (s.inputSize n k).1
        ((w = 0 ∨ (w % s.cfaPeriod n = 0 ∧ a + w ≤ size)) → does (.bedCropWrite n k vert v) s fun t =>
          waits t (if vert then R.BED_CROP_Y n k else R.BED_CROP_X n k) v) ∧
        ((w ≠ 0 ∧ (w % s.cfaPeriod n ≠ 0 ∨ size < a + w)) → does (.bedCropWrite n k vert v) s fun t =>
          bad t ⟨R.BED_ERR n, 5, 1⟩)) ∧
      (∀ e v, e < 2 →
        (encOk v.toNat = true → does (.bedEncWrite n k e false v) s fun t => waits t (R.BED_ENC_CTL n k e) (v &&& 0x3ff#32)) ∧
        (encOk v.toNat = false → does (.bedEncWrite n k e false v) s fun t => bad t ⟨R.BED_ERR n, 8, 1⟩) ∧
        (0 < bitsOf v.toNat 0 16 ∧ bitsOf v.toNat 0 16 ≤ 10000 → does (.bedEncWrite n k e true v) s fun t =>
          waits t (R.BED_ENC_PARAM n k e) v) ∧
        (bitsOf v.toNat 0 16 = 0 ∨ 10000 < bitsOf v.toNat 0 16 → does (.bedEncWrite n k e true v) s fun t =>
          bad t ⟨R.BED_ERR n, 8, 1⟩)) ∧
      (∀ v, (bitsOf v.toNat 0 16 = 0 ∨ bitsOf v.toNat 16 16 = 0) → does (.bedScaleWrite n k v) s fun t =>
          waits t (R.BED_SCL_SIZE n k) v) ∧
      (∀ v, bitsOf v.toNat 16 16 ≠ 0 → s.pendingCrop n k false < bitsOf v.toNat 0 16 →
        does (.bedScaleWrite n k v) s fun t => bad t ⟨R.BED_ERR n, 7, 1⟩) ∧
      (∀ hold m, m < s.getF (F.BED_CFG_JOIN n) → n + m < 16 → does (.bedShadowHoldWrite n k hold) s fun t =>
        t.bit (F.BED_SHADOW_HOLD (n + m) k) = hold ∧ t.staged = s.staged))

open Sys2Proof Sys2Proof.Machine in
/-- For every operation code and every value of every field, the word encoded has 64 bits and decodes to that code
and those fields; every 64-bit word is the encoding of what it decodes to. An instruction that the loader accepts
has its code and fields in these ranges, so it round-trips with every operand the encoding admits, and no two rows
of the operation table share a code. -/
def Obligations.PeEncodingRoundTrip : Prop :=
  (∀ (op : Nat) (o : PeOp), op < 256 → o.mode < 4 → o.d < 64 → o.a < 64 → o.b < 64 → o.c < 64 →
    peEncode op o < 2 ^ 64 ∧ peDecode (peEncode op o) = (op, o)) ∧
  (∀ w : Nat, w < 2 ^ 64 → peEncode (peDecode w).1 (peDecode w).2 = w ∧ (peDecode w).1 < 256 ∧ (peDecode w).2.mode < 4 ∧
    (peDecode w).2.d < 64 ∧ (peDecode w).2.a < 64 ∧ (peDecode w).2.b < 64 ∧ (peDecode w).2.c < 64) ∧
  (∀ (rows comps op : Nat) (o : PeOp), peWordOk rows comps op o = true → peDecode (peEncode op o) = (op, o)) ∧
  (peForms.map (·.op)).Nodup ∧ (∀ e o, (peCommands e o).map (·.1) = peForms.map (·.op))

open Sys2Proof Sys2Proof.Machine in
/-- On an engine that is absent, stopped, retired or in a block at reset no instruction does anything. On any other,
every instruction changes only that engine and the words PE[e].ERR and PE[e].TILE_MAX; its code, entries, constants
and parameters stay. It keeps the registers 32-bit words. It issues once its sources and its unit are ready, a taken
branch costs a cycle more, and its destination is ready after the latency of the operation. -/
def Obligations.PeIssueFrame : Prop :=
  ∀ (s : State) (e : Nat) (o : PeOp), ∀ i ∈ peCommands e o,
    (s.peRuns e = false → exec i.2 s = .next s) ∧
    (s.peRuns e = true → does i.2 s fun t =>
      t = { s with engines := t.engines, regs := t.regs } ∧ (∀ k, k ≠ e → t.engine k = s.engine k) ∧
      (∀ off, off ∉ [R.PE_ERR e, R.PE_TILE_MAX e] → t.rd off = s.rd off) ∧
      (t.engine e).code = (s.engine e).code ∧ (t.engine e).init = (s.engine e).init ∧
      (t.engine e).constLen = (s.engine e).constLen ∧ (t.engine e).ctx.params = (s.engine e).ctx.params ∧
      ((s.engine e).words → (t.engine e).words) ∧
      ∀ f, peForm? i.1 = some f → i.1 ≠ 0x11 →
        (t.engine e).now = (s.engine e).issueAt f o + (if i.1 = 0x10 ∧ (s.engine e).taken o = true then 2 else 1) ∧
        ∀ r, f.d.key o.mode o.d = some r → (t.engine e).ready.at 0 r = (s.engine e).issueAt f o + f.latency)

open Sys2Proof Sys2Proof.Machine in
/-- On an engine that runs, each scalar instruction writes its 32-bit two's-complement result to scalar d, which a d
of 0 discards, and leaves every other scalar, every vector, the local memory and the tile as they were; the pc moves
on by one. NOP writes nothing. BR goes to its pc plus IMM where its condition holds, and on otherwise, and writes
nothing. -/
def Obligations.PeScalarInstructions : Prop :=
  ∀ (s : State) (e : Nat) (o : PeOp), s.peRuns e = true → (s.engine e).words →
    let g := s.engine e
    let a := BitVec.ofNat 32 (g.sr o.a)
    let b := BitVec.ofNat 32 (g.sr o.b)
    let k := o.imm.toNat % 32
    (∀ i : Instr × Nat, i ∈
        [(Instr.peSadd e o, (a + b).toNat), (.peSsub e o, (a - b).toNat), (.peSaddi e o, (a + o.imm.signExtend 32).toNat),
         (.peSmul e o, (a * b).toNat), (.peSand e o, (a &&& b).toNat), (.peSor e o, (a ||| b).toNat),
         (.peSxor e o, (a ^^^ b).toNat), (.peSshli e o, (a <<< k).toNat), (.peSsrli e o, (a >>> k).toNat),
         (.peSsrai e o, (a.sshiftRight k).toNat), (.peSli e o, (o.imm.signExtend 32).toNat),
         (.peSlih e o, (o.imm.setWidth 16 ++ BitVec.ofNat 16 (g.sr o.d)).toNat), (.peSlt e o, if a.slt b then 1 else 0),
         (.peSprm e o, g.ctx.params.getD (g.sr 3 % 8 * 16 + o.imm.toNat % 16) 0 % 2 ^ 32),
         (.peVext e o, (g.vr o.a).getD (o.imm.toNat % 16) 0), (.peVred e o, (g.vr o.a).sum % 2 ^ 32)] →
      does i.1 s fun t => s.peScalar t e o.d i.2) ∧
    (does (.peNop e o) s fun t => s.peScalar t e 0 0) ∧
    (does (.peBr e o) s fun t => (t.engine e).s = g.s ∧ (t.engine e).v = g.v ∧ (t.engine e).mem = g.mem ∧
      (t.engine e).out = g.out ∧
      (t.engine e).pc = if (o.c = 0 ∨ (o.c = 1 ∧ a = b) ∨ (o.c = 2 ∧ a ≠ b) ∨ (o.c = 3 ∧ a.slt b = true) ∨
          (o.c = 4 ∧ b.sle a = true)) then (BitVec.ofNat 32 g.pc + o.imm.signExtend 32).toNat else (g.pc + 1) % 2 ^ 32)

open Sys2Proof Sys2Proof.Machine in
/-- On an engine that runs, each integer vector instruction writes vector d lane by lane: on 32-bit lanes in even
modes, on the two 16-bit halves of each lane in odd modes, its second operand a vector, or a scalar in every lane or
half in modes 2 and 3. The results are two's-complement arithmetic at that width. Nothing else of the engine's
registers, memory or tile changes. -/
def Obligations.PeVectorIntegers : Prop :=
  ∀ (s : State) (e : Nat) (o : PeOp), s.peRuns e = true → (s.engine e).words →
    let g := s.engine e
    let x (i : Nat) := BitVec.ofNat 32 ((g.vr o.a).getD i 0)
    let y (i : Nat) := BitVec.ofNat 32 (if o.mode = 2 then g.sr o.b
      else if o.mode = 3 then g.sr o.b % 2 ^ 16 * 65537 else (g.vr o.b).getD i 0)
    let z (i : Nat) := BitVec.ofNat 32 ((g.vr o.c).getD i 0)
    ∀ i : Instr × ((w : Nat) → BitVec w → BitVec w → BitVec w → BitVec w), i ∈
        [(Instr.peVadd e o, fun _ x y _ => x + y), (.peVsub e o, fun _ x y _ => x - y),
         (.peVmulsh e o, fun w x y _ => BitVec.ofInt w (rsh (x.toInt * y.toInt) o.shift)),
         (.peVmadsh e o, fun w x y z => z + BitVec.ofInt w (rsh (x.toInt * y.toInt) o.shift)),
         (.peVmin e o, fun _ x y _ => if y.slt x then y else x), (.peVmax e o, fun _ x y _ => if x.slt y then y else x),
         (.peVabs e o, fun _ x _ _ => if x.msb then -x else x), (.peVand e o, fun _ x y _ => x &&& y),
         (.peVor e o, fun _ x y _ => x ||| y), (.peVxor e o, fun _ x y _ => x ^^^ y),
         (.peVshli e o, fun _ x _ _ => x <<< o.shift), (.peVsrli e o, fun _ x _ _ => x >>> o.shift),
         (.peVsrai e o, fun _ x _ _ => x.sshiftRight o.shift),
         (.peVrsh e o, fun w x _ _ => BitVec.ofInt w (rsh x.toInt o.shift)),
         (.peVclamp e o, fun _ x y z => let m := if x.slt y then y else x
           if z.slt m then z else m),
         (.peVsel e o, fun w x y z => if z = 0#w then y else x),
         (.peVcmplt e o, fun w x y _ => if x.slt y then BitVec.allOnes w else 0#w),
         (.peVcmpeq e o, fun w x y _ => if x = y then BitVec.allOnes w else 0#w),
         (.peVcmple e o, fun w x y _ => if x.sle y then BitVec.allOnes w else 0#w)] →
      does i.1 s fun t => ∃ l, s.peVector t e o.d l ∧ l.length = 16 ∧ ∀ j, j < 16 →
        BitVec.ofNat 32 (l.getD j 0) = if o.mode % 2 = 1 then
          i.2 16 ((x j).extractLsb' 16 16) ((y j).extractLsb' 16 16) ((z j).extractLsb' 16 16)
            ++ i.2 16 ((x j).extractLsb' 0 16) ((y j).extractLsb' 0 16) ((z j).extractLsb' 0 16)
        else i.2 32 (x j) (y j) (z j)

open Sys2Proof Sys2Proof.Machine in
/-- Splat, broadcast, pack, unpack, shuffle and insert write vector d as their rules say. Each floating-point
instruction writes, in every lane, the binary32 operation of that lane's operands, its second operand a vector, or a
scalar in mode 2. Nothing else of the engine's registers, memory or tile changes. The model's choices in it: log 72,
74. -/
def Obligations.PeVectorMovesAndFloats : Prop :=
  ∀ (s : State) (e : Nat) (o : PeOp), s.peRuns e = true → (s.engine e).words →
    let g := s.engine e
    let x (i : Nat) := (g.vr o.a).getD i 0
    let y (i : Nat) := if o.mode = 2 then g.sr o.b else (g.vr o.b).getD i 0
    let z (i : Nat) := (g.vr o.c).getD i 0
    let sat (v : Int) : BitVec 16 := BitVec.ofInt 16 (clampInt (-32768) 32767 v)
    (∀ i : Instr × (Nat → Nat), i ∈
        [(Instr.peVspl e o, fun _ => if o.mode % 2 = 1 then o.imm.toNat % 2 ^ 16 * 65537 else (o.imm.signExtend 32).toNat),
         (.peVbrd e o, fun _ => g.sr o.a),
         (.peVpack e o, fun i => (sat (BitVec.ofNat 32 ((g.vr o.b).getD i 0)).toInt ++ sat (BitVec.ofNat 32 (x i)).toInt).toNat),
         (.peVunpl e o, fun i => (((BitVec.ofNat 32 (x i)).extractLsb' 0 16).signExtend 32).toNat),
         (.peVunph e o, fun i => (((BitVec.ofNat 32 (x i)).extractLsb' 16 16).signExtend 32).toNat),
         (.peVshuf e o, fun i => x ((g.vr o.b).getD i 0 % 16)),
         (.peVins e o, fun i => if i = o.imm.toNat % 16 then g.sr o.b else (g.vr o.d).getD i 0)] →
      does i.1 s fun t => ∃ l, s.peVector t e o.d l ∧ l.length = 16 ∧ ∀ j, j < 16 → l.getD j 0 = i.2 j) ∧
    (o.mode % 2 = 0 → ∀ i : Instr × (Nat → Nat), i ∈
        [(Instr.peFadd e o, fun i => fAdd (x i) (y i)), (.peFsub e o, fun i => fSub (x i) (y i)),
         (.peFmul e o, fun i => fMul (x i) (y i)), (.peFma e o, fun i => fFma (x i) (y i) (z i)),
         (.peFmin e o, fun i => fMin (x i) (y i)), (.peFmax e o, fun i => fMax (x i) (y i)),
         (.peFcvtif e o, fun i => fFromInt (signedOf 32 (x i)) (o.imm.toNat % 32)),
         (.peFcvtfi e o, fun i => patternOf 32 (fToInt (x i) (o.imm.toNat % 32))), (.peFrcp e o, fun i => fRcp (x i)),
         (.peFrsq e o, fun i => fRsq (x i)), (.peFlog2 e o, fun i => fLog2 (x i)), (.peFexp2 e o, fun i => fExp2 (x i))] →
      does i.1 s fun t => ∃ l, s.peVector t e o.d l ∧ l.length = 16 ∧ ∀ j, j < 16 → l.getD j 0 = i.2 j % 2 ^ 32)

open Sys2Proof Sys2Proof.Machine in
/-- A load takes its bytes, little-endian, at the scalar address modulo 2^18 with its low bits cleared, and a
poisoned byte sets POISON; a gather loads each lane from its own address; a store changes only its own bytes,
discards those of the constant region and sets CONST_WR. WLD reads 16 columns of the window. WST clamps its lanes
into the tile. END of a tile merges it into the line and enters the next tile, or ends the line; END of a frame
entry ends it. The model's choices in it: log 74. -/
def Obligations.PeMemoryAndWindow : Prop :=
  ∀ (s : State) (e : Nat) (o : PeOp), s.peRuns e = true → (s.engine e).words →
    let g := s.engine e
    let a := (BitVec.ofNat 32 (g.sr o.a) + o.imm.signExtend 32).toNat
    let word (k : Nat) := leNat ((List.range 4).map fun j => (g.byte (k + j)).getD 0#8)
    let b64 := a % 2 ^ 18 / 64 * 64
    let b4 := a % 2 ^ 18 / 4 * 4
    let lane (i : Nat) := (BitVec.ofNat 32 (g.sr o.a) + 4#32 * BitVec.ofNat 32 ((g.vr o.b).getD i 0)).toNat % 2 ^ 18 / 4 * 4
    ((∀ i, i < 64 → (g.byte (b64 + i)).isSome = true) → does (.peVld e o) s fun t =>
      s.peVector t e o.d ((List.range 16).map fun i => word (b64 + 4 * i))) ∧
    (∀ i, i < 64 → g.byte (b64 + i) = none → does (.peVld e o) s fun t => t.bit (F.PE_ERR_POISON e) = true) ∧
    ((∀ i, i < 4 → (g.byte (b4 + i)).isSome = true) → does (.peSld e o) s fun t => s.peScalar t e o.d (word b4)) ∧
    ((∀ i j, i < 16 → j < 4 → (g.byte (lane i + j)).isSome = true) → does (.peVgath e o) s fun t =>
      s.peVector t e o.d ((List.range 16).map fun i => word (lane i))) ∧
    (does (.peVst e o) s fun t => s.peStored t e b64 ((g.vr o.b).flatMap (leBytes 4))) ∧
    (does (.peSst e o) s fun t => s.peStored t e b4 (leBytes 4 (g.sr o.b))) ∧
    (does (.peWld e o) s fun t => s.peVector t e o.d ((List.range 16).map fun (i : Nat) => (BitVec.ofInt 32 (g.ctx.window
      (o.imm.extractLsb' 10 2).toNat ((BitVec.ofNat 32 (g.sr 1)).toInt + (i : Nat) + (o.imm.extractLsb' 0 6).toInt)
      ((BitVec.ofNat 32 (g.sr 2)).toInt + (o.imm.extractLsb' 6 4).toInt))).toNat)) ∧
    (does (.peWst e o) s fun t => (t.engine e).s = g.s ∧ (t.engine e).v = g.v ∧ (t.engine e).mem = g.mem ∧
      (t.engine e).pc = (g.pc + 1) % 2 ^ 32 ∧
      ∀ c, (t.engine e).out.at [] c = if c = o.imm.toNat % 4 then (g.vr o.b).map fun v =>
        if g.ctx.comps = 1 then clampInt (-2 ^ 20) (2 ^ 20 - 1) (signedOf 32 v)
        else clampInt (-2 ^ 27) (2 ^ 27 - 1) (signedOf 32 v) else g.out.at [] c) ∧
    (does (.peEnd e o) s fun t => (t.engine e).mem = g.mem ∧ (t.engine e).v = g.v ∧
      (g.inFrame = true → (t.engine e).ended = true ∧ (t.engine e).line = g.line) ∧
      (g.inFrame = false → (t.engine e).line = g.mergeTile) ∧
      (g.inFrame = false → g.ctx.x1 ≤ g.ctx.x + 16 → (t.engine e).ended = true) ∧
      (g.inFrame = false → g.ctx.x + 16 < g.ctx.x1 → (t.engine e).ended = false ∧ (t.engine e).pc = g.entry ∧
        (t.engine e).ctx.x = g.ctx.x + 16 ∧ (t.engine e).sr 1 = (g.ctx.x + 16) % 2 ^ 32 ∧ (t.engine e).out = []))

open Sys2Proof Sys2Proof.Machine in
/-- An engine at the line cap abandons its line with LINE_OVER, once. Corrected words below the threshold only
count. A running engine that degrades beyond it, and one that faults, gets the lowest available engine as its
target, which starts to load the kernel; the degraded engine runs on, the faulted one stops. An idle engine that
faults is retired, and one that is stopped or retired is only flagged. A constant restored marks its engine's next
line. A target that is loading is noted as loaded. Engines that are not fitted are left alone. -/
def Obligations.PeFaultsAndMigration : Prop :=
  ∀ (s : State) (e : Nat),
    let g := s.engine e
    let live := s.up 5 = true ∧ e < s.variant.pes
    (s.peRuns e = true → g.ended = false → does (.lineCapExceeded e) s fun t =>
      (t.engine e).ended = true ∧ (t.engine e).tooLong = true ∧ t.bit (F.PE_ERR_LINE_OVER e) = true ∧
      t.getF (F.PE_CNT_COUNT e 2) = min (s.getF (F.PE_CNT_COUNT e 2) + 1) (2 ^ 32 - 1)) ∧
    ((s.peRuns e = false ∨ g.ended = true) → exec (.lineCapExceeded e) s = .next s) ∧
    (¬ live → ∀ a b, exec (.peDegraded e a b) s = .next s ∧ exec (.peHardFault e a b) s = .next s ∧
      exec (.constRestored e a) s = .next s) ∧
    (live → ∀ a b,
      ((s.getF (F.PE_SPARE_THRESH e) = 0 ∨ s.getF (F.PE_SPARE_WINDOW_MS e) = 0 ∨ a + b < s.getF (F.PE_SPARE_THRESH e)) →
        does (.peDegraded e a b) s fun t => s.onlyWords t [R.PE_CNT e 0, R.PE_CNT e 1] ∧
          t.getF (F.PE_CNT_COUNT e 0) = min (s.getF (F.PE_CNT_COUNT e 0) + a) (2 ^ 32 - 1) ∧
          t.getF (F.PE_CNT_COUNT e 1) = min (s.getF (F.PE_CNT_COUNT e 1) + b) (2 ^ 32 - 1)) ∧
      (∀ u r, s.peNext = some u → (kernelsOf s.seed.image)[s.getF (F.PE_STATUS_KERNEL e)]? = some r → s.peState e = 2 →
        (s.getF (F.PE_SPARE_THRESH e) ≠ 0 → s.getF (F.PE_SPARE_WINDOW_MS e) ≠ 0 → s.getF (F.PE_SPARE_THRESH e) ≤ a + b →
          g.moving = false → does (.peDegraded e a b) s fun t =>
            (t.engine e).target = some u ∧ t.peState u = 1 ∧ t.peState e = 2 ∧ t.bit (F.PE_ERR_DEGRADED e) = true ∧
            (t.engine u).code = (r.load s.seed.image).code) ∧
        (g.target = none → does (.peHardFault e a b) s fun t =>
            (t.engine e).target = some u ∧ t.peState u = 1 ∧ t.peState e = 5 ∧ t.bit (F.PE_ERR_HARD_FAULT e) = true)) ∧
      (s.peState e = 0 → does (.peHardFault e a b) s fun t =>
        t.peState e = 6 ∧ t.bit (F.PE_SPARE_RETIRED e) = true ∧ t.bit (F.PE_ERR_HARD_FAULT e) = true) ∧
      ((s.peState e = 5 ∨ s.peState e = 6) → does (.peHardFault e a b) s fun t =>
        s.onlyWords t [R.PE_ERR e] ∧ t.bit (F.PE_ERR_HARD_FAULT e) = true) ∧
      (does (.constRestored e a) s fun t => (t.engine e).badConst = true ∧ ∀ k, k ≠ e → t.engine k = s.engine k)) ∧
    (s.up 5 = true → s.peState e = 1 → does (.peTargetLoaded e) s fun t =>
      (t.engine e).loaded = true ∧ t.peState e = 1 ∧ ∀ k, k ≠ e → t.engine k = s.engine k) ∧
    ((s.up 5 = false ∨ s.peState e ≠ 1) → exec (.peTargetLoaded e) s = .next s)

open Sys2Proof Sys2Proof.Machine in
/-- A key request of a context outside a mosaic sets its KEY bit, or counts as merged where the bit waits already;
on a context that does not encode it does nothing. A CAP below the minimum picture sets its error and is ignored;
another waits for the next picture. An engine that is busy or has no live context starts nothing; a context with a
line that can be coded starts its picture. A row whose lines have come is coded: the picture moves to its next row,
and after its last it is complete, counted and reported. Without a picture, or on a context that is shed, nothing is
coded. The model's choices in it: log 76, 79, 80. -/
def Obligations.EncodeContexts : Prop :=
  ∀ (s : State) (e c : Nat), e < 16 → c < 8 →
    let x := s.encCtx e c
    (s.reaches 6 = true → s.up 6 = true →
      (s.ctxIs e c 0 = false → ∀ v, exec (.encKeyIdr e c) s = .next s ∧ exec (.encKeySweep e c) s = .next s ∧
        exec (.seCapWrite e c v) s = .next s) ∧
      (s.ctxIs e c 0 = true → s.cells e c = [(e, c)] →
        ∀ i f, (i, f) ∈ [(Instr.encKeyIdr e c, F.SE_CTX_KEY_IDR e c), (.encKeySweep e c, F.SE_CTX_KEY_SWEEP e c)] →
          (s.bit f = false → does i s fun t => t.bit f = true ∧ s.onlyWords t [R.SE_CTX_KEY e c]) ∧
          (s.bit f = true → does i s fun t => s.onlyWords t [R.SE_CTX_CNT e c 8] ∧
            t.getF (F.SE_CTX_CNT_COUNT e c 8) = min (s.getF (F.SE_CTX_CNT_COUNT e c 8) + 1) (2 ^ 32 - 1))) ∧
      (s.ctxIs e c 0 = true → ∀ v : Word,
        (s.encM e c ≤ v.toNat → does (.seCapWrite e c v) s fun t => (R.SE_CTX_CAP e c, v) ∈ t.staged ∧
          t = { s with staged := t.staged }) ∧
        (v.toNat < s.encM e c → does (.seCapWrite e c v) s fun t =>
          t.bit ⟨R.SE_CTX_ERR e c, 8, 1⟩ = true ∧ t.staged = s.staged))) ∧
    ((s.up 6 = false ∨ s.bit (F.SE_STATUS_BUSY e) = true ∨ s.encLive e = []) → exec (.encPictureStart e [] []) s = .next s) ∧
    (∀ l r, s.up 6 = true → s.bit (F.SE_STATUS_BUSY e) = false → s.encLive e = [c] → s.cells e c = [(e, c)] →
      s.getF (F.SE_CTX_CFG_INPUT e c) = 1 → x.inbox = l :: r → canConvert l.format (s.getF (F.SE_CTX_CFG_PROFILE e c)) = true →
      does (.encPictureStart e [] []) s fun t =>
        t.bit (F.SE_STATUS_BUSY e) = true ∧ t.getF (F.SE_STATUS_CURRENT e) = c ∧ t.getF (F.SE_CTX_STATUS_STATE e c) = 1 ∧
        (t.encCtx e c).pic.map (fun p => (p.number, p.frame, p.row, p.items)) = some (x.count % 2 ^ 32, l.frame, 0, 0) ∧
        (t.encCtx e c).inbox = l :: r) ∧
    (s.getF (F.SE_STATUS_CURRENT e) = c →
      ((x.pic = none ∨ s.ctxLive e c = false) → ∀ k b, exec (.encCtuRowCode e [] [] k b) s = .next s) ∧
      (∀ p k b, x.pic = some p → s.ctxLive e c = true → s.getF (F.SE_CTX_CFG_INPUT e c) = 1 → p.ended = true → x.inbox = [] →
        p.eos = false →
        (p.row + 1 ≠ s.ctuRows e c → does (.encCtuRowCode e [] [] k b) s fun t =>
          (t.encCtx e c).pic.map (fun q => (q.number, q.frame, q.row)) = some (p.number, p.frame, p.row + 1) ∧
          (∀ a d, ctxKey a d ≠ ctxKey e c → t.stream a d = s.stream a d) ∧ t.getF (F.SE_CTX_STATUS_STATE e c) = 1) ∧
        (p.row + 1 = s.ctuRows e c → does (.encCtuRowCode e [] [] k b) s fun t =>
          (t.encCtx e c).pic = none ∧ (t.encCtx e c).count = x.count + 1 ∧ t.bit (F.SE_STATUS_BUSY e) = false ∧
          t.getF (F.SE_CTX_PIC_PICTURE e c) = p.number % 2 ^ 32 ∧ (t.encCtx e c).lastStamp = some p.stamp)))

open Sys2Proof Sys2Proof.Machine in
/-- A context that does not decode ignores all of them. A WR write is stored. With no input the context waits: STATE
reads 2 and nothing else changes. The next NAL unit of its buffer is taken: one of another layer or of a reserved
type only counts, and a sound parameter set within the context's limits replaces the one of its identifier. The next
picture in output order is written to its slot, reported and counted. A flush on an idle context forgets the good
picture; RESYNC stops until the next IRAP picture with DRIFT set; EOS waits for the input to be empty and then
flushes. The header timer closes the whole picture of a mosaic. The model's choices in it: log 77, 78. -/
def Obligations.DecodeContexts : Prop :=
  ∀ (s : State) (e c : Nat), e < 16 → c < 8 →
    let x := s.decCtx e c
    (s.decOn e c = false → ∀ n, exec (.decNalUnit e c n [] []) s = .next s ∧
      (s.reaches 6 = true → exec (.decFlush e c) s = .next s ∧ exec (.decResync e c) s = .next s ∧
        exec (.decEos e c) s = .next s)) ∧
    (s.ctxIs e c 1 = false → ∀ v b, exec (.decPictureOutput e c b) s = .next s ∧ exec (.mosaicHeaderTimeout e c) s = .next s ∧
      (s.reaches 6 = true → exec (.decWrWrite e c v) s = .next s)) ∧
    (s.reaches 6 = true → s.ctxIs e c 1 = true → ∀ v, exec (.decWrWrite e c v) s = .next (s.wr (R.DEC_WR e c) v)) ∧
    (s.decOn e c = true → s.bit (F.SE_STATUS_BUSY e) = false → x.cur = none → x.shedDue = false →
      s.getF (F.DEC_STATUS_STATE e c) ≠ 3 → s.getF (F.SE_CTX_CFG_INPUT e c) = 1 → s.bit (F.DEC_CTL_EOS e c) = false → ∀ n,
      (afterStart x.buf = none → headItem (s.trug (s.ctxF e c 8 2)).ring = none → does (.decNalUnit e c n [] []) s fun t =>
        t.getF (F.DEC_STATUS_STATE e c) = 2 ∧ s.onlyWords t [R.DEC_STATUS e c]) ∧
      (∀ b, afterStart x.buf = some b → x.bufEnd = false → x.bufCut = false →
        let l := (trimZeros (takeNal b).1).map (·.1)
        let ty := byteAt l 0 / 2 % 64
        let rest := if (afterStart (takeNal b).2).isNone then [] else (takeNal b).2
        (byteAt l 0 % 2 * 32 + byteAt l 1 / 8 ≠ 0 ∨ 48 ≤ ty → does (.decNalUnit e c n [] []) s fun t =>
          t.getF (F.DEC_CNT_COUNT e c 11) = min (s.getF (F.DEC_CNT_COUNT e c 11) + 1) (2 ^ 32 - 1) ∧
          t.decCtx e c = { x with buf := rest } ∧ t.getF (F.SE_STATUS_CURRENT e) = c ∧
          t.getF (F.DEC_STATUS_STATE e c) = 1) ∧
        (32 ≤ ty → ty ≤ 34 → byteAt l 0 % 2 * 32 + byteAt l 1 / 8 = 0 → byteAt l 0 < 128 → byteAt l 1 % 8 ≠ 0 →
          emulationBad 0 l = false → (trimZeros (takeNal b).1).any (·.2) = false → n.err = 0 →
          (ty = 33 → n.width ≤ s.ctxF e c 12 2 ∧ n.height ≤ s.ctxF e c 14 2) →
          (ty ≠ 34 → n.profile ≤ s.getF (F.SE_CTX_CFG_PROFILE e c)) → does (.decNalUnit e c n [] []) s fun t =>
          ((t.decCtx e c).sets.at none (ty * 64 + n.id)).map (fun v => (v.parent, v.width, v.height, v.supported))
            = some (n.parent, n.width, n.height, true) ∧
          (∀ k, k ≠ ty * 64 + n.id → (t.decCtx e c).sets.at none k = x.sets.at none k) ∧ (t.decCtx e c).buf = rest))) ∧
    (s.up 6 = true → s.ctxIs e c 1 = true →
      (x.waiting = [] → x.cur = none → ∀ b, exec (.decPictureOutput e c b) s = .next s) ∧
      (∀ p, nextOutput x.waiting = some p → s.ctxF e c 46 1 = 0xFF → does (.decPictureOutput e c false) s fun t =>
        t.decCtx e c = { x with outputs := x.outputs + 1, waiting := x.waiting.filter (·.number != p.number) } ∧
        t.getF (F.DEC_LAST_PICTURE e c) = x.outputs % 2 ^ 32 ∧ t.trugs = s.trugs ∧
        t.getF (F.DEC_CNT_COUNT e c 12) = min (s.getF (F.DEC_CNT_COUNT e c 12) + 1) (2 ^ 32 - 1)) ∧
      (let q := s.leadCell e c
       ((s.decCtx q.1 q.2).mos = none → exec (.mosaicHeaderTimeout e c) s = .next s) ∧
       ∀ m, (s.decCtx q.1 q.2).mos = some m → does (.mosaicHeaderTimeout e c) s fun t =>
         (t.decCtx q.1 q.2).mos = none ∧ (t.decCtx q.1 q.2).mosLast = some m.picture)) ∧
    (s.reaches 6 = true → s.decOn e c = true → x.cur = none →
      (x.waiting = [] → does (.decFlush e c) s fun t => t.decCtx e c = { x with good := none } ∧
        t.bit (F.DEC_CTL_FLUSH e c) = false ∧ t.bit (F.DEC_STATUS_GOOD e c) = false) ∧
      (does (.decResync e c) s fun t => t.decCtx e c = { x with started := false, drift := true } ∧
        t.bit (F.DEC_CTL_RESYNC e c) = true ∧ t.bit (F.DEC_STATUS_DRIFT e c) = true) ∧
      (s.decEmpty e c = false → exec (.decEos e c) s = .next (s.flag (F.DEC_CTL_EOS e c))) ∧
      (s.decEmpty e c = true → x.waiting = [] → does (.decEos e c) s fun t => t.decCtx e c = { x with good := none } ∧
        t.bit (F.DEC_CTL_EOS e c) = true))

open Sys2Proof Sys2Proof.Machine in
/-- A head that is not in the image or whose block does not work ignores its commands. HEAD_LINE moves a running
head to its next line, starts the first frame with number 0 and every later one with the next number, and sends the
active line that ends on an output of one link. A commit request sets REQ, and counts as late outside the window. A
group request sets REQ in every member and in no other head. A pixel missing from the line in progress replaces the
rest of the line with the background and counts the line once. A read of STATUS latches FRAME and FRAME_STAMP. A CRC
rectangle write waits for a commit, unless it would be odd under LAYOUT 2. The model's choices in it: log 81. -/
def Obligations.ScanOutHeads : Prop :=
  ∀ (s : State) (h : Nat), h < 8 →
    let x := s.head h
    (s.headOn h = false → (∀ a p b, exec (.headLine h [] []) s = .next s ∧ exec (.headUnderrun h p a b) s = .next s) ∧
      (s.reaches 7 = true → exec (.headCommitReq h) s = .next s ∧ ∀ r z v, exec (.headCrcRectWrite h r z v) s = .next s) ∧
      exec (.headStatusRead h) s = .next { s with lastRead := [(s.rd (R.HEAD_STATUS h)).toNat] }) ∧
    (s.headOn h = true →
      (x.running = false → x.active = none → does (.headLine h [] []) s fun t =>
        (t.head h).running = true ∧ (t.head h).line = 0 ∧ (t.head h).frame = 0 ∧ (t.head h).stamp = s.longStamp) ∧
      (x.running = true → x.line + 1 < x.total → does (.headLine h [] []) s fun t =>
        (t.head h).line = x.line + 1 ∧ (t.head h).frame = x.frame ∧ (t.head h).lineAt = s.corrTicks ∧
        (s.bit (F.HEAD_COMMIT_REQ h) = false → t.getF (F.HEAD_STATUS_LINE h) = (x.line + 1) % 2 ^ 14)) ∧
      (x.running = true → x.total ≤ x.line + 1 → x.slip = none → does (.headLine h [] []) s fun t =>
        (t.head h).line = 0 ∧ (t.head h).frame = (x.frame + 1) % 2 ^ 32 ∧ (t.head h).stamp = s.longStamp) ∧
      (∀ a, x.active = some a → (s.headF h 3 1).testBit 0 = true → (s.headF h 3 1).testBit 3 = false →
        let y := x.line - s.vStart h
        does (.headLine h [] []) s fun t => Output.headLine h 0 y 0 (decide (y + 1 = s.vActive h))
          (orderCodes (s.outEnc h) a.comps 0 (s.hActive h)) ∈ t.out) ∧
      (∀ p c th, (x.active = none ∨ x.off = true ∨ s.hActive h ≤ c) → exec (.headUnderrun h p c th) s = .next s) ∧
      (∀ a p c th, x.active = some a → x.off = false → c < s.hActive h → does (.headUnderrun h p c th) s fun t =>
        (t.head h).active = some { a with
          comps := fillFrom (s.outEnc h) (s.background h) c a.comps, fill := true, under := true } ∧
        t.bit (F.HEAD_ERR_UNDERRUN h) = true ∧ (t.head h).line = x.line ∧
        t.getF (F.HEAD_CNT_COUNT h 1) = min (s.getF (F.HEAD_CNT_COUNT h 1) + b2n (!a.under)) (2 ^ 32 - 1)) ∧
      (does (.headStatusRead h) s fun t => t.getF (F.HEAD_FRAME_FRAME h) = x.frame % 2 ^ 32 ∧
        t.getF (F.HEAD_FRAME_STAMP_STAMP h) = x.stamp % 2 ^ 64 ∧ t.lastRead = [(s.rd (R.HEAD_STATUS h)).toNat] ∧
        t = { s with regs := t.regs, lastRead := t.lastRead } ∧
        ∀ o, o ∉ [R.HEAD_FRAME h, R.HEAD_FRAME_STAMP h, R.HEAD_FRAME_STAMP h + 4] → t.rd o = s.rd o) ∧
      (s.reaches 7 = true →
        (s.bit (F.HEAD_STATUS_WINDOW_OPEN h) = true → does (.headCommitReq h) s fun t =>
          t.bit (F.HEAD_COMMIT_REQ h) = true ∧ s.onlyWords t [R.HEAD_COMMIT h]) ∧
        (s.bit (F.HEAD_STATUS_WINDOW_OPEN h) = false → does (.headCommitReq h) s fun t =>
          t.bit (F.HEAD_COMMIT_REQ h) = true ∧ t.bit (F.HEAD_ERR_COMMIT_LATE h) = true ∧
          t.getF (F.HEAD_CNT_COUNT h 0) = min (s.getF (F.HEAD_CNT_COUNT h 0) + 1) (2 ^ 32 - 1) ∧
          s.onlyWords t [R.HEAD_COMMIT h, R.HEAD_ERR h, R.HEAD_CNT h 0]) ∧
        (∀ r z v, (16 ≤ r ∨ ((s.outEnc h).layout = 2 ∧ v.getLsbD 0 = true)) → exec (.headCrcRectWrite h r z v) s = .next s) ∧
        (∀ r z v, r < 16 → ((s.outEnc h).layout ≠ 2 ∨ v.getLsbD 0 = false) → does (.headCrcRectWrite h r z v) s fun t =>
          (if z then R.HEAD_CRC_WH h r else R.HEAD_CRC_XY h r, v) ∈ t.staged ∧ t = { s with staged := t.staged }))) ∧
    (s.reaches 7 = true → ∀ g, g < 4 → does (.headGroupCommitReq g) s fun t =>
      (h ∈ s.headList → s.headF h 2 1 = g → s.headOn h = true → t.bit (F.HEAD_COMMIT_REQ h) = true) ∧
      ((h ∉ s.headList ∨ s.headF h 2 1 ≠ g) → t.rd (R.HEAD_COMMIT h) = s.rd (R.HEAD_COMMIT h)))

open Sys2Proof Sys2Proof.Machine in
/-- A read whose bytes a queued write holds is answered from the youngest such write, any other joins the queue of
its pseudo-channel and wakes its group. A write joins its queue, unless it is replaced within a queued one or a
queue of 64 is full. A real-time read at or below RD_LEVEL puts its port in panic and counts, and the first write of
an item at a full real-time port drops the item with its word poisoned. Issue serves a refresh at its limit first,
then the request the order gives: a read delivers its bytes, a whole-word write stores them, and the row is open.
The idle drain, power-down, refresh and retraining act under their conditions and do nothing else. A watermark write
is taken whole or ignored. The model's choices in it: log 84, 85. -/
def Obligations.HbmRequests : Prop :=
  ∀ (s : State) (q : Nat), q < Variant.pcs s.variant →
    let p := s.pc q
    (s.up 8 = false → (∀ op, exec (.memRequest op) s = .next s) ∧ ∀ k ok, exec (.memIssue q []) s = .next s ∧
      exec (.memDrainIdleTimeout q) s = .next s ∧ exec (.memIdlePowerdown q k) s = .next s ∧
      exec (.memRefresh q k) s = .next s ∧ exec (.memRetrain q ok) s = .next s ∧ exec (.memRetrainForced q ok) s = .next s) ∧
    (s.up 8 = true →
      (∀ op, s.pcOf op.addr = q → op.data = [] → 0 < op.len → (op.cls < 4 ∨ 7 ≤ op.cls) →
        let held (r : MemReq) := decide (r.addr ≤ op.addr) && decide (op.addr + op.len ≤ r.addr + r.data.length)
        (∀ r, p.writes.reverse.find? held = some r → exec (.memRequest op) s = .next (s.emit
          (.memData op.block op.inst op.addr ((r.data.drop (op.addr - r.addr)).take op.len) false))) ∧
        (p.writes.find? held = none → p.reads.length < 64 → does (.memRequest op) s fun t =>
          (t.pc q).reads = p.reads ++ [⟨s.hbm.age, op.cls, op.block, op.inst, op.addr, [], op.len⟩] ∧ (t.pc q).writes = p.writes ∧
          (t.pc q).down.at false (hbmPlace s.variant op.addr).sid = false ∧ t.hbm.bytes = s.hbm.bytes ∧ t.regs = s.regs) ∧
        (p.writes.find? held = none → 64 ≤ p.reads.length → exec (.memRequest op) s = .next s)) ∧
      (∀ op, s.pcOf op.addr = q → op.data ≠ [] → (op.cls < 4 ∨ 7 ≤ op.cls) →
        p.writes.any (sameWrite · op.addr op.data.length) = false →
        (p.writes.length < 64 → does (.memRequest op) s fun t =>
          (t.pc q).writes = p.writes ++ [⟨s.hbm.age, op.cls, op.block, op.inst, op.addr, op.data, 0⟩] ∧ (t.pc q).reads = p.reads ∧ t.hbm.bytes = s.hbm.bytes ∧
          ((t.pc q).drain = (p.drain || (decide (s.getF F.MEM_WM_HIGH ≠ 0) &&
            decide (s.getF F.MEM_WM_HIGH ≤ p.writes.length + 1))))) ∧
        (64 ≤ p.writes.length → exec (.memRequest op) s = .next s)) ∧
      (∀ op, op.data = [] → 0 < op.len → 4 ≤ op.cls → op.cls < 7 → op.level ≤ s.getF F.MEM_PANIC_RD_LEVEL →
        s.getF F.MEM_PANIC_RD_LEVEL ≠ 0 → does (.memRequest op) s fun t =>
          t.hbm.panic.at false (portKey false op.block op.inst) = true ∧
          t.getF (F.MEM_CLASS_PANICS_COUNT (op.cls - 4)) = min (s.getF (F.MEM_CLASS_PANICS_COUNT (op.cls - 4))
            + b2n (!s.hbm.panic.at false (portKey false op.block op.inst))) (2 ^ 32 - 1)) ∧
      (∀ op, op.data ≠ [] → 4 ≤ op.cls → op.cls < 7 → op.first = true → 16 ≤ op.level → does (.memRequest op) s fun t =>
          t.bit F.MEM_ERR_LINE_DROP = true ∧ t.hbm.poison.at false (op.itemAddr / 32) = true ∧ t.hbm.pcs = s.hbm.pcs ∧
          t.hbm.discard.at false (portKey true op.block op.inst) = !op.last) ∧
      (∀ b, p.refreshLimit = some b → exec (.memIssue q []) s =
        .next (s.setPc q { p with postponed := p.postponed.put 0 b 0, openRow := p.openRow.put none b none })) ∧
      (p.refreshLimit = none → s.nextReq p = none → exec (.memIssue q []) s = .next s) ∧
      (∀ r, p.refreshLimit = none → s.nextReq p = some r → s.pcOf r.addr = q →
        s.hbm.unbacked.at false (r.addr / 256) = false → s.hbm.poison.at false (r.addr / 32) = false →
        does (.memIssue q []) s fun t =>
          (t.pc q).reads = p.reads.filter (·.age != r.age) ∧ (t.pc q).writes = p.writes.filter (·.age != r.age) ∧
          (t.pc q).openRow.at none (hbmPlace s.variant r.addr).bankKey = some (hbmPlace s.variant r.addr).row ∧
          (r.len ≠ 0 → t.hbm.bytes = s.hbm.bytes ∧ t.out = s.out ++ [.memData r.block r.inst r.addr
            (((s.hbm.read (r.addr / 32 * 32) 32).drop (r.addr % 32)).take r.len) false]) ∧
          (r.len = 0 → r.addr % 32 = 0 → r.data.length = 32 →
            t.hbm.bytes = (s.hbm.store r.addr r.data).bytes ∧ t.out = s.out)) ∧
      ((p.reads = [] ∧ p.writes ≠ [] ∧ p.drain = false ∧ s.getF F.MEM_WM_HIGH ≠ 0) → exec (.memDrainIdleTimeout q) s =
        .next (s.setPc q { p with drain := true, drainIdle := true })) ∧
      ((p.reads ≠ [] ∨ p.writes = [] ∨ p.drain = true ∨ s.getF F.MEM_WM_HIGH = 0) →
        exec (.memDrainIdleTimeout q) s = .next s) ∧
      (∀ k, k < 3 → (s.getF F.MEM_CTL_IDLE_NS ≠ 0 → (∀ r ∈ p.all, (hbmPlace s.variant r.addr).sid ≠ k) →
          exec (.memIdlePowerdown q k) s = .next (s.setPc q { p with down := p.down.put false k true })) ∧
        ((s.getF F.MEM_CTL_IDLE_NS = 0 ∨ ∃ r ∈ p.all, (hbmPlace s.variant r.addr).sid = k) →
          exec (.memIdlePowerdown q k) s = .next s)) ∧
      (∀ b, (s.pcState q = 2 → exec (.memRefresh q b) s = .next s) ∧
        (s.pcState q ≠ 2 → p.all ≠ [] → p.postponed.at 0 b < 8 → exec (.memRefresh q b) s =
          .next (s.setPc q { p with postponed := p.postponed.put 0 b (p.postponed.at 0 b + 1) })) ∧
        (s.pcState q ≠ 2 → (p.all = [] ∨ 8 ≤ p.postponed.at 0 b) → exec (.memRefresh q b) s =
          .next (s.setPc q { p with postponed := p.postponed.put 0 b 0, openRow := p.openRow.put none b none }))) ∧
      (∀ c, (c = Instr.memRetrainForced q true ∨ (c = .memRetrain q true ∧ p.all.any s.inPanic = false)) →
        s.pcState q ≠ 2 → exec c s = .next (s.setPc q { p with trainFails := 0 })) ∧
      (∀ c, (c = Instr.memRetrainForced q false ∨ (c = .memRetrain q false ∧ p.all.any s.inPanic = false)) →
        s.pcState q ≠ 2 → does c s fun t => (t.pc q).trainFails = p.trainFails + 1 ∧
          t.bit (F.MEM_STK_ERR_TRAIN_FAIL (q / 32)) = true ∧ (t.pc q).retireDue = (p.retireDue || decide (1 ≤ p.trainFails))) ∧
      (p.all.any s.inPanic = true → ∀ ok, exec (.memRetrain q ok) s = .next s)) ∧
    (s.reaches 8 = true → ∀ v : Word,
      let hi := bitsOf v.toNat 0 7
      let lo := bitsOf v.toNat 8 7
      ((64 < hi ∨ (hi ≠ 0 ∧ hi ≤ lo) ∨ (hi = 0 ∧ lo = 64) ∨ (hi = 0 ∧ 64 < lo)) → exec (.memWmWrite v) s = .next s) ∧
      ((hi ≤ 64 ∧ lo < hi) ∨ (hi = 0 ∧ lo ≤ 63) → does (.memWmWrite v) s fun t =>
        t.getF F.MEM_WM_HIGH = hi ∧ t.getF F.MEM_WM_LOW = lo ∧ s.onlyWords t [R.MEM_WM]))

open Sys2Proof Sys2Proof.Machine in
/-- A scrub of a clean word changes nothing; a correction is written back and counted; an uncorrectable word is
marked with the poison pattern and counted. The lowest row that waits is remapped while its bank has a spare row,
with the flag and the count of ROWS, and otherwise the pool of rows is exhausted. A pseudo-channel that is due
enters RETIRING where the reserve takes its need, with ERR.RETIRE, one at a time; where it does not, it ends
RETIRING or UNBACKED. The end of the copy makes it RETIRED and counts it. The model's choices in it: log 84, 85. -/
def Obligations.HbmScrubAndRetirement : Prop :=
  ∀ (s : State) (q : Nat), q < Variant.pcs s.variant →
    let p := s.pc q
    (∀ a e, (s.up 8 = false ∨ s.getF F.MEM_CTL_SCRUB_HOURS = 0 ∨ s.hbm.unbacked.at false (a / 256) = true) →
      exec (.memScrub a e) s = .next s) ∧
    (∀ a e d f, s.up 8 = true → s.getF F.MEM_CTL_SCRUB_HOURS ≠ 0 → s.hbm.unbacked.at false (a / 256) = false →
      let w := a / 32 * 32
      let l := hbmPlace s.variant w
      let got := qorethRead (s.hbm.read w 32) (s.hbm.poison.at false (w / 32)) e
      (got.2 = .clean → exec (.memScrub a e) s = .next s) ∧
      (got = (d, .corrected f) → does (.memScrub a e) s fun t =>
        t.hbm.read w 32 = d ∧ (∀ k, (k < w ∨ w + 32 ≤ k) → t.hbm.byte k = s.hbm.byte k) ∧ t.hbm.poison = s.hbm.poison ∧
        t.getF (F.MEM_PC_CORR_COUNT l.stack l.pc) = min (s.getF (F.MEM_PC_CORR_COUNT l.stack l.pc) + 1) (2 ^ 32 - 1) ∧
        t.getF (F.MEM_PC_SCRUB_COUNT l.stack l.pc) = min (s.getF (F.MEM_PC_SCRUB_COUNT l.stack l.pc) + 1) (2 ^ 32 - 1)) ∧
      (got = (d, .uncorrectable) → does (.memScrub a e) s fun t =>
        t.hbm.poison.at false (w / 32) = true ∧ t.bit (F.MEM_STK_ERR_UNCORR l.stack) = true ∧
        t.getF (F.MEM_PC_UNCORR_COUNT l.stack l.pc) = min (s.getF (F.MEM_PC_UNCORR_COUNT l.stack l.pc) + 1) (2 ^ 32 - 1) ∧
        t.getF (F.MEM_PC_SCRUB_COUNT l.stack l.pc) = min (s.getF (F.MEM_PC_SCRUB_COUNT l.stack l.pc) + 1) (2 ^ 32 - 1))) ∧
    ((s.up 8 = false ∨ p.due = []) → exec (.memRowRemap q []) s = .next s) ∧
    (∀ row rest, s.up 8 = true → p.due = row :: rest → p.sparesUsed (row / 16384) < 2 → does (.memRowRemap q []) s fun t =>
      (t.pc q).remapped = p.remapped ++ [row] ∧ row ∉ (t.pc q).due ∧ t.bit (F.MEM_STK_ERR_ROW_REMAP (q / 32)) = true ∧
      t.getF (F.MEM_PC_STATE_ROWS (q / 32) (q % 32)) = (p.remapped.length + 1) % 2 ^ 8 ∧ t.pcState q = s.pcState q) ∧
    (∀ row rest, s.up 8 = true → p.due = row :: rest → 2 ≤ p.sparesUsed (row / 16384) → does (.memRowRemap q []) s fun t =>
      t.bit F.GLB_SPARE_ROW_EXH = true) ∧
    ((s.up 8 = false ∨ p.retireDue = false ∨ s.inService q = false ∨
        (∃ k, k < Variant.pcs s.variant ∧ s.pcState k = 1)) → exec (.memPcRetire q) s = .next s) ∧
    (s.up 8 = true → p.retireDue = true → s.inService q = true → (∀ k, k < Variant.pcs s.variant → s.pcState k ≠ 1) →
      let fits := (s.setF (F.MEM_PC_STATE_STATE (q / 32) (q % 32)) 1).reserveTakes q
      (fits = true → does (.memPcRetire q) s fun t => t.pcState q = 1 ∧ t.bit (F.MEM_STK_ERR_RETIRE (q / 32)) = true ∧
        (∀ k, k < Variant.pcs s.variant → k ≠ q → t.pcState k = s.pcState k)) ∧
      (fits = false → does (.memPcRetire q) s fun t => (t.pcState q = 1 ∨ t.pcState q = 3) ∧
        t.bit F.GLB_SPARE_PC_EXH = true)) ∧
    ((s.up 8 = false ∨ s.pcState q ≠ 1) → exec (.memRetireComplete q []) s = .next s) ∧
    (s.up 8 = true → s.pcState q = 1 → does (.memRetireComplete q []) s fun t =>
      t.pcState q = 2 ∧ (t.pc q).retireDue = false ∧ (t.pc q).due = [] ∧
      t.getF (F.MEM_STK_STATUS_RETIRED (q / 32)) = min (s.getF (F.MEM_STK_STATUS_RETIRED (q / 32)) + 1) 63)

open Sys2Proof Sys2Proof.Machine in
/-- Version 1.0 makes the engine ready and any other major not. A queue is enabled, disabled and rung as written, or
NOT_READY tells that it was not. The one queue whose turn it is has its next entry fetched: an opcode not listed and
a non-zero reserved byte complete at once, and others wait for their command. A completion is written at the tail of
its queue while that has room, PHASE inverts on a wrap, and the queue's vector is raised where VEC_EN is 1. A zero
weight is left out of a REC_ARB write and a temperature window that is too narrow is ignored whole. A reset of a
queue at rest ends its entries with ABORTED and puts head and tail at 0. The model's choices in it: log 87, 88. -/
def Obligations.RecordingQueues : Prop :=
  ∀ (s : State) (n : Nat), n < 64 →
    (s.reaches 9 = false → ∀ a b c d v, exec (.recIfaceWrite a b) s = .next s.inReset ∧
      exec (.recSqSizeWrite n a b c) s = .next s.inReset ∧ exec (.recCqSizeWrite n a v) s = .next s.inReset ∧
      exec (.recSqDoorbell n a) s = .next s.inReset ∧ exec (.recCqDoorbell n a) s = .next s.inReset ∧
      exec (.recSqReset n) s = .next s.inReset ∧ exec .recResetAll s = .next s.inReset ∧
      (∀ w, exec (.recArbWrite w) s = .next s.inReset ∧ exec (.recTempWinWrite a w) s = .next s.inReset) ∧
      ∀ r, exec (.recPortLinkReset r a b c d) s = .next s.inReset) ∧
    (s.up 9 = false → ∀ b, exec (.recFetch b) s = .next s ∧ exec (.recCompletionPost n) s = .next s) ∧
    (s.reaches 9 = true →
      (∀ major minor, (major % 16 = 1 → does (.recIfaceWrite major minor) s fun t =>
          t.bit F.REC_STATUS_READY = true ∧ t.bit F.REC_STATUS_VER_BAD = false ∧ t.getF F.REC_STATUS_MAJOR = 1 ∧
          t.getF F.REC_STATUS_MINOR = 0 ∧ t.getF F.REC_CTL_IFACE_MAJOR = 1 ∧ t.getF F.REC_CTL_IFACE_MINOR = minor % 16 ∧
          s.onlyWords t [R.REC_CTL, R.REC_STATUS]) ∧
        (major % 16 ≠ 1 → does (.recIfaceWrite major minor) s fun t =>
          t.bit F.REC_STATUS_READY = false ∧ t.bit F.REC_STATUS_VER_BAD = true ∧ s.onlyWords t [R.REC_CTL, R.REC_STATUS])) ∧
      (∀ size v, 2 ≤ size → size ≤ 4096 →
        (s.bit F.REC_STATUS_READY = false → does (.recCqSizeWrite n size v) s fun t =>
          t.bit F.REC_ERR_NOT_READY = true ∧ s.onlyWords t [R.REC_ERR]) ∧
        (s.bit F.REC_STATUS_READY = true → s.getF (F.REC_CQ_CTL_SIZE n) = 0 → does (.recCqSizeWrite n size v) s fun t =>
          t.getF (F.REC_CQ_CTL_SIZE n) = size ∧ t.bit (F.REC_CQ_CTL_VEC_EN n) = v ∧ t.getF (F.REC_CQ_TAIL_TAIL n) = 0 ∧
          t.getF (F.REC_CQ_TAIL_PHASE n) = 1 ∧ t.recorder.cqHead.at 0 n = 0 ∧ t.recorder.done = s.recorder.done)) ∧
      (∀ v, ((∃ q, q < 64 ∧ s.getF (F.REC_SQ_CTL_SIZE q) ≠ 0 ∧ s.getF (F.REC_SQ_CTL_CQ q) = n) →
          exec (.recCqSizeWrite n 0 v) s = .next s) ∧
        ((∀ q, q < 64 → s.getF (F.REC_SQ_CTL_SIZE q) = 0 ∨ s.getF (F.REC_SQ_CTL_CQ q) ≠ n) →
          does (.recCqSizeWrite n 0 v) s fun t => t.getF (F.REC_CQ_CTL_SIZE n) = 0 ∧ s.onlyWords t [R.REC_CQ_CTL n])) ∧
      (∀ size cq cls, 1 ≤ size → size ≤ 4096 → cq < 64 → cls < 4 →
        ((s.bit F.REC_STATUS_READY = false ∨ s.getF (F.REC_CQ_CTL_SIZE cq) = 0) → does (.recSqSizeWrite n size cq cls) s fun t =>
          t.bit F.REC_ERR_NOT_READY = true ∧ s.onlyWords t [R.REC_ERR]) ∧
        (s.bit F.REC_STATUS_READY = true → s.getF (F.REC_CQ_CTL_SIZE cq) ≠ 0 → s.getF (F.REC_SQ_CTL_SIZE n) = 0 →
          does (.recSqSizeWrite n size cq cls) s fun t =>
            t.getF (F.REC_SQ_CTL_SIZE n) = size ∧ t.getF (F.REC_SQ_CTL_CQ n) = cq ∧ t.getF (F.REC_SQ_CTL_CLASS n) = cls ∧
            t.getF (F.REC_SQ_HEAD_HEAD n) = 0 ∧ t.recorder.sqTail.at 0 n = 0 ∧ t.recorder.fetched = s.recorder.fetched)) ∧
      (∀ i, (i < s.getF (F.REC_SQ_CTL_SIZE n) → exec (.recSqDoorbell n i) s =
          .next { s with recorder := { s.recorder with sqTail := s.recorder.sqTail.put 0 n i } }) ∧
        (s.getF (F.REC_SQ_CTL_SIZE n) ≤ i → exec (.recSqDoorbell n i) s = .next s) ∧
        (i < s.getF (F.REC_CQ_CTL_SIZE n) → exec (.recCqDoorbell n i) s =
          .next { s with recorder := { s.recorder with cqHead := s.recorder.cqHead.put 0 n i } }) ∧
        (s.getF (F.REC_CQ_CTL_SIZE n) ≤ i → exec (.recCqDoorbell n i) s = .next s)) ∧
      (∀ w : Word, does (.recArbWrite w) s fun t => s.onlyWords t [R.REC_ARB] ∧
        (∀ f ∈ [F.REC_ARB_W_HIGH, F.REC_ARB_W_MED, F.REC_ARB_W_LOW], t.getF f =
          if bitsOf w.toNat f.lo f.width = 0 then s.getF f else bitsOf w.toNat f.lo f.width)) ∧
      (∀ d (w : Word), d < 4 →
        (signedOf 8 (w.toNat % 256) < signedOf 8 (w.toNat / 256 % 256) - 4 → does (.recTempWinWrite d w) s fun t =>
          t.getF (F.REC_DRIVE_TEMP_WIN_LO d) = w.toNat % 256 ∧ t.getF (F.REC_DRIVE_TEMP_WIN_HI d) = w.toNat / 256 % 256 ∧
          s.onlyWords t [R.REC_DRIVE_TEMP_WIN d]) ∧
        (signedOf 8 (w.toNat / 256 % 256) - 4 ≤ signedOf 8 (w.toNat % 256) → exec (.recTempWinWrite d w) s = .next s)) ∧
      (does (.recSqReset n) s fun t => t.recorder.fetched = s.recorder.fetched.filter (·.sq != n) ∧
        (∀ e ∈ s.recorder.fetched, e.sq = n → ∃ d ∈ t.recorder.done, d.sq = n ∧ d.cid = fieldAt e.bytes 2 2 ∧ d.code = 14) ∧
        ((∀ k, k < 32 → s.recState k = 0 ∨ s.getF (F.REC_STREAM_STATUS_OWNER k) ≠ n) →
          (∀ j ∈ s.recorder.jobs, j.entry.map (·.sq) ≠ some n) →
          t.getF (F.REC_SQ_HEAD_HEAD n) = 0 ∧ t.recorder.sqTail.at 0 n = 0 ∧ t.bit (F.REC_SQ_CTL_RESET n) = false)) ∧
      ((∀ k, k < 32 → s.recState k = 0) → s.recorder.jobs = [] → s.recorder.resets = [] →
        does .recResetAll s fun t => (∀ q, q < 64 → t.getF (F.REC_SQ_HEAD_HEAD q) = 0 ∧ t.recorder.sqTail.at 0 q = 0) ∧
          t.bit F.REC_CTL_RESET_ALL = false ∧ t.recorder.resetAll = false ∧ ∀ e ∈ t.recorder.fetched, 64 ≤ e.sq)) ∧
    (s.up 9 = true →
      ((∀ q, q < 64 → s.sqWaits q = false) → ∀ b, exec (.recFetch b) s = .next s) ∧
      (s.sqWaits n = true → (∀ q, q < 64 → q ≠ n → s.sqWaits q = true →
          s.getF (F.REC_SQ_CTL_CLASS n) = 0 ∧ s.getF (F.REC_SQ_CTL_CLASS q) ≠ 0) →
        (1 ≤ s.recorder.roundClass ∧ s.recorder.roundClass ≤ 3) →
        (s.getF F.REC_ARB_W_HIGH ≠ 0 ∧ s.getF F.REC_ARB_W_MED ≠ 0 ∧ s.getF F.REC_ARB_W_LOW ≠ 0) →
        s.getF (F.REC_SQ_CTL_SIZE n) ≤ 4096 → ∀ b,
          let h := (s.getF (F.REC_SQ_HEAD_HEAD n) + 1) % s.getF (F.REC_SQ_CTL_SIZE n)
          let ends (code : Nat) (z : Bool) : RecDone := ⟨s.getF (F.REC_SQ_CTL_CQ n), n, h, fieldAt b 2 2, code, z, 0⟩
          let listed := byteAt b 0 ∈ [1, 2, 3, 4, 5, 0x10, 0x11, 0x12, 0x20]
          (does (.recFetch b) s fun t => t.getF (F.REC_SQ_HEAD_HEAD n) = h ∧ s.onlyWords { t with recorder := s.recorder }
            [R.REC_SQ_HEAD n]) ∧
          (¬ listed → does (.recFetch b) s fun t => t.recorder.done = s.recorder.done ++ [ends 1 false] ∧
            t.recorder.fetched = s.recorder.fetched) ∧
          (listed → (byteAt b 5 ≠ 0 ∨ byteAt b 6 ≠ 0 ∨ byteAt b 7 ≠ 0 ∨ byteAt b 63 ≠ 0) → does (.recFetch b) s fun t =>
            t.recorder.done = s.recorder.done ++ [ends 2 false] ∧ t.recorder.fetched = s.recorder.fetched) ∧
          (byteAt b 0 = 5 → byteAt b 16 = 0 → (∀ i, i < 64 → i ∉ [0, 2, 3, 16] → byteAt b i = 0) → does (.recFetch b) s fun t =>
            t.recorder.done = s.recorder.done ++ [ends 0 true] ∧ t.recorder.fetched = s.recorder.fetched) ∧
          (byteAt b 0 = 5 → byteAt b 16 < 16 → byteAt b 16 ≠ 0 → (∀ i, i < 64 → i ∉ [0, 2, 3, 16] → byteAt b i = 0) →
            does (.recFetch b) s fun t => t.recorder.done = s.recorder.done ∧
              t.recorder.fetched = s.recorder.fetched ++ [⟨n, h, b⟩])) ∧
      ((∀ d ∈ s.recorder.done, d.cq ≠ n) → exec (.recCompletionPost n) s = .next s) ∧
      (∀ d, s.recorder.done.find? (fun x => x.cq == n) = some d →
        let tail := s.getF (F.REC_CQ_TAIL_TAIL n)
        let size := s.getF (F.REC_CQ_CTL_SIZE n)
        let ph := s.getF (F.REC_CQ_TAIL_PHASE n)
        ((size = 0 ∨ (tail + 1) % size = s.recorder.cqHead.at 0 n) → exec (.recCompletionPost n) s = .next s) ∧
        (size ≠ 0 → (tail + 1) % size ≠ s.recorder.cqHead.at 0 n → does (.recCompletionPost n) s fun t =>
          t.recorder.done = s.recorder.done.erase d ∧
          t.out = s.out ++ [.hostWrite (s.getF (F.REC_CQ_BASE_ADDR n) * 4096 + 16 * tail)
            (leBytes 8 d.result ++ leBytes 2 d.head ++ leBytes 2 d.sq ++ leBytes 2 d.cid ++
              leBytes 2 (ph + 2 * b2n d.zero + 256 * d.code))] ∧
          t.getF (F.REC_CQ_TAIL_TAIL n) = (if tail + 1 = size then 0 else (tail + 1) % 4096) ∧
          t.getF (F.REC_CQ_TAIL_PHASE n) = (if tail + 1 = size then 1 - ph else ph) ∧
          t.msix = (if s.bit (F.REC_CQ_CTL_VEC_EN n) then (s.raise n).msix else s.msix))))

open Sys2Proof Sys2Proof.Machine in
/-- A command takes the oldest fetched entry of its opcode; with none it does nothing. A drive that is absent, lost
or unsupported, a set without layout, the interlock, a clip that is not there or is busy each end it with their own
code. IDENTIFY and MEDIA_INFO write their data to the host, MEDIA_FORMAT, MEDIA_TRIM, MEDIA_FLUSH and CLIP_READ
issue their NVMe commands and complete later. RECORD_START arms a stream or starts a take on every member of its
set, RECORD_STOP stops it, and CLIP_MARK holds a mark. The model's choices in it: log 88, 89. -/
def Obligations.RecordingCommands : Prop :=
  ∀ (s : State) (e : RecEntry) (ok : Bool), e.sq < 64 →
    let u := { s with recorder := { s.recorder with fetched := s.recorder.fetched.erase e } }
    let b := e.bytes
    let d := byteAt b 4
    let ds := maskDrives (byteAt b 16)
    (∀ p ∈ [(1, Instr.identify ok), (2, .mediaInfo ok), (3, .mediaFormat), (4, .mediaTrim), (5, .mediaFlush),
        (0x10, .recordStart), (0x11, .recordStop), (0x12, .clipMark), (0x20, .clipRead ok)],
      (s.up 9 = false ∨ ∀ x ∈ s.recorder.fetched, byteAt x.bytes 0 ≠ p.1) → exec p.2 s = .next s) ∧
    (s.fetchedFirst 1 e →
      (ok = false → exec (.identify ok) s = .next (s.completes e 15 0)) ∧
      (ok = true → ∃ l, exec (.identify ok) s =
          .next { s.completes e 0 0 with out := s.out ++ [.hostWrite (fieldAt b 8 8) l] } ∧
        l.length = 4096 ∧ fieldAt l 0 2 = 0x0100 ∧ byteAt l 2 = s.getF F.REC_STATUS_MINOR ∧
        byteAt l 3 = s.getF F.REC_STATUS_MAJOR ∧ (∀ k, k < 4 → (byteAt l 5).testBit k = s.bit (F.REC_DRIVE_STATUS_PRESENT k)) ∧
        byteAt l 6 = 64 ∧ byteAt l 7 = 64 ∧ fieldAt l 8 2 = 4096 ∧ byteAt l 10 = 32 ∧ byteAt l 11 = 0x10 ∧
        fieldAt l 16 8 = s.getF F.SEED_IMAGE_ID_BUILD_ID ∧ ∀ i, 24 ≤ i → byteAt l i = 0)) ∧
    (s.fetchedFirst 2 e →
      (∀ c, s.driveCode d = some c → exec (.mediaInfo ok) s = .next (s.completes e c 0)) ∧
      (s.driveCode d = none → ok = false → exec (.mediaInfo ok) s = .next (s.completes e 15 0)) ∧
      (s.driveCode d = none → ok = true → ∃ l, exec (.mediaInfo ok) s =
          .next { s.completes e 0 0 with out := s.out ++ [.hostWrite (fieldAt b 8 8) l] } ∧
        l.length = 512 ∧ l.take 40 = padTo 40 (s.recDrive d).model ∧ (l.drop 40).take 20 = padTo 20 (s.recDrive d).serial ∧
        (s.layoutOf d = none → fieldAt l 60 30 = 0) ∧ byteAt l 92 = s.getF (F.REC_DRIVE_TEMP_WIN_LO d) ∧
        byteAt l 93 = s.getF (F.REC_DRIVE_TEMP_WIN_HI d) ∧ byteAt l 94 = (s.rd (R.REC_DRIVE_STATUS d)).toNat % 256)) ∧
    (s.fetchedFirst 3 e →
      (∀ c, s.drivesCode ds = some c → exec .mediaFormat s = .next (s.completes e c 0)) ∧
      (s.drivesCode ds = none → s.interlocked ds = true → exec .mediaFormat s = .next (s.completes e 6 0)) ∧
      (s.drivesCode ds = none → s.interlocked ds = false → ds.any s.recordsTo = true →
        exec .mediaFormat s = .next (s.completes e 9 0)) ∧
      (s.drivesCode ds = none → s.interlocked ds = false → ds.any s.recordsTo = false → ds ≠ [] →
        does .mediaFormat s fun t => t.recorder.done = s.recorder.done ∧ t.recorder.fetched = u.recorder.fetched ∧
          (∀ k ∈ ds, t.bit (F.REC_DRIVE_STATUS_LAYOUT k) = false) ∧
          ∃ l, s.issues t l ∧ l.map (·.1) = ds.flatMap (fun k => [k, k]) ∧
            ∀ x ∈ l, ∃ a y, x.2 = .write a y ∧ (a = 0 ∨ a = 4096) ∧ y.length = 4096 ∧ fieldAt y 6 2 = 1)) ∧
    (s.fetchedFirst 4 e →
      (∀ c, s.driveCode d = some c → exec .mediaTrim s = .next (s.completes e c 0)) ∧
      (s.driveCode d = none → s.setOf d = none → exec .mediaTrim s = .next (s.completes e 4 0)) ∧
      (∀ m, s.driveCode d = none → s.setOf d = some m → let c := fieldAt b 16 4
        (s.interlocked m = true → exec .mediaTrim s = .next (s.completes e 6 0)) ∧
        (s.interlocked m = false → s.clipFound c m = false → exec .mediaTrim s = .next (s.completes e 8 0)) ∧
        (s.interlocked m = false → s.clipFound c m = true → s.clipBusy c m = true →
          exec .mediaTrim s = .next (s.completes e 9 0)) ∧
        (s.interlocked m = false → s.clipFound c m = true → s.clipBusy c m = false → does .mediaTrim s fun t =>
          t.recorder.done = s.recorder.done ∧ t.regs = s.regs ∧ s.issues t (m.map fun k => (k, .zero (4096 * (c + 1)) 4096))))) ∧
    (s.fetchedFirst 5 e →
      (∀ c, s.drivesCode ds = some c → exec .mediaFlush s = .next (s.completes e c 0)) ∧
      (s.drivesCode ds = none → ds.any (fun k => s.interlocked [k] && s.writesPending k) = true →
        exec .mediaFlush s = .next (s.completes e 6 0)) ∧
      (s.drivesCode ds = none → ds.any (fun k => s.interlocked [k] && s.writesPending k) = false → ds ≠ [] →
        does .mediaFlush s fun t => t.recorder.done = s.recorder.done ∧ t.regs = s.regs ∧
          s.issues t (ds.map fun k => (k, .flush)))) ∧
    (s.fetchedFirst 0x20 e →
      (∀ c, s.driveCode d = some c → exec (.clipRead ok) s = .next (s.completes e c 0)) ∧
      (s.driveCode d = none → s.setOf d = none → exec (.clipRead ok) s = .next (s.completes e 4 0)) ∧
      (∀ m, s.driveCode d = none → s.setOf d = some m →
        (s.clipFound (fieldAt b 16 4) m = false → exec (.clipRead ok) s = .next (s.completes e 8 0)) ∧
        (s.clipFound (fieldAt b 16 4) m = true → ok = false → exec (.clipRead ok) s = .next (s.completes e 15 0)) ∧
        (s.clipFound (fieldAt b 16 4) m = true → ok = true → does (.clipRead ok) s fun t =>
          t.recorder.done = s.recorder.done ∧ t.regs = s.regs ∧ t.out = s.out ∧ s.issues t (m.map fun k => (k, .read))))) ∧
    (byteAt b 16 < 32 →
      let k := byteAt b 16
      let x := s.recStream k
      let src := s.sourceOk (byteAt b 17) (fieldAt b 18 2) (byteAt b 20)
      let same := x.srcKind = byteAt b 17 ∧ x.source = fieldAt b 18 2 ∧ x.slot = byteAt b 20 ∧ x.preroll = fieldAt b 22 2
      let set := maskDrives (byteAt b 21)
      (s.fetchedFirst 0x10 e →
        (byteAt b 1 = 1 → (s.recState k ≠ 0 ∨ x.resetting = true) → exec .recordStart s = .next (s.completes e 10 0)) ∧
        (byteAt b 1 = 1 → s.recState k = 0 → x.resetting = false → src = false →
          exec .recordStart s = .next (s.completes e 11 0)) ∧
        (byteAt b 1 = 1 → s.recState k = 0 → x.resetting = false → src = true → does .recordStart s fun t =>
          t.recState k = 1 ∧ t.getF (F.REC_STREAM_STATUS_OWNER k) = e.sq % 64 ∧
          t.getF (F.REC_STREAM_STATUS_CLASS k) = s.getF (F.REC_SQ_CTL_CLASS e.sq) ∧
          t.recorder.done = (s.completes e 0 0).recorder.done ∧ (t.recStream k).ring = [] ∧
          (t.recStream k).source = fieldAt b 18 2 ∧ (t.recStream k).preroll = fieldAt b 22 2 ∧
          t.recorder.nvme = s.recorder.nvme) ∧
        (∀ c, byteAt b 1 ≠ 1 → s.drivesCode set = some c → exec .recordStart s = .next (s.completes e c 0)) ∧
        (∀ a r m, byteAt b 1 ≠ 1 → set = a :: r → s.drivesCode set = none → s.setOf a = some m → m.length = set.length →
          (∀ i ∈ set, i ∈ m) →
          (s.interlocked set = true → exec .recordStart s = .next (s.completes e 6 0)) ∧
          (s.interlocked set = false → (2 ≤ s.recState k ∨ x.resetting = true) →
            exec .recordStart s = .next (s.completes e 10 0)) ∧
          (s.interlocked set = false → s.recState k ≤ 1 → x.resetting = false →
            ((src = false ∨ (s.recState k = 1 ∧ ¬ same)) → exec .recordStart s = .next (s.completes e 11 0)) ∧
            (src = true → (s.recState k = 1 → same) →
              (s.freeClip m = none → does .recordStart s fun t =>
                t.recorder.done = (s.completes e 7 0).recorder.done ∧ t.bit (F.REC_STREAM_ERR_MEDIA_FULL k) = true ∧
                s.onlyWords { t with recorder := s.recorder } [R.REC_STREAM_ERR k]) ∧
              (∀ c, s.freeClip m = some c → s.interlocked m = false → does .recordStart s fun t =>
                t.recState k = 2 ∧ t.getF (F.REC_STREAM_CLIP_CLIP k) = c % 2 ^ 32 ∧
                t.getF (F.REC_STREAM_STATUS_DRIVES k) = byteAt b 21 % 16 ∧ t.recorder.done = s.recorder.done ∧
                (t.recStream k).members = m ∧ (t.recStream k).reach = fieldAt b 32 8 ∧
                (t.recStream k).start = (if fieldAt b 24 8 = 0 then none else some (fieldAt b 24 8)) ∧
                ∃ l, s.issues t l ∧ l.map (·.1) = m ∧
                  ∀ y ∈ l, ∃ w, y.2 = .write (4096 * (c + 1)) w ∧ w.length = 4096 ∧ byteAt w 8 = 1))))) ∧
      (s.fetchedFirst 0x11 e →
        (s.recState k ≠ 2 → exec .recordStop s = .next (s.completes e 10 0)) ∧
        (s.recState k = 2 → x.lost = false → x.resetting = false → s.interlocked x.members = false →
          s.recWriting k = true → does .recordStop s fun t =>
            t.recState k = 3 ∧ (t.recStream k).stopEntry = some e ∧ t.recorder.done = s.recorder.done ∧
            (t.recStream k).stop = some (if fieldAt b 24 8 = 0 then s.longStamp else fieldAt b 24 8) ∧
            (t.recStream k).disarm = decide (byteAt b 1 = 1) ∧
            ∀ i ∈ (t.recStream k).ring, i ∈ x.ring ∧
              (i.issued = none → stampLater 64 (if fieldAt b 24 8 = 0 then s.longStamp else fieldAt b 24 8) i.stamp = true)) ∧
        (s.recState k = 2 → x.lost = true → x.resetting = false → x.checking = false → s.recWriting k = false →
          s.recStarting k = false → does .recordStop s fun t => t.recorder.done = (s.completes e 3 0).recorder.done ∧
            t.recState k = if byteAt b 1 = 1 then 0 else 1)) ∧
      (s.fetchedFirst 0x12 e →
        let w := if fieldAt b 24 8 = 0 then s.longStamp else fieldAt b 24 8
        (s.recState k < 2 → exec .clipMark s = .next (s.completes e 10 0)) ∧
        (2 ≤ s.recState k → x.records ≠ 0 → (stampLater 64 x.firstStamp w = true ∨
            ∃ z, x.stop = some z ∧ stampLater 64 z w = false) → exec .clipMark s = .next (s.completes e 2 0)) ∧
        (2 ≤ s.recState k → x.records ≠ 0 → stampLater 64 x.firstStamp w = false →
          (∀ z, x.stop = some z → stampLater 64 z w = true) →
          (120 ≤ x.marks.length → exec .clipMark s = .next (s.completes e 16 0)) ∧
          (x.marks.length < 120 → does .clipMark s fun t =>
            t.recorder.done = (s.completes e 0 x.marks.length).recorder.done ∧ t.recState k = s.recState k ∧
            (t.recStream k).marks = x.marks ++ [⟨w, byteAt b 17, (b.drop 32).take 16⟩] ∧
            (t.recStream k).ring = x.ring ∧ t.recorder.nvme = s.recorder.nvme))))

open Sys2Proof Sys2Proof.Machine in
/-- A stream takes the item at the head of its trug into its pre-roll ring, overwriting the oldest while ARMED,
keeping the take while RECORDING and refusing under PREROLL_HOLD with its count. The next record goes to the last
unit of the clip. A write that completes is on the media, one that fails or does not complete within its time
counts, and a timeout loses the drive. A poll of the temperature outside its window sets INTERLOCK and one well
within it clears it. A stop that the interlock holds completes with MEDIA_TEMP. A retrained port reports what it
trained to, and a drive that attaches or is lost shows it in its status. The model's choices in it: log 90, 91, 92.
-/
def Obligations.RecordingStreams : Prop :=
  ∀ (s : State) (k : Nat), k < 32 →
    let x := s.recStream k
    (s.up 9 = false → ∀ d i ok t info, exec (.recItemTake k [] []) s = .next s ∧ exec (.recMediaWrite k) s = .next s ∧
      exec (.nvmeCompletion i ok) s = .next s ∧ exec (.nvmeTimeout i) s = .next s ∧ exec (.recCheckpoint k) s = .next s ∧
      exec (.recTempPoll d t) s = .next s ∧ exec (.recStopWaitExpire k) s = .next s ∧ exec (.driveLost d) s = .next s ∧
      exec (.driveAttached d info) s = .next s) ∧
    (s.up 9 = true →
      ((s.recState k = 0 ∨ x.resetting = true) → exec (.recItemTake k [] []) s = .next s) ∧
      (x.srcKind = 1 → headItem (s.trug x.source).ring = none → exec (.recItemTake k [] []) s = .next s) ∧
      (∀ ws rest p, x.srcKind = 1 → x.source < 512 → x.resetting = false →
        headItem (s.trug x.source).ring = some (ws, rest) → s.plot? x.preroll = some p →
        (∀ w ∈ ws, w.tag.getLsbD 6 = false) →
        let i := s.itemOf ((s.trugProducer x.source).1 == 6) (ws.flatMap TrugWord.valid) (ws.any (·.tag.getLsbD 7)) false
        let j := i.fit (s.unitOf x)
        (s.recState k = 1 → i.size ≤ p.size → does (.recItemTake k [] []) s fun t =>
          (t.trug x.source).ring = rest ∧ (t.recStream k).ring = dropOldest p.size i.size x.ring ++ [i] ∧
          t.recState k = 1 ∧ t.recorder.done = s.recorder.done) ∧
        (∀ t0, s.recState k = 2 → x.ended = false → x.stop = none → x.start = some t0 → x.reach < 2 ^ 64 →
          stampLater 64 ((t0 + 2 ^ 64 - x.reach) % 2 ^ 64) i.stamp = false → j.cause = 0 →
          (ringBytes x.ring + j.size ≤ p.size → does (.recItemTake k [] []) s fun t =>
            (t.trug x.source).ring = rest ∧ (t.recStream k).ring = x.ring ++ [j] ∧ (t.recStream k).mode = 0) ∧
          (p.size < ringBytes x.ring + j.size → x.mode = 9 → does (.recItemTake k [] []) s fun t =>
            (t.trug x.source).ring = rest ∧ (t.recStream k).ring = (holdGap j 1 x.ring).1 ∧
            t.bit (F.REC_STREAM_ERR_PREROLL_LOSS k) = true ∧
            t.getF (F.REC_STREAM_CNT_COUNT k 2) = min (s.getF (F.REC_STREAM_CNT_COUNT k 2) + 1) (2 ^ 32 - 1)))) ∧
      (s.canWrite k = false → exec (.recMediaWrite k) s = .next s) ∧
      (∀ i v y, s.canWrite k = true → (s.getF (F.REC_STREAM_STATUS_CLASS k) = 0 ∨
          ∀ m, m < 32 → s.getF (F.REC_STREAM_STATUS_CLASS m) = 0 → s.canWrite m = false) → firstItem x.ring = some i →
        x.units.getLast? = some v → v.used + i.size ≤ s.unitOf x → s.layoutOf v.drive = some y →
        does (.recMediaWrite k) s fun t => (t.recStream k).ring = markIssued i x.records x.ring ∧
          (t.recStream k).units = x.units ∧ t.recorder.nvme = s.recorder.nvme ++ [⟨s.recorder.nextId, v.drive,
            .write (y.unitAddr v.unit + v.used) (i.record x.records), 0, k, x.records⟩]) ∧
      (∀ n ok, (∀ c ∈ s.recorder.nvme, c.id ≠ n) → exec (.nvmeCompletion n ok) s = .next s ∧ exec (.nvmeTimeout n) s = .next s) ∧
      (∀ n c, s.recorder.nvme.find? (fun c => c.id == n) = some c → c.drive < 4 →
        (does (.nvmeCompletion n true) s fun t => t.recDrive c.drive = (s.recDrive c.drive).apply c.kind ∧
          t.getF (F.REC_DRIVE_CNT_COUNT c.drive 3) = min (((s.recDrive c.drive).apply c.kind).written / 2 ^ 30) (2 ^ 32 - 1) ∧
          (∀ i, c.job = 0 → c.stream = k → x.ring.find? (fun i => i.issued == some c.record) = some i →
            t.getF (F.REC_STREAM_CNT_COUNT k 0) = min (s.getF (F.REC_STREAM_CNT_COUNT k 0) + 1) (2 ^ 32 - 1)) ∧
          (∀ j e r, c.job ≠ 0 → s.recorder.jobs.find? (·.id == c.job) = some j → j.waiting = 1 → j.error = none →
            j.phases = [] → j.after = .complete r → j.entry = some e → e.sq < 64 →
            (⟨s.getF (F.REC_SQ_CTL_CQ e.sq), e.sq, e.head, fieldAt e.bytes 2 2, 0, false, r⟩ : RecDone) ∈ t.recorder.done)) ∧
        (does (.nvmeCompletion n false) s fun t => t.recDrive c.drive = s.recDrive c.drive ∧
          t.getF (F.REC_DRIVE_CNT_COUNT c.drive 0) = min (s.getF (F.REC_DRIVE_CNT_COUNT c.drive 0) + 1) (2 ^ 32 - 1) ∧
          (∀ j e r, c.job ≠ 0 → s.recorder.jobs.find? (·.id == c.job) = some j → j.waiting = 1 → j.error = none →
            j.after = .complete r → j.entry = some e → e.sq < 64 →
            (⟨s.getF (F.REC_SQ_CTL_CQ e.sq), e.sq, e.head, fieldAt e.bytes 2 2, 12, false, 0⟩ : RecDone) ∈ t.recorder.done)) ∧
        (does (.nvmeTimeout n) s fun t => t.bit (F.REC_DRIVE_STATUS_FAILED c.drive) = true ∧
          t.bit (F.REC_DRIVE_STATUS_PRESENT c.drive) = false ∧
          t.getF (F.REC_DRIVE_CNT_COUNT c.drive 1) = min (s.getF (F.REC_DRIVE_CNT_COUNT c.drive 1) + 1) (2 ^ 32 - 1))) ∧
      ((s.getF F.REC_CTL_CHECKPOINT_MS = 0 ∨ s.recState k < 2 ∨ x.checking = true ∨ x.lost = true ∨ x.resetting = true ∨
        s.recStarting k = true ∨ s.interlocked x.members = true) → exec (.recCheckpoint k) s = .next s) ∧
      (s.getF F.REC_CTL_CHECKPOINT_MS ≠ 0 → 2 ≤ s.recState k → x.checking = false → x.lost = false → x.resetting = false →
        s.recStarting k = false → s.interlocked x.members = false → x.members ≠ [] → does (.recCheckpoint k) s fun t =>
          (t.recStream k).checking = true ∧ s.issues t (x.members.map fun d => (d, .flush)) ∧
          t.recorder.done = s.recorder.done) ∧
      ((x.stopEntry = none ∨ s.recState k ≠ 3 ∨ s.interlocked x.members = false) →
        exec (.recStopWaitExpire k) s = .next s) ∧
      (∀ e, x.stopEntry = some e → e.sq < 64 → s.recState k = 3 → s.interlocked x.members = true →
        does (.recStopWaitExpire k) s fun t => (t.recStream k).stopEntry = none ∧ (t.recStream k).stopLate = true ∧
          t.recState k = 3 ∧ t.recorder.done = (s.completes e 6 0).recorder.done) ∧
      (∀ d temp, d < 4 →
        let low := s.getS (F.REC_DRIVE_TEMP_WIN_LO d)
        let high := s.getS (F.REC_DRIVE_TEMP_WIN_HI d)
        let held := s.bit (F.REC_DRIVE_STATUS_INTERLOCK d)
        (s.bit (F.REC_DRIVE_STATUS_PRESENT d) = false → exec (.recTempPoll d temp) s = .next s) ∧
        (s.bit (F.REC_DRIVE_STATUS_PRESENT d) = true →
          (does (.recTempPoll d temp) s fun t => t.getF (F.REC_DRIVE_STATUS_TEMP d) = patternOf 8 temp) ∧
          ((temp < low ∨ high < temp) → held = false → does (.recTempPoll d temp) s fun t =>
            t.bit (F.REC_DRIVE_STATUS_INTERLOCK d) = true ∧ t.recorder.nvme = s.recorder.nvme ∧
            t.getF (F.REC_DRIVE_CNT_COUNT d 2) = min (s.getF (F.REC_DRIVE_CNT_COUNT d 2) + 1) (2 ^ 32 - 1)) ∧
          (low + 2 ≤ temp → temp ≤ high - 2 → held = true → does (.recTempPoll d temp) s fun t =>
            t.bit (F.REC_DRIVE_STATUS_INTERLOCK d) = false) ∧
          ((low ≤ temp ∧ temp ≤ high ∧ held = false) ∨ ((temp < low + 2 ∨ high - 2 < temp) ∧ held = true) →
            does (.recTempPoll d temp) s fun t => t.bit (F.REC_DRIVE_STATUS_INTERLOCK d) = held ∧
              s.onlyWords t [R.REC_DRIVE_STATUS d]))) ∧
      (∀ d, (4 ≤ d ∨ s.bit (F.REC_DRIVE_STATUS_PRESENT d) = false) → exec (.driveLost d) s = .next s) ∧
      (∀ d, d < 4 → s.bit (F.REC_DRIVE_STATUS_PRESENT d) = true → does (.driveLost d) s fun t =>
        t.bit (F.REC_DRIVE_STATUS_FAILED d) = true ∧ t.bit (F.REC_DRIVE_STATUS_PRESENT d) = false ∧
        t.bit (F.REC_DRIVE_STATUS_LAYOUT d) = false) ∧
      (∀ d info, s.portServes d = false → exec (.driveAttached d info) s = .next s) ∧
      (∀ d info, s.portServes d = true → does (.driveAttached d info) s fun t =>
        t.bit (F.REC_DRIVE_STATUS_PRESENT d) = true ∧ t.bit (F.REC_DRIVE_STATUS_FAILED d) = false ∧
        t.bit (F.REC_DRIVE_STATUS_UNSUPPORTED d) = !info.supported ∧ t.bit (F.REC_DRIVE_STATUS_INTERLOCK d) = false ∧
        (t.recDrive d).model = info.model ∧ (t.recDrive d).blocks = info.blocks ∧
        t.getF F.REC_EVENT_EVENT = 1 + 256 * d + 65536 * s.shortStamp ∧
        (∀ i, i ≠ d → t.recDrive i = s.recDrive i) ∧ t.recorder.streams = s.recorder.streams)) ∧
    (s.reaches 9 = true → ∀ r wa sa wb sb,
      (2 ≤ r → exec (.recPortLinkReset r wa sa wb sb) s = .next s) ∧
      (r < 2 → s.bit (F.REC_PORT_CTL_EN r) = true → wa ≠ 0 → s.bit (F.REC_PORT_CTL_SPLIT r) = true → wb ≠ 0 →
        does (.recPortLinkReset r wa sa wb sb) s fun t => t.getF (F.REC_PORT_STATUS_WIDTH_A r) = wa % 16 ∧
          t.getF (F.REC_PORT_STATUS_SPEED_A r) = sa % 8 ∧ t.getF (F.REC_PORT_STATUS_WIDTH_B r) = wb % 16 ∧
          t.getF (F.REC_PORT_STATUS_SPEED_B r) = sb % 8 ∧ t.recorder.split.at false r = true ∧
          t.recorder.off.at false r = false ∧ t.out = s.out ++ [.drivePerst r true, .drivePerst r false] ∧
          t.recorder.drives = s.recorder.drives) ∧
      (r < 2 → (s.bit (F.REC_PORT_CTL_EN r) = false ∨ wa = 0) → s.bit (F.REC_DRIVE_STATUS_PRESENT (2 * r)) = true →
        does (.recPortLinkReset r wa sa wb sb) s fun t => t.bit (F.REC_DRIVE_STATUS_PRESENT (2 * r)) = false ∧
          t.bit (F.REC_DRIVE_STATUS_FAILED (2 * r)) = true))

open Sys2Proof Sys2Proof.Machine in
/-- A block that fails its CRC or is of an unknown link type is discarded and counted; one of another type is not
the command's. A routed message that has come round is discarded, and one for another device leaves unchanged by the
other port, or counts in NO_ROUTE. HELLO reports the peer and takes the gap with its cap. A token is acknowledged,
gives a pending address and is passed on, or ends a chain or a ring; ENUM_END and ENUM_DONE end the enumeration with
COUNT and the address adopted; the head starts one anew by its timer, by command or by JOIN. The model's choices in
it: log 97, 99. -/
def Obligations.HedgerowMessages : Prop :=
  ∀ (s : State) (n p turn : Nat) (b : List Byte),
    (s.hedgeRx n = none → ∀ k c, (linkMessage n turn b k c ∨ routedMessage n b k c ∨ c = .unknownMessageRx n b) →
      exec c s = .next s) ∧
    (s.hedgeRx n = some p →
      (blockOk 0x4B b = false → ∀ k c, (linkMessage n turn b k c ∨ routedMessage n b k c ∨ c = .unknownMessageRx n b) →
        does c s fun t => t.bit F.HRW_ERR_MSG_BAD = true ∧ s.onlyWords t [R.HRW_ERR, R.HRW_PORT_CNT p 6] ∧
          t.getF (F.HRW_PORT_CNT_COUNT p 6) = min (s.getF (F.HRW_PORT_CNT_COUNT p 6) + 1) (2 ^ 32 - 1)) ∧
      (blockOk 0x4B b = true →
        (∀ k c, (linkMessage n turn b k c ∨ routedMessage n b k c) → byteAt b 1 ≠ k → exec c s = .next s) ∧
        (msgFlag b 0 = true → (byteAt b 1 < 1 ∨ 5 < byteAt b 1) → hears (.unknownMessageRx n b) s n fun u =>
          u.bit F.HRW_ERR_MSG_BAD = true ∧ s.onlyWords u [R.HRW_ERR, R.HRW_PORT_CNT p 6]) ∧
        (msgFlag b 0 = false → (s.ownAddr ≠ some (msgSrc b) ∨ msgFlag b 2 = true) → msgFlag b 1 = false →
          s.ownAddr ≠ some (msgDest b) →
          ∀ c, ((c = Instr.unknownMessageRx n b ∧ (byteAt b 1 < 0x10 ∨ 0x15 < byteAt b 1)) ∨
            (routedMessage n b (byteAt b 1) c ∧ byteAt b 1 ≠ 0x11 ∧
              (byteAt b 1 = 0x15 → ∀ q, q < 2 → s.across q (msgDest b) = false))) →
          (∀ r, s.sendsOn (1 - p) r → hears c s n fun u => u = s.emit (.control r 0x4B (b.drop 1))) ∧
          (s.hedgeActive (1 - p) = [] → hears c s n fun u =>
            u.bit F.HRW_ERR_NO_ROUTE = true ∧ u.out = s.out ∧ ∀ o, o ≠ R.HRW_ERR → u.rd o = s.rd o)) ∧
        (msgFlag b 0 = false → s.ownAddr = some (msgSrc b) → msgFlag b 2 = false → ∀ c, routedMessage n b (byteAt b 1) c →
          byteAt b 1 ≠ 0x15 → hears c s n fun u => u = s) ∧
        (byteAt b 1 = 1 → msgFlag b 0 = true →
          let a := fieldAt b 3 2
          let g := s.gapTo p (a % 4096) (a.testBit 15) ((byteAt b 5).testBit 0)
          hears (.hello n b) s n fun u =>
            u.getF (F.HRW_PORT_PEER_ADDR p) = a % 4096 ∧ u.bit (F.HRW_PORT_PEER_VALID p) = a.testBit 15 ∧
            u.bit (F.HRW_PORT_PEER_HEAD p) = (byteAt b 5).testBit 0 ∧ (u.hedgePort p).helloSeen = true ∧
            u.getF (F.HRW_PORT_STATUS_GAP p) = min g 15 ∧ u.bit (F.HRW_PORT_STATUS_BROKEN p) = decide (5 ≤ g) ∧
            (5 ≤ g → u.bit F.HRW_ERR_BROKEN = true ∧ (u.hedgePort p).brokenOff = true) ∧
            (g < 5 → u.getF (F.HRW_PORT_STATUS_CAP p) = [7, 2, 1, 0, 0].getD g 0)) ∧
        (byteAt b 1 = 2 → msgFlag b 0 = true →
          let a := fieldAt b 3 2
          let e := fieldAt b 5 2
          ((p ≠ 0 ∨ s.stale e = true) → hears (.enumToken n b) s n fun u => u = s) ∧
          (∀ r, p = 0 → s.stale e = false → s.sendsOn 0 r →
            (s.isHead = true → e ≠ s.hedge.epoch → hears (.enumToken n b) s n fun u => u = s) ∧
            (s.isHead = true → e = s.hedge.epoch → s.hedge.pend.isSome = true → s.hedge.again = false →
              hears (.enumToken n b) s n fun u => u.getF F.HRW_STATUS_COUNT = (a + 1) % 8192 ∧
                u.bit F.HRW_STATUS_RING = true ∧ u.getF F.HRW_STATUS_ENUM_STATE = 3 ∧ u.bit F.HRW_ADDR_VALID = true ∧
                u.getF F.HRW_ADDR_ADDR = 0 ∧ u.hedge.pend = none ∧ u.hedge.ring = true) ∧
            (s.isHead = false → 4095 ≤ a → hears (.enumToken n b) s n fun u =>
              u.bit F.HRW_ERR_OVERFLOW = true ∧ u.hedge = s.hedge) ∧
            (s.isHead = false → a < 4095 → s.hedge.pend = some (a + 1, e) → hears (.enumToken n b) s n fun u =>
              u = s.emit (messageOut r 3 1 (leBytes 2 (a + 1) ++ leBytes 2 e))) ∧
            (∀ q, s.isHead = false → a < 4095 → s.hedge.pend ≠ some (a + 1, e) →
              (s.hedge.epoch ≠ e ∨ s.ownAddr ≠ some (a + 1)) → s.sendsOn 1 q → hears (.enumToken n b) s n fun u =>
                u.hedge.pend = some (a + 1, e) ∧ u.hedge.tokenOut = true ∧ u.getF F.HRW_STATUS_ENUM_STATE = 2 ∧
                s.onlyWords { u with out := s.out, hedge := s.hedge } [R.HRW_STATUS] ∧
                u.out = s.out ++ [messageOut r 3 1 (leBytes 2 (a + 1) ++ leBytes 2 e),
                  messageOut q 2 1 (leBytes 2 (a + 1) ++ leBytes 2 e)]) ∧
            (s.isHead = false → a < 4095 → s.hedge.pend ≠ some (a + 1, e) →
              (s.hedge.epoch ≠ e ∨ s.ownAddr ≠ some (a + 1)) → s.hedgeActive 1 = [] → s.hedgeTraining 1 = false →
              hears (.enumToken n b) s n fun u => u.hedge.pend = some (a + 1, e) ∧ u.hedge.tokenOut = false ∧
                u.out = s.out ++ [messageOut r 3 1 (leBytes 2 (a + 1) ++ leBytes 2 e),
                  messageOut r 0x10 (4 * b2n s.ownAddr.isNone + 8)
                    (leBytes 3 (s.ownAddr.getD 0 * 4096) ++ (leBytes 2 (a + 2) ++ leBytes 2 e))]))) ∧
        (byteAt b 1 = 3 → msgFlag b 0 = true →
          ((p = 1 ∧ s.hedge.pend.map (·.2) = some (fieldAt b 5 2)) → hears (.enumAck n b) s n fun u =>
            u = { s with hedge := { s.hedge with tokenOut := false } }) ∧
          ((p ≠ 1 ∨ s.hedge.pend.map (·.2) ≠ some (fieldAt b 5 2)) → hears (.enumAck n b) s n fun u => u = s)) ∧
        (byteAt b 1 = 0x10 → msgFlag b 0 = false → msgFlag b 1 = false → (msgSrc b ≠ 0 ∨ msgFlag b 2 = true) →
          msgDest b = 0 → s.isHead = true →
          (s.hedge.pend.map (·.2) ≠ some (fieldAt b 8 2) → hears (.enumEnd n b) s n fun u => u = s) ∧
          (s.hedge.pend.map (·.2) = some (fieldAt b 8 2) → s.hedge.again = false → hears (.enumEnd n b) s n fun u =>
            u.getF F.HRW_STATUS_COUNT = fieldAt b 6 2 % 8192 ∧ u.bit F.HRW_STATUS_RING = false ∧
            u.getF F.HRW_ADDR_ADDR = 0 ∧ u.bit F.HRW_ADDR_VALID = true ∧ u.getF F.HRW_ADDR_EPOCH = s.hedge.epoch % 65536 ∧
            u.bit F.HRW_CTL_ENUM = false ∧ u.hedge.pend = none)) ∧
        (byteAt b 1 = 0x11 → msgFlag b 0 = false →
          let e := fieldAt b 8 2
          (s.stale e = true → hears (.enumDone n b) s n fun u => u = s) ∧
          (∀ a, s.stale e = false → s.isHead = false → s.hedge.pend = some (a, e) → msgFlag b 1 = true →
            (s.ownAddr ≠ some (msgSrc b) ∨ msgFlag b 2 = true) → hears (.enumDone n b) s n fun u =>
              u.getF F.HRW_ADDR_ADDR = a % 4096 ∧ u.bit F.HRW_ADDR_VALID = true ∧ u.getF F.HRW_ADDR_EPOCH = e ∧
              u.getF F.HRW_STATUS_COUNT = fieldAt b 6 2 % 8192 ∧ u.bit F.HRW_STATUS_RING = (byteAt b 10).testBit 0 ∧
              u.hedge.epoch = e ∧ u.hedge.pend = none ∧
              (s.bit F.HRW_ADDR_VALID = true → s.getF F.HRW_ADDR_ADDR ≠ a → u.bit F.HRW_ERR_ADDR_CHANGED = true))) ∧
        (byteAt b 1 = 0x12 → msgFlag b 0 = false → msgFlag b 1 = false → (msgSrc b ≠ 0 ∨ msgFlag b 2 = true) →
          msgDest b = 0 → s.isHead = true →
          (s.bit F.HRW_CTL_AUTO_ENUM = false → hears (.join n b) s n fun u => u.bit F.HRW_ERR_JOIN_PENDING = true ∧
            u.hedge = s.hedge ∧ u.out = s.out) ∧
          (s.bit F.HRW_CTL_AUTO_ENUM = true → s.hedge.pend.isSome = true → hears (.join n b) s n fun u =>
            u = { s with hedge := { s.hedge with again := true } }) ∧
          (s.bit F.HRW_CTL_AUTO_ENUM = true → s.hedge.pend = none → hears (.join n b) s n fun u =>
            u.hedge.epoch = (s.hedge.epoch + 1) % 65536)))) ∧
    ((s.up 10 = false ∨ s.hedge.tokenOut = false) → exec .enumTokenRepeat s = .next s ∧ exec .enumAckTimeout s = .next s) ∧
    (∀ q a e, s.up 10 = true → s.hedge.tokenOut = true → s.hedge.pend = some (a, e) → s.sendsOn 1 q →
      does .enumTokenRepeat s fun t => t.getF F.HRW_STATUS_ENUM_STATE = 2 ∧ t.hedge.tokenOut = true ∧
        t.out = s.out ++ [messageOut q 2 1 (leBytes 2 a ++ leBytes 2 e)] ∧
        s.onlyWords { t with out := s.out, hedge := s.hedge } [R.HRW_STATUS]) ∧
    (∀ a e, s.up 10 = true → s.hedge.tokenOut = true → s.hedge.pend = some (a, e) →
      (∀ r, s.isHead = false → s.sendsOn 0 r → does .enumAckTimeout s fun t => t.hedge.tokenOut = false ∧
        t.hedge.pend = some (a, e) ∧ t.out = s.out ++ [messageOut r 0x10 (4 * b2n s.ownAddr.isNone + 8)
          (leBytes 3 (s.ownAddr.getD 0 * 4096) ++ (leBytes 2 (a + 1) ++ leBytes 2 e))]) ∧
      (s.isHead = true → s.hedge.again = false → does .enumAckTimeout s fun t => t.getF F.HRW_STATUS_COUNT = 1 ∧
        t.bit F.HRW_STATUS_RING = false ∧ t.getF F.HRW_ADDR_ADDR = 0 ∧ t.hedge.pend = none)) ∧
    ((s.up 10 = false ∨ s.isHead = false) → exec .enumStartTimer s = .next s) ∧
    (s.reaches 10 = false → exec .hrwEnumCmd s = .next s.inReset) ∧
    (s.reaches 10 = true → s.isHead = false → exec .hrwEnumCmd s = .next s) ∧
    (s.reaches 10 = true → s.isHead = true → s.hedge.pend.isSome = true → does .hrwEnumCmd s fun t =>
      t.bit F.HRW_CTL_ENUM = true ∧ t.hedge = { s.hedge with again := true } ∧ t.out = s.out) ∧
    (∀ c q, ((c = Instr.enumStartTimer ∧ s.up 10 = true) ∨ (c = .hrwEnumCmd ∧ s.reaches 10 = true ∧ s.hedge.pend = none)) →
      s.isHead = true → s.sendsOn 1 q → ∀ e, e = (s.hedge.epoch + 1) % 65536 → does c s fun t =>
        t.hedge.epoch = e ∧ t.hedge.pend = some (0, e) ∧ t.hedge.tokenOut = true ∧ t.getF F.HRW_STATUS_ENUM_STATE = 2 ∧
        t.out = s.out ++ [messageOut q 2 1 (leBytes 2 0 ++ leBytes 2 e)])

open Sys2Proof Sys2Proof.Machine in
/-- A word without a valid header counts once for its run; an item received is counted, then delivered to its
route's trug, held for the other port with HOPS one higher, or dropped with its flag. A forwarded item goes first,
and an item of the device's own takes the next SEQ. HELLO is sent on the timer. A time request is answered with its
stamps, and a response within 100 µs gives the delay. The head counts graft replies; a commit waits for AT or acts
at once. A wake for a device behind a port sends the pattern by it. A broken port and one that stops waving retrain,
and a port whose link is lost has no ACTIVE Runner and LINK_LOST. Routes and sends are taken only as R415 admits.
The model's choices in it: log 94, 95, 96, 98. -/
def Obligations.HedgerowItems : Prop :=
  ∀ (s : State) (n p : Nat) (b : List Byte),
    (s.hedgeRx n = none → ∀ ws, exec (.hrwItemRx n ws) s = .next s) ∧
    (∀ w ws, s.hedgeRx n = some p → headerOk w = false → ws = [] → s.hedge.badRun.at false n = false →
      does (.hrwItemRx n (w :: ws)) s fun t => t.bit F.HRW_ERR_HDR_BAD = true ∧ t.hedge.badRun.at false n = true ∧
        t.getF (F.HRW_PORT_CNT_COUNT p 4) = min (s.getF (F.HRW_PORT_CNT_COUNT p 4) + 1) (2 ^ 32 - 1) ∧ t.out = s.out) ∧
    (∀ w ws, s.hedgeRx n = some p → headerOk w = true → itemKind w.data ≠ 0 → ws.length = wordsFor (itemLen w.data) →
      let h := w.data
      let q := 1 - p
      let counted (t : State) : Prop := t.hedge.badRun.at false n = false ∧
        t.getF (F.HRW_PORT_CNT_COUNT p 0) = min (s.getF (F.HRW_PORT_CNT_COUNT p 0) + 1) (2 ^ 32 - 1)
      let held := ((s.hedgePort q).fwd.map fun x => itemLen x.header + 32).sum
      (s.ownAddr = some (itemSrc h) → does (.hrwItemRx n (w :: ws)) s fun t => counted t ∧ t.trugs = s.trugs ∧
        t.hedge.ports = s.hedge.ports ∧ s.onlyWords { t with hedge := s.hedge } [R.HRW_PORT_CNT p 0]) ∧
      (s.ownAddr ≠ some (itemSrc h) → itemBcast h = false → s.ownAddr ≠ some (itemDest h) →
        ((4094 ≤ itemHops h ∨ s.hedgeActive q = []) → does (.hrwItemRx n (w :: ws)) s fun t => counted t ∧
          t.bit F.HRW_ERR_NO_ROUTE = true ∧ t.hedge.ports = s.hedge.ports ∧ t.trugs = s.trugs) ∧
        (itemHops h < 4094 → s.hedgeActive q ≠ [] → s.getF (F.HRW_PORT_STATUS_VERSION q) < itemVer h →
          does (.hrwItemRx n (w :: ws)) s fun t => counted t ∧ t.bit F.HRW_ERR_VER_DROP = true ∧
            t.hedge.ports = s.hedge.ports) ∧
        (itemHops h < 4094 → s.hedgeActive q ≠ [] → itemVer h ≤ s.getF (F.HRW_PORT_STATUS_VERSION q) →
          4194304 - held < itemLen h + 32 → does (.hrwItemRx n (w :: ws)) s fun t => counted t ∧
            t.bit F.HRW_ERR_FWD_DROP = true ∧ t.hedge.ports = s.hedge.ports) ∧
        (itemHops h < 4094 → s.hedgeActive q ≠ [] → itemVer h ≤ s.getF (F.HRW_PORT_STATUS_VERSION q) →
          itemLen h + 32 ≤ 4194304 - held → does (.hrwItemRx n (w :: ws)) s fun t => counted t ∧
            (t.hedgePort q).fwd = (s.hedgePort q).fwd ++ [⟨hopped h, ws⟩] ∧ itemHops (hopped h) = itemHops h + 1 ∧
            t.trugs = s.trugs)) ∧
      (s.ownAddr ≠ some (itemSrc h) → itemBcast h = false → s.ownAddr = some (itemDest h) → itemKind h ∈ [1, 2, 3, 5] →
        (s.routeOf h = none → does (.hrwItemRx n (w :: ws)) s fun t => counted t ∧ t.bit F.HRW_ERR_NO_ROUTE = true ∧
          t.trugs = s.trugs ∧ t.hedge.ports = s.hedge.ports) ∧
        (∀ k x, s.routeOf h = some k → ws = [⟨x, false⟩] →
          let g := s.getF (F.HRW_ROUTE_TRUG k)
          s.trugDepth g ≠ 0 → (s.trug g).skip = false → (s.trug g).pack = [] → s.trugFull g = false →
          does (.hrwItemRx n (w :: ws)) s fun t => counted t ∧ (∀ m, m ≠ g → t.trug m = s.trug m) ∧
            (t.trug g).ring = (s.trug g).ring ++ [packedWord ((padTo 32 x).take (itemLen h)) true] ∧
            t.hedge.ports = s.hedge.ports))) ∧
    (((s.hedgePort p).fwd = [] ∨ s.up 10 = false ∨ s.hedgeActive p = []) → exec (.hrwForwardStart p) s = .next s) ∧
    (∀ x l r, p < 2 → (s.hedgePort p).fwd = x :: l → s.up 10 = true → s.itemRunner p (itemSrc x.header) (itemStream x.header) = some r →
      (s.runner r).l1Tx = false → does (.hrwForwardStart p) s fun t => (t.hedgePort p).fwd = l ∧
        t.out = s.out ++ [.nawenItem r x.header x.words] ∧
        t.getF (F.HRW_PORT_CNT_COUNT p 1) = min (s.getF (F.HRW_PORT_CNT_COUNT p 1) + 1) (2 ^ 32 - 1)) ∧
    (∀ k errs, (s.up 10 = false ∨ 64 ≤ k ∨ s.bit (F.HRW_SEND_EN k) = false) → exec (.hrwSendItem k errs) s = .next s) ∧
    (∀ k, k < 64 → s.up 10 = true → s.bit (F.HRW_SEND_EN k) = true → s.hedgeActive (s.getF (F.HRW_SEND_PORT k)) ≠ [] →
      let q := s.getF (F.HRW_SEND_PORT k)
      let g := s.getF (F.HRW_SEND_TRUG k)
      let st := s.getF (F.HRW_SEND_STREAM k)
      (((s.hedgePort q).fwd ≠ [] ∨ headItem (s.trug g).ring = none) → exec (.hrwSendItem k []) s = .next s) ∧
      (∀ ws rest r, (s.hedgePort q).fwd = [] → headItem (s.trug g).ring = some (ws, rest) →
        let len := (ws.map fun w => w.valid.length).sum
        ((4194272 < len ∨ len = 0) → does (.hrwSendItem k []) s fun t => (t.trug g).ring = rest ∧ t.out = s.out ∧
          t.bit F.HRW_ERR_FWD_DROP = true) ∧
        ((∀ w ∈ ws, w.tag.getLsbD 6 = false) → 0 < len → len ≤ 4194272 → s.itemRunner q (s.ownAddr.getD 0) st = some r →
          s.ownAddr.getD 0 < 4096 → (s.runner r).l1Tx = false → does (.hrwSendItem k []) s fun t => (t.trug g).ring = rest ∧
            t.hedge.seqs.at 0 st = (s.hedge.seqs.at 0 st + 1) % 2 ^ 32 ∧
            t.out = s.out ++ [.nawenItem r (itemHeader (s.getF (F.HRW_SEND_KIND k)) (s.bit (F.HRW_SEND_BCAST k)) (q == 0)
              (s.ownAddr.getD 0) (s.getF (F.HRW_SEND_DEST k)) st len (s.hedge.seqs.at 0 st))
              (ws.map fun w => ⟨padTo 32 w.valid, w.tag.getLsbD 7⟩)]))) ∧
    ((s.up 10 = false ∨ 2 ≤ p ∨ s.hedgeActive p = []) → exec (.helloTimer p) s = .next s) ∧
    (∀ r, p < 2 → s.up 10 = true → s.sendsOn p r → exec (.helloTimer p) s = .next (s.emit (messageOut r 1 1
      (leBytes 2 (s.getF F.HRW_ADDR_ADDR + 32768 * b2n (s.bit F.HRW_ADDR_VALID)) ++ leBytes 1 (b2n s.isHead + 2 * p) ++
        leBytes 2 (s.getF F.HRW_ADDR_EPOCH))))) ∧
    (s.hedgeRx n = some p → blockOk 0x4B b = true →
      (∀ r turn, byteAt b 1 = 4 → msgFlag b 0 = true → s.sendsOn p r → hears (.timeReq n b turn) s n fun u =>
        u = s.emit (messageOut r 5 1 ((b.drop 3).take 1 ++
          leBytes 8 (patternOf 64 (s.corrTicks - (s.rxLatency (if n < 12 then 2 + n else n - 6) : Int))) ++ leBytes 2 turn))) ∧
      (byteAt b 1 = 5 → msgFlag b 0 = true →
        ((p ≠ 0 ∨ s.hedge.timeReq = none) → hears (.timeResp n b) s n fun u => u = s) ∧
        (∀ q t1, p = 0 → s.hedge.timeReq = some (q, t1) →
          let t4 := s.corrTicks - (s.rxLatency (if n < 12 then 2 + n else n - 6) : Int)
          ((byteAt b 3 ≠ q ∨ 3200000 < t4 - t1) → hears (.timeResp n b) s n fun u => u = s) ∧
          (byteAt b 3 = q → t4 - t1 ≤ 3200000 → s.getF F.TIME_CTL_SOURCE ≠ 2 → hears (.timeResp n b) s n fun u =>
            let ds := ((t4 - t1 - fieldAt b 12 2) * 4 :: s.hedge.delays).take 16
            u.hedge = { s.hedge with timeReq := none, delays := ds } ∧
            u.getF F.HRW_TIME_DELAY_DELAY = patternOf 32 (ds.sum / ds.length) ∧
            s.onlyWords { u with hedge := s.hedge } [R.HRW_TIME_DELAY]))) ∧
      (byteAt b 1 = 0x13 → msgFlag b 0 = false → msgFlag b 1 = false → (msgSrc b ≠ 0 ∨ msgFlag b 2 = true) → msgDest b = 0 →
        s.isHead = true →
        (fieldAt b 6 2 ≠ s.getF F.HRW_GRAFT_STAT_TRANSFER_ID → hears (.graftStatus n b) s n fun u => u = s) ∧
        (fieldAt b 6 2 = s.getF F.HRW_GRAFT_STAT_TRANSFER_ID → hears (.graftStatus n b) s n fun u =>
          u.getF F.HRW_GRAFT_STAT_READY = min (s.getF F.HRW_GRAFT_STAT_READY + b2n (byteAt b 8 == 0)) 255 ∧
          u.getF F.HRW_GRAFT_STAT_REFUSED = min (s.getF F.HRW_GRAFT_STAT_REFUSED + b2n (byteAt b 8 != 0)) 255 ∧
          (∀ o, o ≠ R.HRW_GRAFT_STAT → u.rd o = s.rd o))) ∧
      (byteAt b 1 = 0x14 → msgFlag b 0 = false → msgFlag b 1 = false → (s.ownAddr ≠ some (msgSrc b) ∨ msgFlag b 2 = true) →
        s.ownAddr = some (msgDest b) →
        (s.hedge.staged.map (·.1) ≠ some (fieldAt b 6 2) → hears (.graftCommit n b) s n fun u => u = s) ∧
        (∀ img, s.hedge.staged = some (fieldAt b 6 2, img) →
          (stampLater 48 (fieldAt b 8 6) s.shortStamp = true → hears (.graftCommit n b) s n fun u =>
            u = { s with hedge := { s.hedge with commitAt := some (fieldAt b 8 6) } }) ∧
          (stampLater 48 (fieldAt b 8 6) s.shortStamp = false → hears (.graftCommit n b) s n fun u =>
            u.seed.image = img ∧ u.seed.running = false ∧ u.getF F.SEED_STATUS_SOURCE = 3))) ∧
      (byteAt b 1 = 0x15 → msgFlag b 0 = false → msgFlag b 1 = false →
        (∀ q, q < 2 → s.across q (msgDest b) = true → (q = 1 → s.across 0 (msgDest b) = false) →
          hears (.wake n b) s n fun u => (u.hedgePort q).waving = true ∧ Output.wakePattern q true ∈ u.out) ∧
        (s.across 0 (msgDest b) = false → s.across 1 (msgDest b) = false → s.ownAddr = some (msgDest b) →
          hears (.wake n b) s n fun u => u = s))) ∧
    ((s.up 10 = false ∨ s.hedgeActive 0 = [] ∨ s.getF F.HRW_TIME_RATE = 0 ∨ s.getF F.TIME_CTL_SOURCE ≠ 2 ∨ s.isHead = true) →
      exec .hrwTimeExchange s = .next s) ∧
    (∀ r, s.up 10 = true → s.sendsOn 0 r → s.getF F.HRW_TIME_RATE ≠ 0 → s.getF F.TIME_CTL_SOURCE = 2 → s.isHead = false →
      ∀ q, q = (s.hedge.timeSeq + 1) % 256 → does .hrwTimeExchange s fun t =>
        t.hedge = { s.hedge with timeSeq := q, timeReq := some (q, s.corrTicks + s.txLatency (if r < 12 then 2 + r else r - 6)) } ∧
        t.out = s.out ++ [messageOut r 4 1 (leBytes 1 q)] ∧ t.regs = s.regs) ∧
    ((s.hedge.commitAt = none ∨ s.up 10 = false ∨ ∃ a, s.hedge.commitAt = some a ∧ stampLater 48 a s.shortStamp = true) →
      exec .graftCommitAt s = .next s) ∧
    (∀ a i img, s.hedge.commitAt = some a → s.up 10 = true → stampLater 48 a s.shortStamp = false →
      s.hedge.staged = some (i, img) → does .graftCommitAt s fun t =>
        t.seed.image = img ∧ t.seed.running = false ∧ t.getF F.SEED_STATUS_SOURCE = 3) ∧
    (s.reaches 10 = false → ∀ d c k l u, exec (.hrwGraftSend d c k l u) s = .next s.inReset ∧
      exec (.hrwGraftCommitCmd d c k) s = .next s.inReset) ∧
    (s.reaches 10 = true → ∀ d c k img u,
      ((k ≠ 0x5EED ∨ s.isHead = false) → exec (.hrwGraftSend d c k img u) s = .next s ∧
        exec (.hrwGraftCommitCmd d c k) s = .next s) ∧
      ((s.getF F.SEED_HOST_LEN_LEN = 0 ∨ (byteAt img 14).testBit 0 = false) → exec (.hrwGraftSend d c k img u) s = .next s) ∧
      (s.isHead = true → s.getF F.SEED_HOST_LEN_LEN ≠ 0 → (byteAt img 14).testBit 0 = true →
        does (.hrwGraftSend d c 0x5EED img u) s fun t =>
          t.getF F.HRW_GRAFT_STAT_TRANSFER_ID = (s.getF F.HRW_GRAFT_STAT_TRANSFER_ID + 1) % 65536 ∧
          t.getF F.HRW_GRAFT_STAT_READY = 0 ∧ t.getF F.HRW_GRAFT_STAT_REFUSED = 0 ∧ t.freeCtr = s.freeCtr + 1) ∧
      (∀ r, s.isHead = true → s.sendsOn 1 r → exec (.hrwGraftCommitCmd d c 0x5EED) s = .next (s.emit (messageOut r 0x14
        (2 * b2n c) (leBytes 3 (d % 4096) ++ (leBytes 2 (s.getF F.HRW_GRAFT_STAT_TRANSFER_ID) ++
          leBytes 6 (s.getF F.HRW_GRAFT_AT_AT))))))) ∧
    (p < 2 →
      ((s.up 10 = false ∨ (s.hedgePort p).brokenOff = false) → exec (.hrwBrokenRetry p) s = .next s) ∧
      (s.up 10 = true → (s.hedgePort p).brokenOff = true → does (.hrwBrokenRetry p) s fun t =>
        (t.hedgePort p).brokenOff = false ∧ ∀ r ∈ s.hedgeRunners p, t.runState r = 1 ∧ t.runTier r = 0) ∧
      ((s.up 10 = false ∨ s.hedgeActive p = []) → exec (.hrwLinkLost p) s = .next s) ∧
      (s.up 10 = true → s.hedgeActive p ≠ [] → (s.hedgePort p).up = true → does (.hrwLinkLost p) s fun t =>
        t.bit F.HRW_ERR_LINK_LOST = true ∧ t.getF (F.HRW_PORT_STATUS_LINKS p) = 0 ∧ (t.hedgePort p).up = false ∧
        t.getF (F.HRW_PORT_CNT_COUNT p 7) = min (s.getF (F.HRW_PORT_CNT_COUNT p 7) + 1) (2 ^ 32 - 1)) ∧
      (s.alive = false → exec (.wakePatternDetect p) s = .next s) ∧
      (s.alive = true → s.twineRuns = false → s.wakeEnabled (2 + p) = false → exec (.wakePatternDetect p) s = .next s) ∧
      (s.alive = true → s.twineRuns = false → s.wakeEnabled (2 + p) = true → s.pwr = 1 → s.power.wakeWaits = 0 →
        exec (.wakePatternDetect p) s = .next { s with power := { s.power with wakeWaits := 2 + p } }) ∧
      (s.alive = true → s.wakeEnabled (2 + p) = true → s.pwr = 2 → does (.wakePatternDetect p) s fun t =>
        t.getF F.PWR_STATUS_LAST_WAKE = 2 + p ∧ t.pwr = 0 ∧ t.bit F.HRW_ERR_WOKEN = true) ∧
      ((s.hedgePort p).waving = false → exec (.wakePatternEnd p) s = .next s) ∧
      ((s.hedgePort p).waving = true → does (.wakePatternEnd p) s fun t => (t.hedgePort p).waving = false ∧
        t.out = s.out ++ [.wakePattern p false] ∧ (s.up 10 = true → ∀ r ∈ s.hedgeRunners p, t.runState r = 1))) ∧
    (2 ≤ p → exec (.hrwLinkLost p) s = .next s ∧ exec (.wakePatternDetect p) s = .next s) ∧
    (∀ k (v lo hi : Word),
      (64 ≤ k → exec (.hrwRouteWrite k v) s = .next s ∧ exec (.hrwSendWrite k lo hi) s = .next s) ∧
      (k < 64 → s.reaches 10 = false → exec (.hrwRouteWrite k v) s = .next s.inReset ∧
        exec (.hrwSendWrite k lo hi) s = .next s.inReset) ∧
      (k < 64 → s.reaches 10 = true →
        ((s.trugProducer (bitsOf v.toNat 21 9)).1 = 10 → does (.hrwRouteWrite k v) s fun t =>
          t.rd (R.HRW_ROUTE k) = v &&& 0x7fffffff#32 ∧ s.onlyWords t [R.HRW_ROUTE k]) ∧
        ((s.trugProducer (bitsOf v.toNat 21 9)).1 ≠ 10 → does (.hrwRouteWrite k v) s fun t =>
          t.bit F.HRW_ERR_SETUP_BAD = true ∧ s.onlyWords t [R.HRW_ERR]) ∧
        (∀ ok : Prop, ok = (s.trugConsumer (lo.toNat % 512) = (10, bitsOf lo.toNat 9 1) ∧ bitsOf lo.toNat 11 3 ∈ [1, 2, 3, 5]) →
          (ok → does (.hrwSendWrite k lo hi) s fun t => t.rd (R.HRW_SEND k) = lo &&& 0x00ff7fff#32 ∧
            t.rd (R.HRW_SEND k + 4) = hi &&& 0xfff#32 ∧ s.onlyWords t [R.HRW_SEND k, R.HRW_SEND k + 4]) ∧
          (¬ ok → does (.hrwSendWrite k lo hi) s fun t =>
            t.bit F.HRW_ERR_SETUP_BAD = true ∧ s.onlyWords t [R.HRW_ERR]))))

open Sys2Proof Sys2Proof.Machine in
/-- A command for an endpoint that does not work in its mode changes nothing. An input adds one frame, of zeros with
OVERRUN where there was no room and otherwise of its enabled slots, a slot in error as zero; 64 frames make a block,
stored in the ring slot its number gives and reported in BLOCK and STAMP. An output that has not begun drives zeros,
one held up or without its block drives zeros and counts an underrun, and one whose frame is good drives its slots
under the mask. At a block boundary it waits, moves forward or goes on. A receiver reports channel status and lock.
A mask waits until the edge that applies it. A sender whose frames are there sends one packet of them. The model's
choices in it: log 100, 101. -/
def Obligations.AudioEndpoints : Prop :=
  ∀ (s : State) (k : Nat), k < 12 →
    let x := s.aud k
    let c := s.audC k
    let mask := s.getF (F.AUD_EP_STATUS_APPLIED k)
    let src := s.getF (F.AUD_EP_CFG_SOURCE k)
    (s.audIs k 1 = false → ∀ slots bad room bytes pair, exec (.audFrameIn k slots bad room) s = .next s ∧
      exec (.audBlockComplete k) s = .next s ∧ exec (.aesCsBlock k bytes) s = .next s ∧ exec (.aesLockLost k) s = .next s ∧
      exec (.aesLockGained k) s = .next s ∧ exec (.audNonaudioEnd k pair) s = .next s) ∧
    (s.audIs k 2 = false → ∀ held errs, exec (.audFrameOut k held errs) s = .next s ∧
      exec (.audOutBlockBoundary k) s = .next s) ∧
    (s.audIs k 1 = true →
      (8 ≤ k → s.bit (F.AUD_EP_STATUS_LOCKED k) = false → ∀ slots bad room bytes,
        exec (.audFrameIn k slots bad room) s = .next s ∧ exec (.aesCsBlock k bytes) s = .next s ∧
        exec (.aesLockLost k) s = .next s) ∧
      ((k < 8 ∨ s.bit (F.AUD_EP_STATUS_LOCKED k) = true) → x.frames.length < 64 → ∀ slots bad,
        (does (.audFrameIn k slots bad false) s fun t => (t.aud k).frames = x.frames ++ [List.replicate c 0] ∧
          t.bit (F.AUD_EP_ERR_OVERRUN k) = true ∧ t.bit (F.AUD_EP_STATUS_RUNNING k) = true ∧
          t.getF (F.AUD_EP_CNT_COUNT k 1) = min (s.getF (F.AUD_EP_CNT_COUNT k 1) + 1) (2 ^ 32 - 1)) ∧
        (does (.audFrameIn k slots bad true) s fun t => ∃ l, (t.aud k).frames = x.frames ++ [l] ∧ l.length = c ∧
          (∀ j, j < c → (mask.testBit j = false ∨ j ∈ bad) → l.getD j 0 = 0) ∧
          (x.muted = [] → x.csMute = false → (∀ j, 2 * j < c → s.audSample k (slots.getD (2 * j) 0) / 65536 % 65536 ≠ 0xF872) →
            ∀ j, j < c → mask.testBit j = true → j ∉ bad → l.getD j 0 = s.audSample k (slots.getD j 0)) ∧
          t.bit (F.AUD_EP_STATUS_RUNNING k) = true ∧ (t.aud k).written = x.written ∧
          (t.aud k).stamp = (if x.frames = [] then s.longStamp else x.stamp) ∧ t.out = s.out ∧ t.hbm = s.hbm ∧
          (8 ≤ k → (∃ j ∈ bad, j < c) → t.bit (F.AUD_EP_ERR_PARITY k) = true))) ∧
      (x.frames.length < 64 → exec (.audBlockComplete k) s = .next s) ∧
      (64 ≤ x.frames.length → does (.audBlockComplete k) s fun t => (t.aud k).frames = [] ∧ (t.aud k).flags = 0 ∧
        (t.aud k).written = x.written + 1 ∧ t.getF (F.AUD_EP_BLOCK_BLOCK k) = x.written % 2 ^ 32 ∧
        t.getF (F.AUD_EP_BLOCK_STAMP_STAMP k) = x.stamp % 2 ^ 64 ∧ (s.audRing k = none → t.hbm = s.hbm) ∧
        ∀ base r, s.audRing k = some (base, r) → r ≠ 0 → ∃ l, t.hbm = s.hbm.store (base + x.written % r * slotBytes c) l ∧
          fieldAt l 0 8 = x.stamp % 2 ^ 64 ∧ fieldAt l 8 4 = x.written % 2 ^ 32 ∧ byteAt l 12 = k ∧ byteAt l 13 = c ∧
          l.drop 32 = x.frames.flatMap fun f => f.flatMap (leBytes 4)) ∧
      (k < 8 → ∀ bytes, exec (.aesCsBlock k bytes) s = .next s ∧ exec (.aesLockLost k) s = .next s ∧
        exec (.aesLockGained k) s = .next s) ∧
      (8 ≤ k → s.bit (F.AUD_EP_STATUS_LOCKED k) = true → ∀ bytes,
        (does (.aesCsBlock k bytes) s fun t =>
          (∀ j, j < 6 → t.getF (F.AUD_EP_CS_BYTES k j) = fieldAt bytes (4 * j) 4) ∧
          (t.aud k).csMute = (byteAt bytes 0).testBit 1 ∧ (t.aud k).frames = x.frames ∧
          ((byteAt bytes 0).testBit 1 = true → t.bit (F.AUD_EP_STATUS_NONAUDIO k) = true) ∧ t.msix = s.msix) ∧
        (does (.aesLockLost k) s fun t => t.bit (F.AUD_EP_STATUS_LOCKED k) = false ∧
          t.bit (F.AUD_EP_STATUS_RUNNING k) = false ∧ t.bit (F.AUD_EP_ERR_LOCK_LOST k) = true ∧ (t.aud k).frames = [] ∧
          (t.aud k).written = x.written ∧ t.hbm = s.hbm)) ∧
      (8 ≤ k → does (.aesLockGained k) s fun t => t.bit (F.AUD_EP_STATUS_LOCKED k) = true ∧
        s.onlyWords t [R.AUD_EP_STATUS k]) ∧
      (∀ pair, (x.muted.at none pair = none ∨ ∃ m, x.muted.at none pair = some m ∧ m < 16384) →
        exec (.audNonaudioEnd k pair) s = .next s) ∧
      (∀ pair m, x.muted.at none pair = some m → 16384 ≤ m → does (.audNonaudioEnd k pair) s fun t =>
        (t.aud k).muted.at none pair = none ∧ (∀ j, j ≠ pair → (t.aud k).muted.at none j = x.muted.at none j) ∧
        s.onlyWords { t with audio := s.audio } [R.AUD_EP_STATUS k])) ∧
    (s.audIs k 2 = true →
      let shown (f : List Nat) : List Nat :=
        (List.range c).map fun j => if mask.testBit j then s.audSample k (f.getD j 0) else 0
      (x.pos = none → x.target = none → (s.aud src).written = 0 → ∀ held errs, does (.audFrameOut k held errs) s fun t =>
        t.out = s.out ++ [.audioFrame k (List.replicate c 0)] ∧ t.bit (F.AUD_EP_STATUS_RUNNING k) = true ∧
        t.rd (R.AUD_EP_ERR k) = s.rd (R.AUD_EP_ERR k) ∧ (t.aud k).pos = none) ∧
      (∀ p errs, x.pos = some p → x.wait = none → (x.count % 64 ≠ 0 ∨ x.count = 0 ∨ x.bounded = true) →
        (does (.audFrameOut k true errs) s fun t => t.out = s.out ++ [.audioFrame k (List.replicate c 0)] ∧
          t.bit (F.AUD_EP_ERR_UNDERRUN k) = true ∧ (t.aud k).pos = some (nextFrame p) ∧ (t.aud k).count = x.count + 1 ∧
          t.getF (F.AUD_EP_CNT_COUNT k 0) = min (s.getF (F.AUD_EP_CNT_COUNT k 0) + 1) (2 ^ 32 - 1)) ∧
        (s.audHas src p.1 = false → does (.audFrameOut k false errs) s fun t =>
          t.out = s.out ++ [.audioFrame k (List.replicate c 0)] ∧ t.bit (F.AUD_EP_ERR_UNDERRUN k) = true ∧
          (t.aud k).pos = some (nextFrame p) ∧
          t.getF (F.AUD_EP_CNT_COUNT k 0) = min (s.getF (F.AUD_EP_CNT_COUNT k 0) + 1) (2 ^ 32 - 1) ∧ t.hbm = s.hbm) ∧
        (∀ f u, s.audHas src p.1 = true → s.audFrame src p.1 p.2 errs = (f, false, u) →
          does (.audFrameOut k false errs) s fun t => t.out = s.out ++ [.audioFrame k (shown f)] ∧
            (t.aud k).pos = some (nextFrame p) ∧ (t.aud k).count = x.count + 1 ∧
            t.rd (R.AUD_EP_ERR k) = s.rd (R.AUD_EP_ERR k))) ∧
      ((x.count = 0 ∨ x.count % 64 ≠ 0 ∨ x.bounded = true ∨ x.pos = none) → exec (.audOutBlockBoundary k) s = .next s) ∧
      (∀ p, x.pos = some p → 0 < x.count → x.count % 64 = 0 → x.bounded = false →
        let due := s.audAt src p.1 p.2 + s.audDelay k
        let one : Int := 32000000000 / s.audHz k
        (does (.audOutBlockBoundary k) s fun t => (t.aud k).bounded = true ∧ (t.aud k).count = x.count ∧ t.out = s.out ∧
          t.getF (F.AUD_EP_BLOCK_BLOCK k) = (64 * p.1 + p.2 - 1) / 64 % 2 ^ 32) ∧
        (one < due → does (.audOutBlockBoundary k) s fun t => (t.aud k).pos = some p ∧
          (t.aud k).wait = some (s.corrTicks + due)) ∧
        (-one ≤ due → due ≤ one → does (.audOutBlockBoundary k) s fun t => (t.aud k).pos = some p ∧
          (t.aud k).wait = x.wait) ∧
        (due < -one → does (.audOutBlockBoundary k) s fun t => t.bit (F.AUD_EP_ERR_SKIP k) = true))) ∧
    (s.reaches 11 = false → ∀ v late, exec (.audSlotMaskWrite k v late) s = .next s.inReset) ∧
    (s.reaches 11 = true → ∀ v : Word, does (.audSlotMaskWrite k v false) s fun t =>
      t.getF (F.AUD_EP_SLOT_MASK_MASK k) = v.toNat % 65536 ∧ t.bit (F.AUD_EP_STATUS_MASK_PENDING k) = true ∧
      t.getF (F.AUD_EP_STATUS_APPLIED k) = mask ∧ s.onlyWords t [R.AUD_EP_SLOT_MASK k, R.AUD_EP_STATUS k]) ∧
    ((s.up 11 = false ∨ s.bit (F.AUD_EP_STATUS_MASK_PENDING k) = false) → exec (.audSlotMaskApply k) s = .next s) ∧
    (s.up 11 = true → s.bit (F.AUD_EP_STATUS_MASK_PENDING k) = true → does (.audSlotMaskApply k) s fun t =>
      t.getF (F.AUD_EP_STATUS_APPLIED k) = s.getF (F.AUD_EP_SLOT_MASK_MASK k) ∧
      t.bit (F.AUD_EP_STATUS_MASK_PENDING k) = false ∧ (t.aud k).frames = x.frames ∧
      (x.frames ≠ [] → x.frames.length < 64 → s.getF (F.AUD_EP_SLOT_MASK_MASK k) ≠ mask →
        (t.aud k).flags = x.flags ||| 8) ∧ s.onlyWords { t with audio := s.audio } [R.AUD_EP_STATUS k]) ∧
    (∀ t errs, (s.up 11 = false ∨ s.growing = false ∨ 2 ≤ t ∨ s.bit (F.AUD_TX30_CTL_EN t) = false) →
      exec (.audTx30Packet t errs) s = .next s) ∧
    (∀ t p, t < 2 → s.bit (F.AUD_TX30_CTL_EN t) = true → s.bit (F.AUD_TX30_CTL_PTIME t) = false →
      let e := s.getF (F.AUD_TX30_CTL_SOURCE t)
      let n := s.getF (F.AUD_TX30_CTL_COUNT t)
      0 < n → n ≤ 8 → s.audIs e 1 = true → s.getF (F.AUD_EP_CFG_RATE e) = 1 →
      s.getF (F.AUD_TX30_CTL_FIRST t) + n ≤ s.audC e → (s.audTx t).pos = some p → s.audHas e p.1 = true →
      (frameOn p 47).1 < (s.aud e).written →
      does (.audTx30Packet t []) s fun u => (u.audTx t).pos = some (frameOn p 48) ∧
        (u.audTx t).seq = ((s.audTx t).seq + 1) % 65536 ∧
        ∃ rtp l, l.length = 3 * (48 * n) ∧ u.out = s.out ++ [.audioPacket t (s.getF (F.AUD_TX30_CTL_PORT t))
          (s.getF (F.AUD_TX30_DEST_IP_DEST_IP t)) (s.getF (F.AUD_TX30_PORTS_DEST_PORT t))
          (s.getF (F.AUD_TX30_PORTS_SRC_PORT t)) (s.getF (F.AUD_TX30_RTP_PT t)) (s.getF (F.AUD_TX30_RTP_DSCP t))
          (s.getF (F.AUD_TX30_RTP_VLAN t)) (s.getF (F.AUD_TX30_SSRC_SSRC t)) (s.audTx t).seq rtp l])

open Sys2Proof Sys2Proof.Machine in
/-- An edge at a ball that changes its level places an event on each channel that it selects. A channel event that
coincides with the last one merges with it and counts; any other counts, is stamped, and where its group is closed
goes no further. A pulse ends once. A filtered change of a knot reaches its output, a knot that changes too often
has its group disabled, a software fire places an event on each channel of an open group and sets FIRE_OFF for one
of a closed group, a timer that is due fires and re-arms by PERIOD or disarms, and a write of TWN_GROUP leaves the
groups as written. The model's choices in it: log 103. -/
def Obligations.TwineEvents : Prop :=
  ∀ (s : State) (c b k : Nat),
    ((32 ≤ b ∨ s.twine.evtIn.at false b = true) → exec (.evtEdge b true) s = .next s) ∧
    ((32 ≤ b ∨ s.twine.evtIn.at false b = false) → exec (.evtEdge b false) s = .next s) ∧
    (∀ level, b < 32 → s.twine.evtIn.at false b = !level →
      (s.twineRuns = false → exec (.evtEdge b level) s =
        .next { s with twine := { s.twine with evtIn := s.twine.evtIn.put false b level } }) ∧
      (s.twineRuns = true → does (.evtEdge b level) s fun t => t.twine.evtIn.at false b = level ∧
        (∀ e ∈ s.twine.due, e ∈ t.twine.due) ∧
        ∀ n, n < 256 → s.bit (F.TWN_CH_CFG_VALID n) = true → s.getF (F.TWN_CH_CFG_SOURCE n) = b →
          s.edgeMatches n level = true → (⟨n, s.ticks⟩ : TwineEvent) ∈ t.twine.due)) ∧
    ((∀ e ∈ s.twine.due, e.channel ≠ c) → exec (.twineChannelEvent c) s = .next s) ∧
    (∀ e, s.twine.due.find? (fun x => x.channel == c) = some e →
      let last := s.twine.lastEvent.at none c
      ((s.twineRuns = false ∨ s.chanValid c = false) → exec (.twineChannelEvent c) s =
        .next { s with twine := { s.twine with due := s.twine.due.erase e } }) ∧
      (s.twineRuns = true → s.chanValid c = true → s.coincides last = true → does (.twineChannelEvent c) s fun t =>
        t.getF (F.TWN_CH_COUNT_MERGED c) = min (s.getF (F.TWN_CH_COUNT_MERGED c) + 1) 255 ∧
        t.getF (F.TWN_CH_COUNT_EVENTS c) = s.getF (F.TWN_CH_COUNT_EVENTS c) ∧
        t.twine = { s.twine with due := s.twine.due.erase e } ∧ t.out = s.out ∧ t.msix = s.msix) ∧
      (s.twineRuns = true → s.chanValid c = true → s.coincides last = false →
        (does (.twineChannelEvent c) s fun t =>
          t.getF (F.TWN_CH_COUNT_EVENTS c) = min (s.getF (F.TWN_CH_COUNT_EVENTS c) + 1) (2 ^ 24 - 1) ∧
          t.getF (F.TWN_CH_STAMP_STAMP c) = patternOf 64 (s.corrAt e.tick / 2048)) ∧
        (s.groupOpen (s.getF (F.TWN_CH_CFG_GROUP c)) = false → does (.twineChannelEvent c) s fun t =>
          t.twine = { s.twine with due := s.twine.due.erase e, lastEvent := s.twine.lastEvent.put none c (some s.ticks) } ∧
          s.onlyWords { t with twine := s.twine } [R.TWN_CH_COUNT c, R.TWN_CH_STAMP c, R.TWN_CH_STAMP c + 4]))) ∧
    ((32 ≤ b ∨ (s.task b).busy = false) → exec (.evtOutPulseEnd b) s = .next s) ∧
    (b < 32 → (s.task b).busy = true → does (.evtOutPulseEnd b) s fun t => (t.task b).busy = false ∧
      t.twine.evtOut.at false b = false ∧ t.out = s.out ++ [.evtOut b false]) ∧
    (((s.knot k).filtering = none ∨ s.knotRec k = none ∨ s.twineRuns = false) → exec (.knotFilterPass k) s = .next s) ∧
    (∀ l r, k < 128 → (s.knot k).filtering = some l → s.knotRec k = some r → s.twineRuns = true →
      let g := s.getF (F.TWN_CH_CFG_GROUP (s.getF (F.TWN_KNOT_CFG_OUT_CH k)))
      let follows := !(byteAt s.seed.image (r + 14)).testBit 0 && s.groupOn g
      does (.knotFilterPass k) s fun t => (t.knot k).level = l ∧ (t.knot k).filtering = none ∧
        t.bit (F.TWN_KNOT_STATE_O k) = (if follows then l else s.bit (F.TWN_KNOT_STATE_O k)) ∧
        t.bit (F.TWN_KNOT_STATE_Q k) = s.bit (F.TWN_KNOT_STATE_Q k)) ∧
    ((s.twineRuns = false ∨ s.guardExceeded k = false) → exec (.loopGuardTrip k) s = .next s) ∧
    (k < 128 → s.twineRuns = true → s.guardExceeded k = true →
      let g := s.getF (F.TWN_CH_CFG_GROUP (s.getF (F.TWN_KNOT_CFG_OUT_CH k)))
      does (.loopGuardTrip k) s fun t => t.groupOn g = false ∧ (∀ i, i ≠ g → t.groupOn i = s.groupOn i) ∧
        t.bit (F.TWN_KNOT_STATE_LOOP_GUARD k) = true ∧ t.bit F.TWN_ERR_LOOP_GUARD = true ∧
        t.getF F.TWN_GUARD_MAP_GUARDED = (s.getF F.TWN_GUARD_MAP_GUARDED ||| 2 ^ g)) ∧
    (s.reaches 12 = false → ∀ v, exec (.twnFireWrite k v) s = .next s.inReset ∧ exec (.twnTimerAtWrite k v) s = .next s.inReset ∧
      exec (.twnGroupWrite v) s = .next s.inReset) ∧
    (s.reaches 12 = true → ∀ v : Word,
      (8 ≤ k → exec (.twnFireWrite k v) s = .next s ∧ exec (.twnTimerAtWrite k v) s = .next s) ∧
      (k < 8 → s.twineRuns = true → does (.twnFireWrite k v) s fun t =>
        let hit (j : Nat) : Bool := v.getLsbD j && s.chanValid (32 * k + j)
        let is (j : Nat) : Bool := s.groupOpen (s.getF (F.TWN_CH_CFG_GROUP (32 * k + j)))
        t.twine.due = s.twine.due ++ (((List.range 32).filter fun j => hit j && is j).map fun j => ⟨32 * k + j, s.ticks⟩) ∧
        t.bit F.TWN_ERR_FIRE_OFF = (s.bit F.TWN_ERR_FIRE_OFF || (List.range 32).any fun j => hit j && !is j) ∧
        s.onlyWords { t with twine := s.twine } [R.TWN_ERR]) ∧
      (k < 8 → s.bit (F.TWN_TIMER_CTL_EN k) = false → does (.twnTimerAtWrite k v) s fun t =>
        t.getF (F.TWN_TIMER_AT_AT k) / 2 ^ 32 = v.toNat ∧
        s.onlyWords { t with held := s.held } [R.TWN_TIMER_AT k, R.TWN_TIMER_AT k + 4]) ∧
      ((∀ g, g < 16 → s.coincides (s.twine.lastDis.at none g) = false ∧ s.coincides (s.twine.lastEn.at none g) = false) →
        does (.twnGroupWrite v) s fun t => t.getF F.TWN_GROUP_EN = v.toNat % 65536 ∧ t.twine.evtOut = s.twine.evtOut ∧
          t.out = s.out)) ∧
    ((8 ≤ k ∨ s.bit (F.TWN_TIMER_CTL_EN k) = false ∨ s.timerDue k = false) → exec (.twineTimerFire k) s = .next s) ∧
    (k < 8 → s.bit (F.TWN_TIMER_CTL_EN k) = true → s.timerDue k = true →
      let p := s.getF (F.TWN_TIMER_PERIOD_PERIOD k)
      (p = 0 → does (.twineTimerFire k) s fun t => t.bit (F.TWN_TIMER_CTL_EN k) = false ∧
        t.getF (F.TWN_TIMER_AT_AT k) = s.getF (F.TWN_TIMER_AT_AT k) ∧ (∀ e ∈ s.twine.due, e ∈ t.twine.due)) ∧
      (p ≠ 0 → does (.twineTimerFire k) s fun t => t.bit (F.TWN_TIMER_CTL_EN k) = true ∧
        t.getF (F.TWN_TIMER_AT_AT k) = (s.getF (F.TWN_TIMER_AT_AT k) + p) % 2 ^ 64 ∧
        s.onlyWords { t with twine := s.twine } [R.TWN_TIMER_AT k, R.TWN_TIMER_AT k + 4]))

open Sys2Proof Sys2Proof.Machine in
/-- A channel whose record sets VEC sets its bit in TWN_PEND at each event that reaches it, and raises vector 132 +
n when TWN_CTL.MSIX_EN is 1 and the PCIe link is up. With the link down no vector is raised. When the link returns,
the vector of every channel whose PEND bit is then set is raised. The host has enabled MSI-X, and the group of the
channel is open, as R31 and R460 say. -/
def Obligations.TwineChannelVectors : Prop :=
  ∀ s : State, s.power.msixOn = true →
    let pend (t : State) (n : Nat) : Bool := t.bit ⟨R.TWN_PEND (n / 32), n % 32, 1⟩
    (∀ n e, n < 256 → s.twine.due.find? (fun x => x.channel == n) = some e → s.twineRuns = true →
      s.bit (F.TWN_CH_CFG_VALID n) = true → s.coincides (s.twine.lastEvent.at none n) = false →
      s.groupOpen (s.getF (F.TWN_CH_CFG_GROUP n)) = true → s.bit (F.TWN_CH_CFG_VEC n) = true →
      does (.twineChannelEvent n) s fun t => pend t n = true ∧
        (s.power.pcieUp = true → s.bit F.TWN_CTL_MSIX_EN = true → ∃ l, t.msix = s.msix ++ (132 + n) :: l) ∧
        (s.power.pcieUp = false → t.msix = s.msix)) ∧
    (s.alive = true → s.pwr ≠ 3 → s.pwr ≠ 5 → s.bit F.TWN_CTL_MSIX_EN = true → does .pcieLinkRestore s fun t =>
      ∃ l, t.msix = s.msix ++ l ∧ ∀ n, n < 256 → s.bit (F.TWN_CH_CFG_VEC n) = true → pend s n = true → 132 + n ∈ l)

open Sys2Proof Sys2Proof.Machine in
/-- An access that does not reach the mailboxes, to an unbound channel, or by an identity that the rule does not
name has no effect but the flags that tell it. A post commits the slot at TAIL and rings bit 0, or is refused with
16 full; a take returns the words of the slot at HEAD and frees it. A ring sets pending bits and a clear clears
them, a parameter page having no doorbell. A free lock becomes the reader's and its owner's identity frees it. The
sender writes the slot at TAIL alone. A parameter page with a message writes PARAM and is freed. The model's choices
in it: log 104, 112. -/
def Obligations.MailboxCommands : Prop :=
  ∀ (s : State) (c who : Nat),
    let p := s.page c
    let send := s.getF (F.MBX_BIND_SENDER c)
    let recv := s.getF (F.MBX_BIND_RECEIVER c)
    let slot (p : MailPage) (n : Nat) : List Nat := (List.range 16).map fun i => fieldAt (padTo 64 (p.slots.at [] n)) (4 * i) 4
    (s.mailReach who = false → ∀ bad bits off, exec (.mbxPost c who) s = .next s.inReset ∧
      exec (.mbxTake c who bad) s = .next s.inReset ∧ exec (.mbxRing c who bits) s = .next s.inReset ∧
      exec (.mbxPendingClear c who bits) s = .next s.inReset ∧ exec (.mbxLockWrite c who bits) s = .next s.inReset ∧
      exec (.mbxSlotWrite c who off bits) s = .next s.inReset ∧
      exec (.mbxLockRead c who) s = .next { s.inReset with lastRead := [0] }) ∧
    (s.mailReach who = true → (64 ≤ c ∨ send = 0) → ∀ bad bits off, exec (.mbxPost c who) s = .next s ∧
      exec (.mbxTake c who bad) s = .next s ∧ exec (.mbxRing c who bits) s = .next s ∧
      exec (.mbxPendingClear c who bits) s = .next s ∧ exec (.mbxLockWrite c who bits) s = .next s ∧
      exec (.mbxSlotWrite c who off bits) s = .next s ∧ exec (.mbxLockRead c who) s = .next { s with lastRead := [0] }) ∧
    (s.mailReach who = true → c < 64 → send ≠ 0 → ∀ bad bits off,
      (∀ i, ((who ≠ send ∧ (i = Instr.mbxPost c who ∨ i = .mbxRing c who bits ∨ i = .mbxSlotWrite c who off bits)) ∨
            (who ≠ recv ∧ (i = .mbxTake c who bad ∨ i = .mbxPendingClear c who bits)) ∨
            (who ≠ send ∧ who ≠ recv ∧ i = .mbxLockWrite c who bits) ∨ (0x400 ≤ off ∧ i = .mbxSlotWrite c who off bits)) →
          does i s fun t => t.bit F.MBX_ERR_ACCESS = true ∧ t.getF F.MBX_ERR_CHANNEL = c ∧
            t.getF F.MBX_ERR_IDENTITY = who % 65536 ∧ s.onlyWords t [R.MBX_ERR]) ∧
      (who ≠ send → who ≠ recv → does (.mbxLockRead c who) s fun t =>
        t.lastRead = [0] ∧ t.bit F.MBX_ERR_ACCESS = true ∧ t.mail = s.mail) ∧
      (who = send → p.full = 16 → does (.mbxPost c who) s fun t => t.bit F.MBX_ERR_POST_FULL = true ∧
        t.page c = { p with refused := min (p.refused + 1) 65535 } ∧ s.onlyWords { t with mail := s.mail } [R.MBX_ERR]) ∧
      (who = send → p.full ≠ 16 → recv < 16 → does (.mbxPost c who) s fun t => (t.page c).full = p.full + 1 ∧
        (t.page c).tail = (p.tail + 1) % 16 ∧ (t.page c).slots = p.slots ∧
        (t.page c).pending = p.pending ||| 1#32 ∧ t.regs = s.regs ∧ ∀ d, d ≠ c → t.page d = s.page d) ∧
      (who = recv → p.full = 0 → exec (.mbxTake c who bad) s = .next s) ∧
      (who = recv → p.full ≠ 0 → s.mailWait = [] → does (.mbxTake c who []) s fun t => t.lastRead = slot p p.head ∧
        t.page c = { p with head := (p.head + 1) % 16, full := p.full - 1 } ∧ t.regs = s.regs ∧
        ∀ d, d ≠ c → t.page d = s.page d) ∧
      (who = send → 16 ≤ recv → exec (.mbxRing c who bits) s = .next s) ∧
      (who = send → recv < 16 → does (.mbxRing c who bits) s fun t => (t.page c).pending = p.pending ||| bits ∧
        (t.page c).mask = p.mask ∧ t.regs = s.regs ∧ (bits &&& p.mask &&& ~~~p.pending = 0#32 → t.msix = s.msix ∧ t.out = s.out) ∧
        (bits &&& p.mask &&& ~~~p.pending ≠ 0#32 → recv = 8 → s.power.pcieUp = true → t.msix = (s.raise (68 + c)).msix) ∧
        (bits &&& p.mask &&& ~~~p.pending ≠ 0#32 → recv = 8 → s.power.pcieUp = false → (t.page c).held = true) ∧
        (bits &&& p.mask &&& ~~~p.pending ≠ 0#32 → recv ≠ 8 → t.out = s.out ++ [.mailNotify c recv])) ∧
      (who = recv → recv < 16 → does (.mbxPendingClear c who bits) s fun t => (t.page c).pending = p.pending &&& ~~~bits ∧
        (t.page c).mask = p.mask ∧ (t.page c).full = p.full ∧ t.regs = s.regs ∧ t.msix = s.msix ∧ t.out = s.out) ∧
      ((who = send ∨ who = recv) →
        (p.lock = 0 → does (.mbxLockRead c who) s fun t => t.lastRead = [0] ∧ t.page c = { p with lock := who } ∧
          t.regs = s.regs) ∧
        (p.lock ≠ 0 → exec (.mbxLockRead c who) s = .next { s with lastRead := [p.lock] }) ∧
        (p.lock ≠ 0 → bits.toNat = p.lock → does (.mbxLockWrite c who bits) s fun t => t.page c = { p with lock := 0 } ∧
          t.regs = s.regs) ∧
        ((p.lock = 0 ∨ bits.toNat ≠ p.lock) → does (.mbxLockWrite c who bits) s fun t =>
          t.bit F.MBX_ERR_LOCK_BAD = true ∧ s.onlyWords t [R.MBX_ERR])) ∧
      (who = send → off < 0x400 → (p.full = 16 ∨ off / 64 ≠ p.tail) → exec (.mbxSlotWrite c who off bits) s = .next s) ∧
      (who = send → off < 0x400 → p.full ≠ 16 → off / 64 = p.tail → does (.mbxSlotWrite c who off bits) s fun t =>
        (∀ i, i < 16 → (slot (t.page c) p.tail).getD i 0 = if i = off % 64 / 4 then bits.toNat else (slot p p.tail).getD i 0) ∧
        (∀ n, n ≠ p.tail → (t.page c).slots.at [] n = p.slots.at [] n) ∧ (t.page c).full = p.full ∧ t.regs = s.regs)) ∧
    (∀ bad, (64 ≤ c ∨ send = 0 ∨ recv < 16 ∨ p.full = 0 ∨ s.growing = false ∨ s.up 4 = false ∨ s.up 5 = false) →
      exec (.mbxParamServe c bad) s = .next s) ∧
    (c < 64 → send ≠ 0 → 16 ≤ recv → p.full ≠ 0 → s.mailWait = [] → s.growing = true → s.up 4 = true → s.up 5 = true →
      (recv - 16) / 16 < 16 →
      let n := (recv - 16) / 16
      let k := (recv - 16) % 8
      s.bit (F.BED_SENSOR_VALID n k) = true → s.bit (F.BED_SHADOW_PENDING n k) = false →
      (does (.mbxParamServe c true) s fun t => t.bit F.MBX_ERR_BAD_TAKEN = true ∧ (t.page c).full = p.full - 1 ∧
        (t.page c).head = (p.head + 1) % 16 ∧ s.onlyWords { t with mail := s.mail } [R.MBX_ERR]) ∧
      (p.bad.getLsbD p.head = false → does (.mbxParamServe c false) s fun t => (t.page c).full = p.full - 1 ∧
        (t.page c).head = (p.head + 1) % 16 ∧ t.bit (F.BED_SHADOW_PENDING n k) = true ∧
        ∀ i, i < 16 → (R.PE_SPLICE_PARAM ((recv - 16) / 8) k i, BitVec.ofNat 32 ((slot p p.head).getD i 0)) ∈ t.staged))

open Sys2Proof Sys2Proof.Machine in
/-- After a power-on reset, or a fall of VDD_AO or VDD_IO, every register has its reset value, the Rootstock counter
is 0, seeding is due, power is not good, and flash and fuses are kept. A pin reset of a powered device that is not
held in reset and has not tripped leaves RESET_N noted low, the cause PIN alone, no message in any mailbox, seeding
due, no image, and flash, fuses and the Rootstock counter kept; so does the fall of another rail, which is noted
until it recovers. Power-good samples the head strap, and the release of RESET_N is noted. In a state whose register
window is canonical, a pin reset leaves every class A register word outside the pixel engines' range,
PWR_RESET_CAUSE apart, as it was, and every word there of which no bit is of class A at its reset value. The model's
choices in it: log 36. -/
def Obligations.DeviceResets : Prop :=
  (∀ s : State,
    (∀ c ∈ [Instr.powerOnReset, Instr.railFault true], does c s fun t =>
      (∀ o, t.rd o = resetWord s.variant o) ∧ t.variant = s.variant ∧ t.time.counter = 0#64 ∧ t.seed.due = 1 ∧
      t.seed.running = false ∧ t.power.powerGood = false ∧ t.flash = s.flash ∧ t.fuses = s.fuses ∧ t.pending = s.pending) ∧
    (s.power.powerGood = true → s.power.resetLow = false → s.pwr ≠ 5 →
      does .pinReset s fun t => t.power.resetLow = true ∧ t.rd R.PWR_RESET_CAUSE = 2#32 ∧ t.mail = [] ∧ t.seed.due = 1 ∧
        t.seed.image = [] ∧ t.seed.running = false ∧ t.flash = s.flash ∧ t.fuses = s.fuses ∧
        t.time.counter = s.time.counter ∧ t.pending = s.pending) ∧
    (s.power.powerGood = true → s.pwr ≠ 5 →
      does (.railFault false) s fun t => t.power.railFault = 1 ∧ t.rd R.PWR_RESET_CAUSE = 2#32 ∧ t.mail = [] ∧
        t.seed.due = 1 ∧ t.seed.running = false ∧ t.flash = s.flash ∧ t.fuses = s.fuses ∧
        t.time.counter = s.time.counter) ∧
    (s.power.powerGood = false → ∀ strap, does (.powerGood strap) s fun t => t.bit F.HRW_STATUS_HEAD = strap ∧
      ({ s with power := { s.power with powerGood := true, railFault := 0 } } : State).onlyWords t [R.HRW_STATUS]) ∧
    (s.power.railFault = 1 → exec .railRecover s = .next { s with power := { s.power with railFault := 0 } }) ∧
    (does .resetNRelease s fun t => t.power.resetLow = false ∧ t.tap.instr = s.tap.instr ∧
      t = { s with power := { s.power with resetLow := false }, tap := t.tap }) ∧
    (s.power.resetLow = true → exec .pinReset s = .next s)) ∧
  (∀ (s : State) (o : Nat) (d : RegDesc),
    SMap.wf (resetWord s.variant) s.regs = true →
    s.power.powerGood = true → s.power.resetLow = false → s.pwr ≠ 5 →
    s.desc o = some d → o < 0x3c00000 → blockOfOffset o ≠ 5 → o ≠ R.PWR_RESET_CAUSE →
    does .pinReset s fun t =>
      (d.keep.a = 0xffffffff → t.rd o = s.rd o) ∧ (d.keep.a = 0 → t.rd o = resetWord s.variant o))

open Sys2Proof Sys2Proof.Machine in
/-- PERST resets the MSI-X table and disables MSI-X and the link, and leaves every register of the device as it was.
A loss of the link changes nothing but the link. MSIX_ENABLE on a link that is up enables MSI-X and raises the
vectors 67 and 66 that were held, in this order; without a link it does nothing. The return of the link of a device
that can be reached marks it up. The model's choices in it: log 16, 17. -/
def Obligations.PcieLink : Prop :=
  ∀ s : State,
    (does .perstAssert s fun t => (∀ o, o < 0x3c00000 → t.rd o = s.rd o) ∧
      (∀ o, 0x3c00000 ≤ o → t.rd o = resetWord s.variant o) ∧ t.power.msixOn = false ∧ t.power.pcieUp = false ∧
      t = { s with regs := t.regs, power := { s.power with pcieUp := false, msixOn := false } }) ∧
    (exec .pcieLinkDown s = .next { s with power := { s.power with pcieUp := false } }) ∧
    (s.power.pcieUp = false → exec .msixEnable s = .next s) ∧
    (s.power.pcieUp = true → exec .msixEnable s = .next { s with
      power := { s.power with msixOn := true, held66 := false, held67 := false }
      msix := s.msix ++ (if s.power.held67 then [67] else []) ++ (if s.power.held66 then [66] else []) }) ∧
    (s.alive = true → s.pwr ≠ 3 → s.pwr ≠ 5 → does .pcieLinkRestore s fun t =>
      t.power.pcieUp = true ∧ t.power.pcieWakeLow = false ∧ (∀ o, t.rd o = s.rd o) ∧ t.hbm = s.hbm ∧ t.seed = s.seed)

open Sys2Proof Sys2Proof.Machine in
/-- A confirmed request for Dormant or Fallow in Growing, with the image READY and no calibration write, begins
entry to that state; outside these conditions it sets PWR_STATUS.REFUSED and changes nothing else, and without the
confirmation it does nothing. Entry ends only once the blocks have drained. A wake request while entry is under way
waits, unless another waits already. A host wake of a device that is Growing does nothing. A wake of a Fallow device
by its PCIe link records the source and makes seeding due. The model's choices in it: log 40, 41. -/
def Obligations.PowerStateRequests : Prop :=
  ∀ s : State,
    (∀ confirm, confirm ≠ 0x5EED → exec (.pwrReqDormant confirm) s = .next s ∧ exec (.pwrReqFallow confirm) s = .next s ∧
      exec (.pwrReqWake confirm) s = .next s) ∧
    (s.alive = true → s.pwr = 0 → s.getF F.SEED_STATUS_STATE = 8 → s.bit F.SEED_CAL_STATUS_BUSY = false →
      (does (.pwrReqDormant 0x5EED) s fun t => t.power.entering = 2 ∧ t.power.wakeWaits = 0) ∧
      (does (.pwrReqFallow 0x5EED) s fun t => t.power.entering = 3 ∧ t.power.wakeWaits = 0)) ∧
    (s.alive = true → s.pwr < 3 → (s.pwr ≠ 0 ∨ s.getF F.SEED_STATUS_STATE ≠ 8 ∨ s.bit F.SEED_CAL_STATUS_BUSY = true) →
      ∀ c ∈ [Instr.pwrReqDormant 0x5EED, Instr.pwrReqFallow 0x5EED],
        does c s fun t => t.bit F.PWR_STATUS_REFUSED = true ∧ s.onlyWords t [R.PWR_STATUS]) ∧
    ((s.pwr ≠ 1 ∨ s.drained = false) → exec .pwrEntryComplete s = .next s) ∧
    (s.pwr = 1 → s.drained = true → s.power.wakeWaits = 0 →
      does .pwrEntryComplete s fun t => t.pwr = (if s.power.entering = 3 then 3 else 2) ∧ t.power.entering = 0 ∧
        t.power.wakeWaits = 0) ∧
    (s.alive = true → s.pwr = 1 → s.power.wakeWaits = 0 →
      exec (.pwrReqWake 0x5EED) s = .next { s with power := { s.power with wakeWaits := 5 } }) ∧
    (s.pwr = 0 → exec (.pwrReqWake 0x5EED) s = .next s) ∧
    (s.alive = true → s.pwr = 2 → does (.pwrReqWake 0x5EED) s fun t => t.variant = s.variant ∧ t.fuses = s.fuses ∧
      t.flash = s.flash ∧ t.seed = s.seed) ∧
    (s.alive = true → s.pwr = 3 → s.wakeEnabled 4 = true → does .pcieL2ExitWake s fun t =>
      t.pwr = 4 ∧ t.getF F.PWR_STATUS_LAST_WAKE = 4 ∧ t.seed.due = 3 ∧ t.power.pcieWakeLow = false)

open Sys2Proof Sys2Proof.Machine in
/-- A soft reset of a block that one can name and that is not held already holds it, and its end lets it go; a
command that names no such block changes nothing. Only the Gardener or a control core with the key restarts the
watchdog. The watchdog resets a device in which it runs, has a limit, and has counted to it, as a pin reset whose
cause is WDT; else its expiry changes nothing. The model's choices in it: log 37. -/
def Obligations.SoftResetAndWatchdog : Prop :=
  ∀ (s : State) (b : Nat),
    (s.rootReach = true → softResettable b = true → s.power.softReset.getLsbD b = false →
      does (.softReset b) s fun t => t.power.softReset.getLsbD b = true ∧ t.fuses = s.fuses ∧ t.flash = s.flash ∧
        t.seed = s.seed) ∧
    ((softResettable b = false ∨ s.rootReach = false) → exec (.softReset b) s = .next s) ∧
    (softResettable b = true → s.power.softReset.getLsbD b = true →
      does (.softResetDone b) s fun t => t.fuses = s.fuses ∧ t.flash = s.flash ∧ t.seed = s.seed) ∧
    ((softResettable b = false ∨ s.power.softReset.getLsbD b = false) → exec (.softResetDone b) s = .next s) ∧
    (∀ who key, s.rootReach = true → 2 ≤ who → who ≤ 6 → key = 0x5EED#32 →
      exec (.wdtKick who key) s
        = .next { s with power := { s.power with wdtFrom := if s.fastOn then s.time.counter else 0#64 } }) ∧
    (∀ who key, (who < 2 ∨ 6 < who ∨ key ≠ 0x5EED#32) → exec (.wdtKick who key) s = .next s) ∧
    (s.alive = true → s.fastOn = true → s.power.wdtOn = true → 0 < s.getF F.PWR_WDT_TIMEOUT_MS →
      s.getF F.PWR_WDT_TIMEOUT_MS ≤ s.wdtMs →
      does .wdtExpire s fun t => t.rd R.PWR_RESET_CAUSE = 8#32 ∧ t.seed.due = 1 ∧ t.mail = [] ∧ t.power.wdtOn = false) ∧
    ((s.power.wdtOn = false ∨ s.getF F.PWR_WDT_TIMEOUT_MS = 0 ∨ s.wdtMs < s.getF F.PWR_WDT_TIMEOUT_MS) →
      exec .wdtExpire s = .next s)

open Sys2Proof Sys2Proof.Machine in
/-- In a powered device that has not tripped, a reading of 118 °C or more of a sensor that takes part trips it:
PWR_STATUS.STATE reads TRIPPED, TRIP_INFO names the sensor, THERM_TRIP_N and THERM_ALERT_N are low, the bypass is
closed, no image runs, no seeding is due, and a trip record is due; flash and fuses are kept. Below that reading,
for an absent sensor, or after a trip the command changes nothing. A trip ends in a restart only after 10,000
samples below the restart level, as a reset whose cause is TRIP. A sample of a tripped device stores the trimmed
reading of each sensor in THM_SENSOR.TEMP and counts it towards the restart if every sensor that takes part is below
the restart level. Where the policy is on and a step of the degrade plan is unused, the end of the grace time and
each further second of the condition take a step: ENFORCED is set, THERM_ALERT_N is low, and a step is in force.
Relief after 1,001 calm samples sets RELIEF and ends the request. A reversal takes the newest step out of force. A
sample without power changes nothing. The model's choices in it: log 46, 47, 48, 49. -/
def Obligations.ThermalTripAndPolicy : Prop :=
  (∀ (s : State) (k : Nat) (x : Int),
    (s.power.powerGood = true → s.pwr ≠ 5 → k < 28 → s.sensorOn k = true → 944 ≤ x →
      does (.thermalTrip k x) s fun t => t.pwr = 5 ∧ t.getF F.THM_TRIP_INFO_SENSOR = k ∧ t.power.thermTrip = true ∧
        t.power.thermAlert = true ∧ t.power.bypassClosed = true ∧ t.power.driveReset = true ∧ t.seed.running = false ∧
        t.seed.due = 0 ∧ t.power.tripDue = some (k, x, s.coarseStamp) ∧ t.flash = s.flash ∧ t.fuses = s.fuses) ∧
    ((x < 944 ∨ s.pwr = 5 ∨ 28 ≤ k ∨ s.sensorOn k = false) → exec (.thermalTrip k x) s = .next s) ∧
    (s.alive = true → s.pwr = 5 → 10000 ≤ s.power.coolRun →
      does .tripRestart s fun t => t.rd R.PWR_RESET_CAUSE = 4#32 ∧ t.seed.due = 1 ∧ t.power.thermTrip = false) ∧
    ((s.pwr ≠ 5 ∨ s.power.coolRun < 10000) → exec .tripRestart s = .next s)) ∧
  (∀ s : State,
    (s.power.powerGood = false → ∀ raw, exec (.thermalSample raw) s = .next s) ∧
    (s.power.powerGood = true → s.pwr = 5 → ∀ raw, does (.thermalSample raw) s fun t =>
      (∀ k, k < 28 → t.getF (F.THM_SENSOR_TEMP k) = patternOf 16 (s.trimmed k (raw.getD k 0))) ∧
      t.power.coolRun = (if t.liveSensors.all fun k => decide (t.temp k < s.power.restartLevel)
        then s.power.coolRun + 1 else 0)) ∧
    (s.policyOn = true → s.bit F.THM_STATUS_REQ = true →
      ((s.planSteps 1).any fun p => !(s.power.steps.filterMap (·.index)).contains p.index) = true →
      (s.power.grace = true → s.getF F.THM_STATUS_GRACE_LEFT = 0 → does .throttleGraceExpire s fun t =>
        t.bit F.THM_ERR_ENFORCED = true ∧ t.power.thermAlert = true ∧ t.power.steps ≠ []) ∧
      (s.power.stepTimer = true → s.bit F.THM_STATUS_COND = true → does .throttleStepTimer s fun t =>
        t.bit F.THM_ERR_ENFORCED = true ∧ t.power.thermAlert = true ∧ t.power.steps ≠ [])) ∧
    (s.policyOn = true → 1001 ≤ s.power.reliefRun → s.power.relieved = false → does .thermalRelief s fun t =>
      t.bit F.THM_STATUS_RELIEF = true ∧ t.bit F.THM_STATUS_REQ = false ∧ t.getF F.THM_STATUS_GRACE_LEFT = 0 ∧
      t.power.relieved = true ∧ t.power.grace = false ∧ t.power.thermAlert = !s.power.steps.isEmpty ∧
      (∀ o, o ≠ R.THM_STATUS → t.rd o = s.rd o)) ∧
    (s.policyOn = true → s.bit F.THM_STATUS_RELIEF = true → 11001 ≤ s.power.reliefRun → ∀ x rest,
      s.power.steps = x :: rest → x.index ≠ none → x.undo = [] → does .thermalStepReverse s fun t =>
        t.power.steps = rest ∧ t.power.reliefRun = 1001 ∧ t.getF F.THM_STATUS_STEPS = min rest.length 31))

open Sys2Proof Sys2Proof.Machine in
/-- While VDD_AO and VDD_IO are within tolerance each instruction is loaded; EXTEST, CLAMP and HIGHZ act only while
RESET_N is low, and the others always; EXTEST while it acts and SAMPLE/PRELOAD capture the levels at the balls;
IDCODE returns the code of the bonding. TAP_RESET selects IDCODE. Nothing else of the device changes. While those
rails are out of tolerance an instruction changes nothing. The model's choices in it: log 43. -/
def Obligations.BoundaryScan : Prop :=
  ∀ s : State,
    (s.power.railFault ≠ 2 →
      (exec .jtagExtest s = .next { s with tap := { instr := .extest, acts := s.power.resetLow, captured :=
        if s.power.resetLow then s.ballLevels else s.tap.captured } }) ∧
      (exec .jtagSamplePreload s = .next { s with tap := { instr := .samplePreload, acts := true, captured := s.ballLevels } }) ∧
      (exec .jtagIdcode s = .next { s with
        tap := { instr := .idcode, acts := true, captured := s.tap.captured }
        lastRead := [match s.variant with | .qc8816 => 0x188165E3 | .qc8808 => 0x188085E3 | .qc8804 => 0x188045E3] }) ∧
      (∀ c ∈ [(Instr.jtagClamp, TapInstr.clamp), (Instr.jtagHighz, TapInstr.highz)],
        exec c.1 s = .next { s with tap := { s.tap with instr := c.2, acts := s.power.resetLow } }) ∧
      (exec .jtagBypass s = .next { s with tap := { s.tap with instr := .bypass, acts := true } })) ∧
    (s.power.railFault = 2 →
      ∀ c ∈ [Instr.jtagExtest, .jtagSamplePreload, .jtagIdcode, .jtagClamp, .jtagHighz, .jtagBypass],
        exec c s = .next s) ∧
    (exec .tapReset s = .next { s with tap := { s.tap with instr := .idcode, acts := true } })

open Sys2Proof Sys2Proof.Machine in
/-- A read of an empty trug while TRUG_MODE.MODE is SEEDING or TEST, or while the trug's RECOVERY bit is set,
returns at once one word that holds the pattern of TRUG_IDLE with word 0 in bytes 0 to 3, with IDLE 1 and END 0 in
its tag, and nothing stalls. A read of a trug that holds data returns the data in every mode. -/
def Obligations.IdleReads : Prop :=
  ∀ (s : State) (n : Nat), s.up 14 = true → n < 512 → s.trugDepth n ≠ 0 →
    ((s.trug n).ring = [] →
      (s.getF F.TRUG_MODE_MODE = 1 ∨ s.getF F.TRUG_MODE_MODE = 2 ∨ s.bit (F.TRUG_STAT_RECOVERY n) = true) →
      ∀ errs k, ∃ d, exec (.trugRead n errs k) s = .next { s with lastRead := [d, 0x40] } ∧ d < 2 ^ 256 ∧
        ∀ i, i < 8 → d / 2 ^ (32 * i) % 2 ^ 32 = (s.rd (R.TRUG_IDLE i)).toNat) ∧
    (∀ w rest, (s.trug n).ring = w :: rest → does (.trugRead n [] 0) s fun t =>
      t.lastRead = [leNat w.data, w.tag.toNat] ∧ (t.trug n).ring = rest)

open Sys2Proof Sys2Proof.Machine in
/-- After the engine writes an entry to completion queue n, a completion or, in queue 0, an event, vector n is
raised, provided VEC_EN of that queue is 1; otherwise no vector is. The host has enabled MSI-X and the link is up,
as R31 says. -/
def Obligations.CompletionVectors : Prop :=
  ∀ (s : State) (n : Nat), n < 64 → s.up 9 = true → s.power.msixOn = true → s.power.pcieUp = true → s.cqRoom n = true →
    ((∃ d ∈ s.recorder.done, d.cq = n) → does (.recCompletionPost n) s fun t =>
      t.out.length = s.out.length + 1 ∧ t.msix = s.msix ++ (if s.bit (F.REC_CQ_CTL_VEC_EN n) then [n] else [])) ∧
    (∀ d info, n = 0 → s.portServes d = true → s.bit F.REC_CTL_EVENTS_EN = true → does (.driveAttached d info) s fun t =>
      t.out.length = s.out.length + 1 ∧ t.msix = s.msix ++ (if s.bit (F.REC_CQ_CTL_VEC_EN 0) then [0] else []))

open Sys2Proof Sys2Proof.Machine in
/-- From every state whose front command is not a register write that is misaligned or beyond the window, a step
answers a next state, in which the queue has lost its front command and no other, and the bonding is as it was. From
every other state it stops by the fault's name. The model's choices in it: log 2, 3, 11. -/
def Obligations.StepsAreSafe : Prop :=
  ∀ s : State,
    ((∀ who off v rest, s.pending = .registerWrite who off v :: rest → off % 4 = 0 ∧ off < 0x4000000) →
      s.safe ∧ ∀ t, step s = .next t → t.pending = s.pending.tail ∧ t.variant = s.variant) ∧
    (∀ who off v rest, s.pending = .registerWrite who off v :: rest →
      (off % 4 ≠ 0 → step s = .fault .unaligned) ∧ (off % 4 = 0 → 0x4000000 ≤ off → step s = .fault .outsideWindow))

open Sys2Proof Sys2Proof.Machine in
/-- From every state, one that no run reaches as well, in which the keys of the register window and of plot space
rise and no entry equals what an unlisted key reads as, every step that answers a next state answers one of that
form. The model's choices in it: log 10. -/
def Obligations.CanonicalKept : Prop :=
  ∀ s t : State, s.canonical → step s = .next t → t.canonical

open Sys2Proof Sys2Proof.Machine in
/-- The state right after a power-on reset is in canonical form, with plot space empty, the counter at 0, no command
waiting, nothing sent and seeding due, and registers hold the reset values of their tables. The bonding QC-8816 is
the model's choice. The model's choices in it: log 1, 10, 113, 114. -/
def Obligations.ResetState : Prop :=
  State.reset.canonical ∧ (∀ a, State.reset.hbm.byte a = 0#8) ∧ State.reset.ticks = 0 ∧ State.reset.pending = [] ∧
    State.reset.out = [] ∧ State.reset.msix = [] ∧ State.reset.seed.running = false ∧ State.reset.seed.due = 1 ∧
    State.reset.rd 0x0 = 0x10110#32 ∧ State.reset.rd 0x4 = 0x84444010#32 ∧ State.reset.rd 0x10 = 0x40000#32 ∧
    State.reset.rd 0x14 = 0#32 ∧ State.reset.rd 0x28 = 0x100#32 ∧ State.reset.rd 0x100000 = 0x12400#32 ∧
    State.reset.rd 0x100070 = 0x89706#32 ∧ State.reset.rd 0x100074 = 0x8970#32 ∧ State.reset.rd 0x100090 = 0x307f0#32
end

