-- ==== Sys2Proof/Laws/Bits.lean ====
section
/-!
SUPPORT. Bit fields of numbers: what is read after a field is set.
-/

namespace Sys2Proof.Machine

theorem bitsOf_lt (v lo w : Nat) : bitsOf v lo w < 2 ^ w := Nat.mod_lt _ (Nat.two_pow_pos w)

/-- A number is its low part, a field and what lies above. -/
theorem split_at (v lo w : Nat) : v = v % 2 ^ lo + bitsOf v lo w * 2 ^ lo + v / 2 ^ (lo + w) * 2 ^ (lo + w) := by
  have h1 := Nat.mod_add_div v (2 ^ lo)
  have h2 := Nat.mod_add_div (v / 2 ^ lo) (2 ^ w)
  rw [Nat.div_div_eq_div_mul, ← pow_add] at h2
  unfold bitsOf
  calc v = v % 2 ^ lo + 2 ^ lo * (v / 2 ^ lo) := h1.symm
    _ = v % 2 ^ lo + 2 ^ lo * (v / 2 ^ lo % 2 ^ w + 2 ^ w * (v / 2 ^ (lo + w))) := by rw [h2]
    _ = _ := by rw [pow_add]; ring

theorem setBitsOf_eq (v lo w x : Nat) :
    setBitsOf v lo w x = v % 2 ^ lo + x % 2 ^ w * 2 ^ lo + v / 2 ^ (lo + w) * 2 ^ (lo + w) := by
  have h := split_at v lo w
  unfold setBitsOf
  omega

theorem bitsOf_setBitsOf_same (v lo w x : Nat) : bitsOf (setBitsOf v lo w x) lo w = x % 2 ^ w := by
  rw [setBitsOf_eq]
  unfold bitsOf
  have h0 : 0 < 2 ^ lo := Nat.two_pow_pos lo
  have e : v % 2 ^ lo + x % 2 ^ w * 2 ^ lo + v / 2 ^ (lo + w) * 2 ^ (lo + w)
      = v % 2 ^ lo + 2 ^ lo * (x % 2 ^ w + 2 ^ w * (v / 2 ^ (lo + w))) := by rw [pow_add]; ring
  rw [e, Nat.add_mul_div_left _ _ h0, Nat.div_eq_of_lt (Nat.mod_lt _ h0), Nat.zero_add, Nat.add_mul_mod_self_left,
    Nat.mod_mod]

theorem testBit_setBitsOf (v lo w x i : Nat) :
    (setBitsOf v lo w x).testBit i = if lo ≤ i ∧ i < lo + w then x.testBit (i - lo) else v.testBit i := by
  rw [setBitsOf_eq]
  have e : v % 2 ^ lo + x % 2 ^ w * 2 ^ lo + v / 2 ^ (lo + w) * 2 ^ (lo + w)
      = 2 ^ lo * (2 ^ w * (v / 2 ^ (lo + w)) + x % 2 ^ w) + v % 2 ^ lo := by rw [pow_add]; ring
  rw [e, Nat.testBit_two_pow_mul_add _ (Nat.mod_lt _ (Nat.two_pow_pos lo)),
    Nat.testBit_two_pow_mul_add _ (Nat.mod_lt _ (Nat.two_pow_pos w))]
  simp only [Nat.testBit_mod_two_pow, Nat.testBit_div_two_pow]
  by_cases h1 : i < lo
  · have : ¬ (lo ≤ i ∧ i < lo + w) := by omega
    simp [h1, this]
  · by_cases h2 : i - lo < w
    · have : lo ≤ i ∧ i < lo + w := by omega
      simp [h1, h2, this]
    · have : ¬ (lo ≤ i ∧ i < lo + w) := by omega
      simp only [h1, h2, this, if_false]
      congr 1
      omega

theorem testBit_bitsOf (v lo w i : Nat) : (bitsOf v lo w).testBit i = (decide (i < w) && v.testBit (i + lo)) := by
  simp [bitsOf, Nat.testBit_mod_two_pow, Nat.testBit_div_two_pow]

/-- A field that does not overlap the one set reads as before. -/
theorem bitsOf_setBitsOf_ne (v lo w x lo' w' : Nat) (h : lo' + w' ≤ lo ∨ lo + w ≤ lo') :
    bitsOf (setBitsOf v lo w x) lo' w' = bitsOf v lo' w' := by
  apply Nat.eq_of_testBit_eq
  intro i
  rw [testBit_bitsOf, testBit_bitsOf, testBit_setBitsOf]
  by_cases hi : i < w'
  · have : ¬ (lo ≤ i + lo' ∧ i + lo' < lo + w) := by omega
    simp [this]
  · simp [hi]

theorem setBitsOf_lt {v lo w x n : Nat} (hv : v < 2 ^ n) (h : lo + w ≤ n) : setBitsOf v lo w x < 2 ^ n := by
  apply Nat.lt_pow_two_of_testBit
  intro i hi
  rw [testBit_setBitsOf, if_neg (by omega)]
  exact Nat.testBit_lt_two_pow (lt_of_lt_of_le hv (Nat.pow_le_pow_right (by norm_num) hi))

theorem setBitsOf_self (v lo w : Nat) : setBitsOf v lo w (bitsOf v lo w) = v := by
  apply Nat.eq_of_testBit_eq
  intro i
  rw [testBit_setBitsOf]
  split
  · rw [testBit_bitsOf]
    have : i - lo < w := by omega
    have e : i - lo + lo = i := by omega
    simp [this, e]
  · rfl

end Sys2Proof.Machine
end

