-- ==== Sys2Proof/Laws/SMap.lean ====
section
/-!
SUPPORT. Sparse maps: what is read after a write, and that a write keeps the canonical form.
-/

namespace Sys2Proof.Machine

theorem SMap.get_erase {α : Type} (d : Nat → α) (m : SMap α) (k j : Nat) :
    (m.erase k).get d j = if j = k then d k else m.get d j := by
  induction m with
  | nil => simp only [SMap.erase, SMap.get]; split <;> simp_all
  | cons p r ih =>
    obtain ⟨a, b⟩ := p
    by_cases h : a = k
    · subst h
      simp only [SMap.erase, if_true, ih, SMap.get]
      split
      · rfl
      · rw [if_neg (fun e => ‹¬ j = a› e.symm)]
    · simp only [SMap.erase, if_neg h, SMap.get, ih]
      by_cases hj : a = j
      · subst hj; simp [h]
      · simp [hj]

theorem SMap.get_insert {α : Type} (d : Nat → α) (m : SMap α) (k j : Nat) (v : α) :
    (m.insert k v).get d j = if j = k then v else m.get d j := by
  induction m with
  | nil => simp only [SMap.insert, SMap.get, eq_comm]
  | cons p r ih =>
    obtain ⟨a, b⟩ := p
    by_cases h : a = k
    · subst h
      simp only [SMap.insert, if_true, SMap.get, eq_comm]
      split <;> simp_all
    · by_cases h2 : k < a
      · simp only [SMap.insert, if_neg h, if_pos h2, SMap.get, @eq_comm _ k j]
      · simp only [SMap.insert, if_neg h, if_neg h2, SMap.get, ih]
        by_cases hj : a = j
        · subst hj; simp [h]
        · simp [hj]

/-- What is read after a write. -/
theorem SMap.get_set {α : Type} [DecidableEq α] (d : Nat → α) (m : SMap α) (k j : Nat) (v : α) :
    (m.set d k v).get d j = if j = k then v else m.get d j := by
  unfold SMap.set
  split
  · subst v; exact SMap.get_erase d m k j
  · exact SMap.get_insert d m k j v

@[simp] theorem SMap.get_set_same {α : Type} [DecidableEq α] (d : Nat → α) (m : SMap α) (k : Nat) (v : α) :
    (m.set d k v).get d k = v := by simp [SMap.get_set]

theorem SMap.get_set_ne {α : Type} [DecidableEq α] (d : Nat → α) (m : SMap α) {k j : Nat} (v : α) (h : j ≠ k) :
    (m.set d k v).get d j = m.get d j := by simp [SMap.get_set, h]

@[simp] theorem SMap.at_put_same {α : Type} [DecidableEq α] (x : α) (m : SMap α) (k : Nat) (v : α) :
    (m.put x k v).at x k = v := SMap.get_set_same _ m k v

theorem SMap.at_put_ne {α : Type} [DecidableEq α] (x : α) (m : SMap α) {k j : Nat} (v : α) (h : j ≠ k) :
    (m.put x k v).at x j = m.at x j := SMap.get_set_ne _ m v h

@[simp] theorem SMap.at_upd_same {α : Type} [DecidableEq α] (x : α) (m : SMap α) (k : Nat) (f : α → α) :
    (m.upd x k f).at x k = f (m.at x k) := SMap.at_put_same x m k _

theorem SMap.at_upd_ne {α : Type} [DecidableEq α] (x : α) (m : SMap α) {k j : Nat} (f : α → α) (h : j ≠ k) :
    (m.upd x k f).at x j = m.at x j := SMap.at_put_ne x m _ h

/-! ## The canonical form -/

/-- Every key of a map lies above a bound. -/
def SMap.above {α : Type} (n : Nat) (m : SMap α) : Prop := ∀ p ∈ m, n < p.1

theorem SMap.wf_cons {α : Type} [DecidableEq α] (d : Nat → α) (a : Nat) (b : α) (r : SMap α) :
    SMap.wf d ((a, b) :: r) = true ↔ b ≠ d a ∧ SMap.above a r ∧ SMap.wf d r = true := by
  induction r generalizing a b with
  | nil => simp [SMap.wf, SMap.above]
  | cons p r ih =>
    obtain ⟨a', b'⟩ := p
    have h1 : SMap.wf d ((a, b) :: (a', b') :: r) = true ↔ (b ≠ d a ∧ a < a') ∧ SMap.wf d ((a', b') :: r) = true := by
      simp [SMap.wf]
    rw [h1]
    constructor
    · rintro ⟨⟨h, h'⟩, hw⟩
      refine ⟨h, ?_, hw⟩
      intro q hq
      rcases List.mem_cons.mp hq with rfl | hq
      · exact h'
      · exact lt_trans h' (((ih a' b').mp hw).2.1 q hq)
    · rintro ⟨h, ha, hw⟩
      exact ⟨⟨h, ha (a', b') (by simp)⟩, hw⟩

theorem SMap.above_erase {α : Type} {n : Nat} {m : SMap α} (k : Nat) (h : SMap.above n m) :
    SMap.above n (m.erase k) := by
  induction m with
  | nil => exact h
  | cons p r ih =>
    obtain ⟨a, b⟩ := p
    have hr : SMap.above n r := fun q hq => h q (List.mem_cons_of_mem _ hq)
    unfold SMap.erase
    split
    · exact ih hr
    · intro q hq
      rcases List.mem_cons.mp hq with rfl | hq
      · exact h _ (by simp)
      · exact ih hr q hq

theorem SMap.above_insert {α : Type} {n : Nat} {m : SMap α} {k : Nat} (v : α) (hk : n < k) (h : SMap.above n m) :
    SMap.above n (m.insert k v) := by
  induction m with
  | nil => intro q hq; simp [SMap.insert] at hq; subst hq; exact hk
  | cons p r ih =>
    obtain ⟨a, b⟩ := p
    have hr : SMap.above n r := fun q hq => h q (List.mem_cons_of_mem _ hq)
    unfold SMap.insert
    split
    · intro q hq
      rcases List.mem_cons.mp hq with rfl | hq
      · exact hk
      · exact hr q hq
    · split
      · intro q hq
        rcases List.mem_cons.mp hq with rfl | hq
        · exact hk
        · exact h q hq
      · intro q hq
        rcases List.mem_cons.mp hq with rfl | hq
        · exact h _ (by simp)
        · exact ih hr q hq

theorem SMap.wf_erase {α : Type} [DecidableEq α] {d : Nat → α} {m : SMap α} (k : Nat) (h : SMap.wf d m = true) :
    SMap.wf d (m.erase k) = true := by
  induction m with
  | nil => exact h
  | cons p r ih =>
    obtain ⟨a, b⟩ := p
    obtain ⟨h1, h2, h3⟩ := (SMap.wf_cons d a b r).mp h
    unfold SMap.erase
    split
    · exact ih h3
    · exact (SMap.wf_cons d a b _).mpr ⟨h1, SMap.above_erase k h2, ih h3⟩

theorem SMap.wf_insert {α : Type} [DecidableEq α] {d : Nat → α} {m : SMap α} (k : Nat) {v : α} (hv : v ≠ d k)
    (h : SMap.wf d m = true) : SMap.wf d (m.insert k v) = true := by
  induction m with
  | nil => simp [SMap.insert, SMap.wf, hv]
  | cons p r ih =>
    obtain ⟨a, b⟩ := p
    obtain ⟨h1, h2, h3⟩ := (SMap.wf_cons d a b r).mp h
    unfold SMap.insert
    split
    · rename_i e; subst e; exact (SMap.wf_cons d a v r).mpr ⟨hv, h2, h3⟩
    · split
      · rename_i hk
        refine (SMap.wf_cons d k v _).mpr ⟨hv, ?_, h⟩
        intro q hq
        rcases List.mem_cons.mp hq with rfl | hq
        · exact hk
        · exact lt_trans hk (h2 q hq)
      · exact (SMap.wf_cons d a b _).mpr ⟨h1, SMap.above_insert v (by omega) h2, ih h3⟩

/-- A write keeps the canonical form. -/
theorem SMap.wf_set {α : Type} [DecidableEq α] {d : Nat → α} {m : SMap α} (k : Nat) (v : α) (h : SMap.wf d m = true) :
    SMap.wf d (m.set d k v) = true := by
  unfold SMap.set
  split
  · exact SMap.wf_erase k h
  · rename_i hv; exact SMap.wf_insert k hv h

theorem SMap.wf_put {α : Type} [DecidableEq α] {x : α} {m : SMap α} (k : Nat) (v : α)
    (h : SMap.wf (fun _ => x) m = true) : SMap.wf (fun _ => x) (m.put x k v) = true := SMap.wf_set k v h

theorem SMap.wf_upd {α : Type} [DecidableEq α] {x : α} {m : SMap α} (k : Nat) (f : α → α)
    (h : SMap.wf (fun _ => x) m = true) : SMap.wf (fun _ => x) (m.upd x k f) = true := SMap.wf_put k _ h

end Sys2Proof.Machine
end

