-- ==== Sys2Proof/Laws/Fields.lean ====
section
/-!
SUPPORT. Registers and fields of the state: what a read gives after a write, and that a register write leaves all the rest
of the state as it was.
-/

namespace Sys2Proof.Machine

namespace State

/-- Nothing but the register window differs. -/
theorem wr_eq (s : State) (o : Nat) (v : Word) : s.wr o v = { s with regs := (s.wr o v).regs } := rfl

@[simp] theorem variant_wr (s : State) (o : Nat) (v : Word) : (s.wr o v).variant = s.variant := rfl

@[simp] theorem rd_wr_same (s : State) (o : Nat) (v : Word) : (s.wr o v).rd o = v := SMap.get_set_same _ _ _ _

theorem rd_wr_ne (s : State) {o o' : Nat} (v : Word) (h : o' ≠ o) : (s.wr o v).rd o' = s.rd o' :=
  SMap.get_set_ne _ _ _ h

theorem rd_wr (s : State) (o o' : Nat) (v : Word) : (s.wr o v).rd o' = if o' = o then v else s.rd o' :=
  SMap.get_set _ _ _ _ _

/-- A field within one word. -/
theorem getF_low (s : State) (f : Field) (h : f.lo + f.width ≤ 32) :
    s.getF f = bitsOf (s.rd f.off).toNat f.lo f.width := by
  unfold getF; rw [if_neg (by omega), Nat.add_zero]

theorem setF_low (s : State) (f : Field) (v : Nat) (h : f.lo + f.width ≤ 32) :
    s.setF f v = s.wr f.off (BitVec.ofNat 32 (setBitsOf (s.rd f.off).toNat f.lo f.width v)) := by
  unfold setF; rw [if_pos h]

/-- Nothing but the register window differs. -/
theorem setF_eq (s : State) (f : Field) (v : Nat) : s.setF f v = { s with regs := (s.setF f v).regs } := by
  unfold setF
  split
  · exact wr_eq _ _ _
  · rw [wr_eq (s.wr _ _), wr_eq s]

@[simp] theorem variant_setF (s : State) (f : Field) (v : Nat) : (s.setF f v).variant = s.variant := by
  rw [setF_eq]

/-- A word outside the field's own is untouched. -/
theorem rd_setF_ne (s : State) (f : Field) (v : Nat) {o : Nat} (h : o ≠ f.off)
    (h2 : f.lo + f.width ≤ 32 ∨ o ≠ f.off + 4) : (s.setF f v).rd o = s.rd o := by
  unfold setF
  split
  · exact rd_wr_ne _ _ h
  · dsimp only; rw [rd_wr_ne _ _ (by omega), rd_wr_ne _ _ h]

theorem rd_setF_same (s : State) (f : Field) (v : Nat) (h : f.lo + f.width ≤ 32) :
    ((s.setF f v).rd f.off).toNat = setBitsOf (s.rd f.off).toNat f.lo f.width v := by
  rw [setF_low s f v h, rd_wr_same, BitVec.toNat_ofNat]
  exact Nat.mod_eq_of_lt (setBitsOf_lt (s.rd f.off).isLt h)

theorem getF_lt (s : State) (f : Field) : s.getF f < 2 ^ f.width := bitsOf_lt _ _ _

/-- A field reads as what was written, cut to its width. -/
theorem getF_setF_same (s : State) (f : Field) (v : Nat) (h : f.lo + f.width ≤ 32) :
    (s.setF f v).getF f = v % 2 ^ f.width := by
  rw [getF_low _ _ h, rd_setF_same _ _ _ h, bitsOf_setBitsOf_same]

/-- Another field of the same word, or a field of another word, reads as before. -/
theorem getF_setF_ne (s : State) (f g : Field) (v : Nat) (hf : f.lo + f.width ≤ 32) (hg : g.lo + g.width ≤ 32)
    (h : g.off ≠ f.off ∨ g.lo + g.width ≤ f.lo ∨ f.lo + f.width ≤ g.lo) : (s.setF f v).getF g = s.getF g := by
  rw [getF_low _ _ hg, getF_low _ _ hg]
  by_cases ho : g.off = f.off
  · rw [ho, rd_setF_same _ _ _ hf, bitsOf_setBitsOf_ne _ _ _ _ _ _ (by omega)]
  · rw [rd_setF_ne _ _ _ ho (Or.inl hf)]

end State

end Sys2Proof.Machine
end

