-- ==== Sys2Proof/Laws/Media.lean ====
section
/-!
SUPPORT. Little-endian fields, the media of a drive, and superblocks: what is written is read back.
-/

namespace Sys2Proof.Machine

/-! ## Little-endian fields -/

@[simp] theorem length_leBytes (n v : Nat) : (leBytes n v).length = n := by
  induction n generalizing v with
  | zero => rfl
  | succ n ih => simp [leBytes, ih]

theorem leNat_leBytes (n v : Nat) : leNat (leBytes n v) = v % 256 ^ n := by
  induction n generalizing v with
  | zero => simp [leBytes, leNat, Nat.mod_one]
  | succ n ih =>
    have h : v % 256 ^ (n + 1) = v % 256 + 256 * (v / 256 % 256 ^ n) := by rw [Nat.pow_succ', Nat.mod_mul]
    rw [leBytes, leNat, ih, BitVec.toNat_ofNat, h]

/-- The field that stands behind `a` bytes. -/
theorem fieldAt_append (a b : List Byte) (n v : Nat) : fieldAt (a ++ (leBytes n v ++ b)) a.length n = v % 256 ^ n := by
  rw [fieldAt, List.drop_left, List.take_append_of_le_length (by simp), List.take_of_length_le (by simp), leNat_leBytes]

theorem fieldAt_skip (m v o n : Nat) (b : List Byte) (h : m ≤ o) : fieldAt (leBytes m v ++ b) o n = fieldAt b (o - m) n := by
  rw [fieldAt, List.drop_append, List.drop_eq_nil_of_le (by simpa using h), length_leBytes, List.nil_append, fieldAt]

theorem fieldAt_here (n v : Nat) (b : List Byte) : fieldAt (leBytes n v ++ b) 0 n = v % 256 ^ n := fieldAt_append [] b n v

theorem fieldAt_last (n v : Nat) : fieldAt (leBytes n v) 0 n = v % 256 ^ n := by
  simpa using fieldAt_here n v []

theorem length_padTo (n : Nat) (l : List Byte) : (padTo n l).length = n := by simp [padTo]; omega

/-! ## CRC-32 -/

theorem crc32Bit_lt {c : Nat} (h : c < 2 ^ 32) : crc32Bit c < 2 ^ 32 := by
  unfold crc32Bit
  split
  · exact Nat.xor_lt_two_pow (by omega) (by decide)
  · omega

theorem crc32Byte_lt {c : Nat} (b : Byte) (h : c < 2 ^ 32) : crc32Byte c b < 2 ^ 32 := by
  have := Nat.xor_lt_two_pow h (show b.toNat < 2 ^ 32 by have := b.isLt; omega)
  exact crc32Bit_lt <| crc32Bit_lt <| crc32Bit_lt <| crc32Bit_lt <| crc32Bit_lt <| crc32Bit_lt <| crc32Bit_lt <| crc32Bit_lt this

theorem crc32_lt (l : List Byte) : crc32 l < 2 ^ 32 := by
  have h (l : List Byte) (c : Nat) (hc : c < 2 ^ 32) : crc32Feed c l < 2 ^ 32 := by
    induction l generalizing c with
    | nil => exact hc
    | cons b r ih => exact ih _ (crc32Byte_lt b hc)
  exact Nat.xor_lt_two_pow (h l _ (by decide)) (by decide)

/-! ## Blocks (R392, R393) -/

@[simp] theorem length_sealBlock (l : List Byte) : (sealBlock l).length = 4096 := by
  simp [sealBlock, length_padTo]

/-- A sealed block is one whose CRC is right. -/
theorem sealedBlock_sealBlock (l : List Byte) : sealedBlock (sealBlock l) = true := by
  have h := length_padTo 4092 l
  have e : fieldAt (sealBlock l) 4092 4 = crc32 (padTo 4092 l) := by
    have := fieldAt_append (padTo 4092 l) [] 4 (crc32 (padTo 4092 l))
    rw [h, List.append_nil] at this
    rw [sealBlock, this]
    exact Nat.mod_eq_of_lt (crc32_lt _)
  rw [sealedBlock, e, sealBlock, List.take_append_of_le_length (by omega), List.take_of_length_le (by omega)]
  exact beq_self_eq_true _

/-- The fields that a superblock holds as they stand in it. -/
def RecLayout.fits (y : RecLayout) : Prop :=
  y.generation < 256 ^ 8 ∧ y.setId < 256 ^ 8 ∧ y.member < 256 ^ 1 ∧ y.count < 256 ^ 1 ∧ y.origin < 256 ^ 2 ∧ y.alloc < 256 ^ 4 ∧
    y.blocks < 256 ^ 8 ∧ y.descCount < 256 ^ 4 ∧ y.extentStart < 256 ^ 8 ∧ y.units < 256 ^ 8 ∧ y.dataStart < 256 ^ 8 ∧
    y.stamp < 256 ^ 8

/-- A field of a block that stands within the bytes that were sealed. -/
theorem fieldAt_sealBlock (l : List Byte) (o n : Nat) (h : o + n ≤ l.length) (hl : l.length ≤ 4092) :
    fieldAt (sealBlock l) o n = fieldAt l o n := by
  unfold fieldAt sealBlock padTo
  rw [List.take_of_length_le hl, List.append_assoc, List.drop_append_of_le_length (by omega),
    List.take_append_of_le_length (by simp; omega)]

theorem byteAt_eq_fieldAt (l : List Byte) (o : Nat) : byteAt l o = fieldAt l o 1 := by
  unfold byteAt fieldAt
  rw [List.getD_eq_getElem?_getD, ← List.head?_drop]
  cases List.drop o l <;> simp [leNat]

/-- The superblock that was written is the one that is read (R392). -/
theorem superAt_block (y : RecLayout) (h : y.fits) : superAt y.block = some y := by
  obtain ⟨h1, h2, h3, h4, h5, h6, h7, h8, h9, h10, h11, h12⟩ := h
  unfold superAt RecLayout.block
  rw [sealedBlock_sealBlock]
  simp only [byteAt_eq_fieldAt]
  repeat rw [fieldAt_sealBlock _ _ _ (by simp) (by simp)]
  simp only [List.append_assoc, fieldAt_here, fieldAt_last, fieldAt_skip, Nat.reduceLeDiff, Nat.reduceSub]
  have hf (b : List Byte) : (fieldAt (leBytes 2 (b2n y.formatting) ++ b) 0 1).testBit 0 = y.formatting := by
    cases y.formatting <;> simp [fieldAt, leBytes, leNat, b2n]
  rw [hf, if_pos (by decide)]
  simp only [Nat.mod_eq_of_lt h1, Nat.mod_eq_of_lt h2, Nat.mod_eq_of_lt h3, Nat.mod_eq_of_lt h4, Nat.mod_eq_of_lt h5,
    Nat.mod_eq_of_lt h6, Nat.mod_eq_of_lt h7, Nat.mod_eq_of_lt h8, Nat.mod_eq_of_lt h9, Nat.mod_eq_of_lt h10,
    Nat.mod_eq_of_lt h11, Nat.mod_eq_of_lt h12]

/-- Where nothing is written there is no superblock. -/
theorem superAt_zeros (n : Nat) : superAt (List.replicate n 0#8) = none := by
  have h (k : Nat) : leNat (List.replicate k 0#8) = 0 := by
    induction k with
    | zero => rfl
    | succ k ih => rw [List.replicate_succ, leNat, ih]; rfl
  have e : fieldAt (List.replicate n 0#8) 0 4 = 0 := by rw [fieldAt, List.drop_zero, List.take_replicate, h]
  rw [superAt, e]
  simp

/-! ## Media (R386) -/

/-- What a byte of the media reads as after a write. -/
theorem at_mediaWrite (m : List Host.Cell) (a x : Nat) (l : List Byte) :
    SMap.at 0#8 (mediaWrite m a l) x = if a ≤ x ∧ x < a + l.length then l.getD (x - a) 0#8 else SMap.at 0#8 m x := by
  induction l generalizing m a with
  | nil => rw [mediaWrite, if_neg (by simp)]
  | cons b r ih =>
    rw [mediaWrite, ih]
    by_cases e : x = a
    · subst e; simp
    · rw [SMap.at_put_ne _ _ _ e]
      by_cases h : a ≤ x ∧ x < a + (r.length + 1)
      · rw [if_pos (by omega), if_pos (by simpa using h), show x - a = x - (a + 1) + 1 by omega, List.getD_cons_succ]
      · rw [if_neg (by omega), if_neg (by simpa using h)]

/-- Bytes of the media, one by one. -/
theorem RecDrive.read_eq (d : RecDrive) (a n : Nat) :
    d.read a n = (List.range n).map fun i => SMap.at 0#8 d.media (a + i) := by
  induction n generalizing a with
  | zero => rfl
  | succ n ih => rw [RecDrive.read, ih, List.range_succ_eq_map]; simp [Nat.add_assoc, Nat.add_comm 1]

/-- Media whose first bytes are those of a write of `b` alone: its bytes, and the bytes behind it. -/
theorem RecDrive.read_first (d : RecDrive) (b : List Byte) (n : Nat) (hn : b.length = n)
    (hm : ∀ x, x < 2 * n → SMap.at 0#8 d.media x = SMap.at 0#8 (mediaWrite [] 0 b) x) :
    d.read 0 n = b ∧ d.read n n = List.replicate n 0#8 := by
  subst hn
  constructor <;> rw [RecDrive.read_eq]
  · refine List.ext_getElem (by simp) fun i h1 h2 => ?_
    simp [hm i (by omega), at_mediaWrite, h2]
  · refine List.ext_getElem (by simp) fun i h1 h2 => ?_
    have h3 : i < b.length := by simpa using h1
    simp [hm (b.length + i) (by omega), at_mediaWrite]
    rfl

/-- A drive of which the first superblock alone is written has the layout that stands there (R392). -/
theorem RecDrive.layout_first (d : RecDrive) (y : RecLayout) (h : y.fits) (hf : y.formatting = false)
    (hm : ∀ x, x < 8192 → SMap.at 0#8 d.media x = SMap.at 0#8 (mediaWrite [] 0 y.block) x) : d.layout = some y := by
  obtain ⟨h0, h1⟩ := d.read_first y.block 4096 (length_sealBlock _) hm
  unfold RecDrive.layout RecDrive.super
  rw [h0, h1, superAt_zeros, superAt_block y h]
  simp only [Option.filter, hf, Bool.not_false, if_true]

end Sys2Proof.Machine
end

