-- ==== Sys2Proof/Tests/Slice0.lean ====
section
/-!
SUPPORT. The model's own tests: ill-formed commands, worked examples of the spec, and states that meet the hypotheses of
the statements.
-/

namespace Sys2Proof.Tests

set_option Elab.async false

open Sys2Proof.Machine

/-! ## Well-formed commands -/

/-- A NAL unit in which nothing but an error class is seen. -/
def nal (err : Nat) : NalSeen :=
  { err, refBad := false, id := 0, parent := 0, profile := 0, width := 0, height := 0, cropX := 0, cropY := 0, cropW := 0,
    cropH := 0, chroma := 0, depth := 0, ctb := 0, first := false, addr := 0, dependent := false, poc := 0, intra := false,
    shown := false, refs := [], ctus := [], hashBad := false, recovery := none }

/-- Commands with one operand out of range, from `registerWrite` to `laneLockLost`, are refused by the check. -/
theorem test_wf_refuses_1 : ([
    .registerWrite 65536 4 0#32, .registerWrite 0 2 0#32, .registerWrite 0 0x4000000 0#32,
    .bar2Read 0 0 [⟨32, [⟨0, 0#8⟩]⟩], .bar2Write 0 [] [⟨32, [⟨0, 0#8⟩]⟩],
    .glbLogRdWrite 0#32 (some ⟨16, 0, 0, 0, 0, 0, true⟩), .seeding ⟨[(4, 0)], [], [], 0, 0, 0⟩,
    .loadSlot 4 65535 none, .loadSlot 3 65536 none, .loadHostImage 65536 [] none, .storeHostImage 4 65535 [] none,
    .storeHostImage 3 65536 [] none, .eraseSlot 4 65535, .eraseSlot 3 65536, .keyProgram 8 65535, .keyProgram 7 65536,
    .keyRevoke 8 65535, .keyRevoke 7 65536, .tarborOff 65536, .timeStepCmd 65536,
    .ptpAnnounceRx ⟨4, 0, 0, 0, 0, 0, 0, 0, 0, 0, 0⟩, .ptpSyncRx ⟨0, 256, 0, 0, 0, true, 0, 0⟩,
    .ptpFollowUpRx ⟨0, 256, 0, 0, 0, true, 0, 0⟩, .ptpDelayRespRx ⟨0, 256, 0, 0, 0, true, 0, 0⟩,
    .ptpManagementRx 2 255 true [], .ptpManagementRx 1 256 true [], .frefBoundary 16, .genlockEdge 2 true true 0,
    .genlockLost 2, .trugWrite 512 0#64 none, .trugRead 512 [⟨35, 1#8⟩] 13, .trugRead 511 [⟨36, 1#8⟩] 13,
    .trugRead 511 [⟨35, 1#8⟩] 14, .trugReadUnstall 512 [⟨35, 1#8⟩] 13, .trugReadUnstall 511 [⟨36, 1#8⟩] 13,
    .trugReadUnstall 511 [⟨35, 1#8⟩] 14, .trugFlush 512, .trugFlushDeferred 512, .runRetrain 64,
    .runTierCapWrite 64 3, .runTierCapWrite 63 4, .runPstateReq 64 3, .runPstateReq 63 4, .clockActivityDetect 64,
    .clockLaneLock 64, .lanesAligned 64 (List.replicate 9 0) (List.replicate 9 0),
    .lanesAligned 0 [] (List.replicate 9 0), .lanesAligned 0 (List.replicate 9 0) [],
    .trainBlockRx 64 (List.replicate 16 0#8) true, .trainBlockRx 63 [] true, .equaliseTimeout 64,
    .trainStateTimeout 64, .checkWindowPass 64, .checkFail 64, .tierStep 64, .failedRetry 64,
    .restepRx 64 (List.replicate 16 0#8), .restepRx 63 [], .laneLockLost 64 [], .laneLockLost 0 [9]] : List Instr).all (fun i => !i.wf) = true := by decide

/-- Commands with one operand out of range, from `laneDegraded` to `peSadd`, are refused by the check. -/
theorem test_wf_refuses_2 : ([
    .laneDegraded 64 8 0 0, .laneDegraded 63 9 0 0, .spareRequestRx 64 (List.replicate 16 0#8), .spareRequestRx 63 [],
    .spareDuplicatingRx 64 (List.replicate 16 0#8), .spareDuplicatingRx 63 [], .spareCompareDone 64 8,
    .spareCompareDone 63 9, .spareSwitchedRx 64 (List.replicate 16 0#8), .spareSwitchedRx 63 [],
    .spareNarrowRx 64 (List.replicate 16 0#8), .spareNarrowRx 63 [], .clockLaneLost 64 [], .l1IdleTimeout 64,
    .l1EnterRx 64 (List.replicate 16 0#8), .l1EnterRx 63 [], .l1Exit 64, .l1ExitRx 64 (List.replicate 16 0#8),
    .l1ExitRx 63 [], .l2EnterRx 64, .l2ExitCheckDone 64 true, .rawClockActive 64, .rawClockLock 64 0,
    .sofCode ⟨64, 0, 0, true, []⟩, .eofCode ⟨64, 0, 0, true, []⟩, .solCode ⟨64, 0, 0, true, []⟩,
    .eolCode ⟨64, 0, 0, true, []⟩, .segmentWindowExpire 64, .sofWindowExpire 64 [], .frameTimeout 64 [],
    .cutMarkerWrite 512, .ingPruneWrite 64 true 0#32, .mergerEmit 32 [⟨0, [], 1⟩], .mergerEmit 31 [⟨0, [], 14⟩],
    .mergerWindowExpire 32 [⟨0, [], 1⟩], .mergerWindowExpire 31 [⟨0, [], 14⟩], .bedUnitAccept 16 [⟨32, [⟨0, 1#8⟩]⟩],
    .bedUnitAccept 15 [⟨32, [⟨0, 0#8⟩]⟩], .bedLineEmit 16 7 2, .bedLineEmit 15 8 2, .bedLineEmit 15 7 3,
    .bedTablePointerWrite 16 7 7 0, .bedTablePointerWrite 15 8 7 0, .bedTablePointerWrite 15 7 8 0,
    .tableCopyDone 16 7 7 [⟨32, [⟨0, 1#8⟩]⟩], .tableCopyDone 15 8 7 [⟨32, [⟨0, 1#8⟩]⟩],
    .tableCopyDone 15 7 8 [⟨32, [⟨0, 1#8⟩]⟩], .tableCopyDone 15 7 7 [⟨32, [⟨0, 0#8⟩]⟩], .bedShadowHoldWrite 16 7 true,
    .bedShadowHoldWrite 15 8 true, .bedCropWrite 16 7 true 0#32, .bedCropWrite 15 8 true 0#32,
    .bedEncWrite 16 7 1 true 0#32, .bedEncWrite 15 8 1 true 0#32, .bedEncWrite 15 7 2 true 0#32,
    .bedScaleWrite 16 7 0#32, .bedScaleWrite 15 8 0#32, .peNop 68 ⟨3, 63, 63, 63, 63, 0#30⟩,
    .peNop 0 ⟨0, 0, 0, 64, 0, 0#30⟩, .peSadd 68 ⟨3, 63, 63, 63, 63, 0#30⟩] : List Instr).all (fun i => !i.wf) = true := by decide

/-- Commands with one operand out of range, from `peSadd` to `peVclamp`, are refused by the check. -/
theorem test_wf_refuses_3 : ([
    .peSadd 0 ⟨0, 0, 0, 64, 0, 0#30⟩, .peSsub 68 ⟨3, 63, 63, 63, 63, 0#30⟩, .peSsub 0 ⟨0, 0, 0, 64, 0, 0#30⟩,
    .peSaddi 68 ⟨3, 63, 63, 63, 63, 0#30⟩, .peSaddi 0 ⟨0, 0, 0, 64, 0, 0#30⟩, .peSmul 68 ⟨3, 63, 63, 63, 63, 0#30⟩,
    .peSmul 0 ⟨0, 0, 0, 64, 0, 0#30⟩, .peSand 68 ⟨3, 63, 63, 63, 63, 0#30⟩, .peSand 0 ⟨0, 0, 0, 64, 0, 0#30⟩,
    .peSor 68 ⟨3, 63, 63, 63, 63, 0#30⟩, .peSor 0 ⟨0, 0, 0, 64, 0, 0#30⟩, .peSxor 68 ⟨3, 63, 63, 63, 63, 0#30⟩,
    .peSxor 0 ⟨0, 0, 0, 64, 0, 0#30⟩, .peSshli 68 ⟨3, 63, 63, 63, 63, 0#30⟩, .peSshli 0 ⟨0, 0, 0, 64, 0, 0#30⟩,
    .peSsrli 68 ⟨3, 63, 63, 63, 63, 0#30⟩, .peSsrli 0 ⟨0, 0, 0, 64, 0, 0#30⟩, .peSsrai 68 ⟨3, 63, 63, 63, 63, 0#30⟩,
    .peSsrai 0 ⟨0, 0, 0, 64, 0, 0#30⟩, .peSli 68 ⟨3, 63, 63, 63, 63, 0#30⟩, .peSli 0 ⟨0, 0, 0, 64, 0, 0#30⟩,
    .peSlih 68 ⟨3, 63, 63, 63, 63, 0#30⟩, .peSlih 0 ⟨0, 0, 0, 64, 0, 0#30⟩, .peSlt 68 ⟨3, 63, 63, 63, 63, 0#30⟩,
    .peSlt 0 ⟨0, 0, 0, 64, 0, 0#30⟩, .peSprm 68 ⟨3, 63, 63, 63, 63, 0#30⟩, .peSprm 0 ⟨0, 0, 0, 64, 0, 0#30⟩,
    .peBr 68 ⟨3, 63, 63, 63, 63, 0#30⟩, .peBr 0 ⟨0, 0, 0, 64, 0, 0#30⟩, .peEnd 68 ⟨3, 63, 63, 63, 63, 0#30⟩,
    .peEnd 0 ⟨0, 0, 0, 64, 0, 0#30⟩, .peVadd 68 ⟨3, 63, 63, 63, 63, 0#30⟩, .peVadd 0 ⟨0, 0, 0, 64, 0, 0#30⟩,
    .peVsub 68 ⟨3, 63, 63, 63, 63, 0#30⟩, .peVsub 0 ⟨0, 0, 0, 64, 0, 0#30⟩, .peVmulsh 68 ⟨3, 63, 63, 63, 63, 0#30⟩,
    .peVmulsh 0 ⟨0, 0, 0, 64, 0, 0#30⟩, .peVmadsh 68 ⟨3, 63, 63, 63, 63, 0#30⟩, .peVmadsh 0 ⟨0, 0, 0, 64, 0, 0#30⟩,
    .peVmin 68 ⟨3, 63, 63, 63, 63, 0#30⟩, .peVmin 0 ⟨0, 0, 0, 64, 0, 0#30⟩, .peVmax 68 ⟨3, 63, 63, 63, 63, 0#30⟩,
    .peVmax 0 ⟨0, 0, 0, 64, 0, 0#30⟩, .peVabs 68 ⟨3, 63, 63, 63, 63, 0#30⟩, .peVabs 0 ⟨0, 0, 0, 64, 0, 0#30⟩,
    .peVand 68 ⟨3, 63, 63, 63, 63, 0#30⟩, .peVand 0 ⟨0, 0, 0, 64, 0, 0#30⟩, .peVor 68 ⟨3, 63, 63, 63, 63, 0#30⟩,
    .peVor 0 ⟨0, 0, 0, 64, 0, 0#30⟩, .peVxor 68 ⟨3, 63, 63, 63, 63, 0#30⟩, .peVxor 0 ⟨0, 0, 0, 64, 0, 0#30⟩,
    .peVshli 68 ⟨3, 63, 63, 63, 63, 0#30⟩, .peVshli 0 ⟨0, 0, 0, 64, 0, 0#30⟩, .peVsrli 68 ⟨3, 63, 63, 63, 63, 0#30⟩,
    .peVsrli 0 ⟨0, 0, 0, 64, 0, 0#30⟩, .peVsrai 68 ⟨3, 63, 63, 63, 63, 0#30⟩, .peVsrai 0 ⟨0, 0, 0, 64, 0, 0#30⟩,
    .peVrsh 68 ⟨3, 63, 63, 63, 63, 0#30⟩, .peVrsh 0 ⟨0, 0, 0, 64, 0, 0#30⟩, .peVclamp 68 ⟨3, 63, 63, 63, 63, 0#30⟩] : List Instr).all (fun i => !i.wf) = true := by decide

/-- Commands with one operand out of range, from `peVclamp` to `peSst`, are refused by the check. -/
theorem test_wf_refuses_4 : ([
    .peVclamp 0 ⟨0, 0, 0, 64, 0, 0#30⟩, .peVsel 68 ⟨3, 63, 63, 63, 63, 0#30⟩, .peVsel 0 ⟨0, 0, 0, 64, 0, 0#30⟩,
    .peVcmplt 68 ⟨3, 63, 63, 63, 63, 0#30⟩, .peVcmplt 0 ⟨0, 0, 0, 64, 0, 0#30⟩,
    .peVcmpeq 68 ⟨3, 63, 63, 63, 63, 0#30⟩, .peVcmpeq 0 ⟨0, 0, 0, 64, 0, 0#30⟩,
    .peVcmple 68 ⟨3, 63, 63, 63, 63, 0#30⟩, .peVcmple 0 ⟨0, 0, 0, 64, 0, 0#30⟩, .peVspl 68 ⟨3, 63, 63, 63, 63, 0#30⟩,
    .peVspl 0 ⟨0, 0, 0, 64, 0, 0#30⟩, .peVbrd 68 ⟨3, 63, 63, 63, 63, 0#30⟩, .peVbrd 0 ⟨0, 0, 0, 64, 0, 0#30⟩,
    .peVpack 68 ⟨3, 63, 63, 63, 63, 0#30⟩, .peVpack 0 ⟨0, 0, 0, 64, 0, 0#30⟩, .peVunpl 68 ⟨3, 63, 63, 63, 63, 0#30⟩,
    .peVunpl 0 ⟨0, 0, 0, 64, 0, 0#30⟩, .peVunph 68 ⟨3, 63, 63, 63, 63, 0#30⟩, .peVunph 0 ⟨0, 0, 0, 64, 0, 0#30⟩,
    .peVshuf 68 ⟨3, 63, 63, 63, 63, 0#30⟩, .peVshuf 0 ⟨0, 0, 0, 64, 0, 0#30⟩, .peVext 68 ⟨3, 63, 63, 63, 63, 0#30⟩,
    .peVext 0 ⟨0, 0, 0, 64, 0, 0#30⟩, .peVins 68 ⟨3, 63, 63, 63, 63, 0#30⟩, .peVins 0 ⟨0, 0, 0, 64, 0, 0#30⟩,
    .peVred 68 ⟨3, 63, 63, 63, 63, 0#30⟩, .peVred 0 ⟨0, 0, 0, 64, 0, 0#30⟩, .peFadd 68 ⟨3, 63, 63, 63, 63, 0#30⟩,
    .peFadd 0 ⟨0, 0, 0, 64, 0, 0#30⟩, .peFsub 68 ⟨3, 63, 63, 63, 63, 0#30⟩, .peFsub 0 ⟨0, 0, 0, 64, 0, 0#30⟩,
    .peFmul 68 ⟨3, 63, 63, 63, 63, 0#30⟩, .peFmul 0 ⟨0, 0, 0, 64, 0, 0#30⟩, .peFma 68 ⟨3, 63, 63, 63, 63, 0#30⟩,
    .peFma 0 ⟨0, 0, 0, 64, 0, 0#30⟩, .peFmin 68 ⟨3, 63, 63, 63, 63, 0#30⟩, .peFmin 0 ⟨0, 0, 0, 64, 0, 0#30⟩,
    .peFmax 68 ⟨3, 63, 63, 63, 63, 0#30⟩, .peFmax 0 ⟨0, 0, 0, 64, 0, 0#30⟩, .peFcvtif 68 ⟨3, 63, 63, 63, 63, 0#30⟩,
    .peFcvtif 0 ⟨0, 0, 0, 64, 0, 0#30⟩, .peFcvtfi 68 ⟨3, 63, 63, 63, 63, 0#30⟩, .peFcvtfi 0 ⟨0, 0, 0, 64, 0, 0#30⟩,
    .peFrcp 68 ⟨3, 63, 63, 63, 63, 0#30⟩, .peFrcp 0 ⟨0, 0, 0, 64, 0, 0#30⟩, .peFrsq 68 ⟨3, 63, 63, 63, 63, 0#30⟩,
    .peFrsq 0 ⟨0, 0, 0, 64, 0, 0#30⟩, .peFlog2 68 ⟨3, 63, 63, 63, 63, 0#30⟩, .peFlog2 0 ⟨0, 0, 0, 64, 0, 0#30⟩,
    .peFexp2 68 ⟨3, 63, 63, 63, 63, 0#30⟩, .peFexp2 0 ⟨0, 0, 0, 64, 0, 0#30⟩, .peVld 68 ⟨3, 63, 63, 63, 63, 0#30⟩,
    .peVld 0 ⟨0, 0, 0, 64, 0, 0#30⟩, .peVst 68 ⟨3, 63, 63, 63, 63, 0#30⟩, .peVst 0 ⟨0, 0, 0, 64, 0, 0#30⟩,
    .peVgath 68 ⟨3, 63, 63, 63, 63, 0#30⟩, .peVgath 0 ⟨0, 0, 0, 64, 0, 0#30⟩, .peSld 68 ⟨3, 63, 63, 63, 63, 0#30⟩,
    .peSld 0 ⟨0, 0, 0, 64, 0, 0#30⟩, .peSst 68 ⟨3, 63, 63, 63, 63, 0#30⟩] : List Instr).all (fun i => !i.wf) = true := by decide

/-- Commands with one operand out of range, from `peSst` to `memRetrainForced`, are refused by the check. -/
theorem test_wf_refuses_5 : ([
    .peSst 0 ⟨0, 0, 0, 64, 0, 0#30⟩, .peWld 68 ⟨3, 63, 63, 63, 63, 0#30⟩, .peWld 0 ⟨0, 0, 0, 64, 0, 0#30⟩,
    .peWst 68 ⟨3, 63, 63, 63, 63, 0#30⟩, .peWst 0 ⟨0, 0, 0, 64, 0, 0#30⟩, .lineCapExceeded 68, .peDegraded 68 0 0,
    .peHardFault 68 3 0, .peHardFault 67 4 0, .constRestored 68 0, .peTargetLoaded 68,
    .encPictureStart 16 [⟨0, [], 1⟩] [⟨32, [⟨0, 1#8⟩]⟩], .encPictureStart 15 [⟨0, [], 14⟩] [⟨32, [⟨0, 1#8⟩]⟩],
    .encPictureStart 15 [⟨0, [], 1⟩] [⟨32, [⟨0, 0#8⟩]⟩], .encCtuRowCode 16 [⟨0, [], 1⟩] [⟨32, [⟨0, 1#8⟩]⟩] 0 true,
    .encCtuRowCode 15 [⟨0, [], 14⟩] [⟨32, [⟨0, 1#8⟩]⟩] 0 true,
    .encCtuRowCode 15 [⟨0, [], 1⟩] [⟨32, [⟨0, 0#8⟩]⟩] 0 true, .encKeyIdr 16 7, .encKeyIdr 15 8, .encKeySweep 16 7,
    .encKeySweep 15 8, .seCapWrite 16 7 0#32, .seCapWrite 15 8 0#32,
    .decNalUnit 16 7 (nal 10) [⟨0, [], 1⟩] [⟨32, [⟨0, 1#8⟩]⟩],
    .decNalUnit 15 8 (nal 10) [⟨0, [], 1⟩] [⟨32, [⟨0, 1#8⟩]⟩],
    .decNalUnit 15 7 (nal 11) [⟨0, [], 1⟩] [⟨32, [⟨0, 1#8⟩]⟩],
    .decNalUnit 15 7 (nal 10) [⟨0, [], 14⟩] [⟨32, [⟨0, 1#8⟩]⟩],
    .decNalUnit 15 7 (nal 10) [⟨0, [], 1⟩] [⟨32, [⟨0, 0#8⟩]⟩], .decPictureOutput 16 7 true,
    .decPictureOutput 15 8 true, .decWrWrite 16 7 0#32, .decWrWrite 15 8 0#32, .decFlush 16 7, .decFlush 15 8,
    .decResync 16 7, .decResync 15 8, .decEos 16 7, .decEos 15 8, .mosaicHeaderTimeout 16 7,
    .mosaicHeaderTimeout 15 8, .headLine 8 [⟨0, [], 1⟩] [⟨32, [⟨0, 1#8⟩]⟩],
    .headLine 7 [⟨0, [], 14⟩] [⟨32, [⟨0, 1#8⟩]⟩], .headLine 7 [⟨0, [], 1⟩] [⟨32, [⟨0, 0#8⟩]⟩],
    .headUnderrun 8 3 0 true, .headUnderrun 7 4 0 true, .headCommitReq 8, .headGroupCommitReq 4, .headStatusRead 8,
    .headCrcRectWrite 8 15 true 0#32, .headCrcRectWrite 7 16 true 0#32,
    .memRequest ⟨9, 0, 0, 0, [], 0, 0, true, true, 0⟩, .memIssue 128 [⟨32, [⟨0, 1#8⟩]⟩],
    .memIssue 127 [⟨32, [⟨0, 0#8⟩]⟩], .memDrainIdleTimeout 128, .memIdlePowerdown 128 2, .memIdlePowerdown 127 3,
    .memRefresh 128 47, .memRefresh 127 48, .memRetrain 128 true, .memRetrainForced 128 true] : List Instr).all (fun i => !i.wf) = true := by decide

/-- Commands with one operand out of range, from `memScrub` to `hrwGraftSend`, are refused by the check. -/
theorem test_wf_refuses_6 : ([
    .memScrub 0 [⟨36, 1#8⟩], .memRowRemap 128 [⟨32, [⟨0, 1#8⟩]⟩], .memRowRemap 127 [⟨32, [⟨0, 0#8⟩]⟩],
    .memPcRetire 128, .memRetireComplete 128 [⟨32, [⟨0, 1#8⟩]⟩], .memRetireComplete 127 [⟨32, [⟨0, 0#8⟩]⟩],
    .recSqSizeWrite 64 0 63 3, .recSqSizeWrite 63 0 64 3, .recSqSizeWrite 63 0 63 4, .recCqSizeWrite 64 0 true,
    .recSqDoorbell 64 0, .recCqDoorbell 64 0, .recFetch [], .recCompletionPost 64, .recSqReset 64,
    .recTempWinWrite 4 0#32, .recPortLinkReset 2 15 5 15 5, .recPortLinkReset 1 16 5 15 5,
    .recPortLinkReset 1 15 6 15 5, .recPortLinkReset 1 15 5 16 5, .recPortLinkReset 1 15 5 15 6,
    .recItemTake 32 [⟨0, [], 1⟩] [⟨32, [⟨0, 1#8⟩]⟩], .recItemTake 31 [⟨0, [], 14⟩] [⟨32, [⟨0, 1#8⟩]⟩],
    .recItemTake 31 [⟨0, [], 1⟩] [⟨32, [⟨0, 0#8⟩]⟩], .recMediaWrite 32, .recCheckpoint 32, .recTempPoll 4 0,
    .recStopWaitExpire 32, .driveLost 4,
    .driveAttached 4 ⟨List.replicate 40 0#8, List.replicate 20 0#8, 0, true, 0, 0, []⟩,
    .driveAttached 3 ⟨[], [], 0, true, 0, 0, []⟩, .hrwItemRx 64 [⟨List.replicate 32 0#8, false⟩],
    .hrwItemRx 63 [⟨[], false⟩], .hrwForwardStart 2, .hrwSendItem 64 [⟨0, [], 1⟩], .hrwSendItem 63 [⟨0, [], 14⟩],
    .hello 64 (List.replicate 16 0#8), .hello 63 [], .helloTimer 2, .enumToken 64 (List.replicate 16 0#8),
    .enumToken 63 [], .enumAck 64 (List.replicate 16 0#8), .enumAck 63 [], .enumEnd 64 (List.replicate 16 0#8),
    .enumEnd 63 [], .enumDone 64 (List.replicate 16 0#8), .enumDone 63 [], .join 64 (List.replicate 16 0#8),
    .join 63 [], .timeReq 64 (List.replicate 16 0#8) 0, .timeReq 63 [] 0, .timeResp 64 (List.replicate 16 0#8),
    .timeResp 63 [], .graftStatus 64 (List.replicate 16 0#8), .graftStatus 63 [],
    .graftCommit 64 (List.replicate 16 0#8), .graftCommit 63 [], .wake 64 (List.replicate 16 0#8), .wake 63 [],
    .hrwGraftSend 4096 true 65535 [] none] : List Instr).all (fun i => !i.wf) = true := by decide

/-- Commands with one operand out of range, from `hrwGraftSend` to `rawRateBand`, are refused by the check. -/
theorem test_wf_refuses_7 : ([
    .hrwGraftSend 4095 true 65536 [] none, .hrwGraftCommitCmd 4096 true 65535, .hrwGraftCommitCmd 4095 true 65536,
    .hrwBrokenRetry 2, .hrwLinkLost 2, .hrwRouteWrite 64 0#32, .hrwSendWrite 64 0#32 0#32, .wakePatternDetect 2,
    .wakePatternEnd 2, .audFrameIn 12 [] [] true, .audBlockComplete 12, .audFrameOut 12 true [⟨32, [⟨0, 1#8⟩]⟩],
    .audFrameOut 11 true [⟨32, [⟨0, 0#8⟩]⟩], .audOutBlockBoundary 12, .aesCsBlock 12 (List.replicate 24 0#8),
    .aesCsBlock 0 [], .aesLockLost 12, .audNonaudioEnd 12 31, .audNonaudioEnd 11 32, .audSlotMaskWrite 12 0#32 true,
    .audSlotMaskApply 12, .audTx30Packet 2 [⟨32, [⟨0, 1#8⟩]⟩], .audTx30Packet 1 [⟨32, [⟨0, 0#8⟩]⟩], .evtEdge 32 true,
    .twineChannelEvent 256, .evtOutPulseEnd 32, .knotFilterPass 128, .loopGuardTrip 128, .twnFireWrite 8 0#32,
    .twineTimerFire 8, .twnTimerAtWrite 8 0#32, .mbxPost 64 65535, .mbxPost 63 65536, .mbxTake 64 65535 [],
    .mbxTake 63 65536 [], .mbxRing 64 65535 0#32, .mbxRing 63 65536 0#32, .mbxPendingClear 64 65535 0#32,
    .mbxPendingClear 63 65536 0#32, .mbxLockRead 64 65535, .mbxLockRead 63 65536, .mbxLockWrite 64 65535 0#32,
    .mbxLockWrite 63 65536 0#32, .mbxSlotWrite 64 65535 0 0#32, .mbxSlotWrite 63 65536 0 0#32, .mbxParamServe 64 true,
    .pwrReqDormant 65536, .pwrReqFallow 65536, .pwrReqWake 65536, .softReset 32, .softResetDone 32, .thermalTrip 28 0,
    .calOverwrite 65536 [], .calCopy 65536, .unknownMessageRx 64 (List.replicate 16 0#8), .unknownMessageRx 63 [],
    .aesLockGained 12, .rawRateBand 64 0] : List Instr).all (fun i => !i.wf) = true := by decide

/-- With every operand at its last value the check admits them. -/
theorem test_wf_admits_1 : ([
    .bar2Read 0 0 [⟨32, [⟨0, 1#8⟩]⟩], .bar2Write 0 [] [⟨32, [⟨0, 1#8⟩]⟩],
    .glbLogRdWrite 0#32 (some ⟨15, 0, 0, 0, 0, 0, true⟩), .seeding ⟨[(3, 0)], [127], [(63, 3)], 0, 0, 0⟩,
    .loadSlot 3 65535 none, .loadHostImage 65535 [] none, .storeHostImage 3 65535 [] none, .eraseSlot 3 65535,
    .keyProgram 7 65535, .keyRevoke 7 65535, .tarborOff 65535, .timeStepCmd 65535,
    .ptpAnnounceRx ⟨0, 0, 0, 0, 0, 0, 0, 0, 0, 0, 0⟩, .ptpSyncRx ⟨0, 0, 0, 0, 0, true, 0, 0⟩,
    .ptpFollowUpRx ⟨0, 0, 0, 0, 0, true, 0, 0⟩, .ptpDelayRespRx ⟨0, 0, 0, 0, 0, true, 0, 0⟩,
    .ptpManagementRx 1 255 true [], .frefBoundary 15, .genlockEdge 1 true true 0, .genlockLost 1,
    .trugWrite 511 0#64 none, .trugRead 511 [⟨35, 1#8⟩] 13, .trugReadUnstall 511 [⟨35, 1#8⟩] 13, .trugFlush 511,
    .trugFlushDeferred 511, .runRetrain 63, .runTierCapWrite 63 3, .runPstateReq 63 3, .clockActivityDetect 63,
    .clockLaneLock 63, .trainBlockRx 63 (List.replicate 16 0#8) true, .equaliseTimeout 63, .trainStateTimeout 63,
    .checkWindowPass 63, .checkFail 63, .tierStep 63, .failedRetry 63, .restepRx 63 (List.replicate 16 0#8),
    .laneDegraded 63 8 0 0, .spareRequestRx 63 (List.replicate 16 0#8),
    .spareDuplicatingRx 63 (List.replicate 16 0#8), .spareCompareDone 63 8,
    .spareSwitchedRx 63 (List.replicate 16 0#8), .spareNarrowRx 63 (List.replicate 16 0#8), .clockLaneLost 63 [],
    .l1IdleTimeout 63, .l1EnterRx 63 (List.replicate 16 0#8), .l1Exit 63, .l1ExitRx 63 (List.replicate 16 0#8),
    .l2EnterRx 63, .l2ExitCheckDone 63 true, .rawClockActive 63, .rawClockLock 63 0, .sofCode ⟨63, 0, 0, true, []⟩,
    .eofCode ⟨63, 0, 0, true, []⟩, .solCode ⟨63, 0, 0, true, []⟩, .eolCode ⟨63, 0, 0, true, []⟩,
    .segmentWindowExpire 63, .sofWindowExpire 63 [], .frameTimeout 63 [], .cutMarkerWrite 511,
    .ingPruneWrite 63 true 0#32, .mergerEmit 31 [⟨0, [], 1⟩], .mergerWindowExpire 31 [⟨0, [], 1⟩],
    .bedUnitAccept 15 [⟨32, [⟨0, 1#8⟩]⟩], .bedLineEmit 15 7 2, .bedTablePointerWrite 15 7 7 0,
    .tableCopyDone 15 7 7 [⟨32, [⟨0, 1#8⟩]⟩], .bedShadowHoldWrite 15 7 true, .bedCropWrite 15 7 true 0#32,
    .bedEncWrite 15 7 1 true 0#32, .bedScaleWrite 15 7 0#32, .peNop 67 ⟨3, 63, 63, 63, 63, 0#30⟩,
    .peSadd 67 ⟨3, 63, 63, 63, 63, 0#30⟩, .peSsub 67 ⟨3, 63, 63, 63, 63, 0#30⟩, .peSaddi 67 ⟨3, 63, 63, 63, 63, 0#30⟩,
    .peSmul 67 ⟨3, 63, 63, 63, 63, 0#30⟩, .peSand 67 ⟨3, 63, 63, 63, 63, 0#30⟩, .peSor 67 ⟨3, 63, 63, 63, 63, 0#30⟩,
    .peSxor 67 ⟨3, 63, 63, 63, 63, 0#30⟩, .peSshli 67 ⟨3, 63, 63, 63, 63, 0#30⟩, .peSsrli 67 ⟨3, 63, 63, 63, 63, 0#30⟩] : List Instr).all Instr.wf = true := by decide

/-- With every operand at its last value the check admits them. -/
theorem test_wf_admits_2 : ([
    .peSsrai 67 ⟨3, 63, 63, 63, 63, 0#30⟩, .peSli 67 ⟨3, 63, 63, 63, 63, 0#30⟩, .peSlih 67 ⟨3, 63, 63, 63, 63, 0#30⟩,
    .peSlt 67 ⟨3, 63, 63, 63, 63, 0#30⟩, .peSprm 67 ⟨3, 63, 63, 63, 63, 0#30⟩, .peBr 67 ⟨3, 63, 63, 63, 63, 0#30⟩,
    .peEnd 67 ⟨3, 63, 63, 63, 63, 0#30⟩, .peVadd 67 ⟨3, 63, 63, 63, 63, 0#30⟩, .peVsub 67 ⟨3, 63, 63, 63, 63, 0#30⟩,
    .peVmulsh 67 ⟨3, 63, 63, 63, 63, 0#30⟩, .peVmadsh 67 ⟨3, 63, 63, 63, 63, 0#30⟩,
    .peVmin 67 ⟨3, 63, 63, 63, 63, 0#30⟩, .peVmax 67 ⟨3, 63, 63, 63, 63, 0#30⟩, .peVabs 67 ⟨3, 63, 63, 63, 63, 0#30⟩,
    .peVand 67 ⟨3, 63, 63, 63, 63, 0#30⟩, .peVor 67 ⟨3, 63, 63, 63, 63, 0#30⟩, .peVxor 67 ⟨3, 63, 63, 63, 63, 0#30⟩,
    .peVshli 67 ⟨3, 63, 63, 63, 63, 0#30⟩, .peVsrli 67 ⟨3, 63, 63, 63, 63, 0#30⟩,
    .peVsrai 67 ⟨3, 63, 63, 63, 63, 0#30⟩, .peVrsh 67 ⟨3, 63, 63, 63, 63, 0#30⟩,
    .peVclamp 67 ⟨3, 63, 63, 63, 63, 0#30⟩, .peVsel 67 ⟨3, 63, 63, 63, 63, 0#30⟩,
    .peVcmplt 67 ⟨3, 63, 63, 63, 63, 0#30⟩, .peVcmpeq 67 ⟨3, 63, 63, 63, 63, 0#30⟩,
    .peVcmple 67 ⟨3, 63, 63, 63, 63, 0#30⟩, .peVspl 67 ⟨3, 63, 63, 63, 63, 0#30⟩,
    .peVbrd 67 ⟨3, 63, 63, 63, 63, 0#30⟩, .peVpack 67 ⟨3, 63, 63, 63, 63, 0#30⟩,
    .peVunpl 67 ⟨3, 63, 63, 63, 63, 0#30⟩, .peVunph 67 ⟨3, 63, 63, 63, 63, 0#30⟩,
    .peVshuf 67 ⟨3, 63, 63, 63, 63, 0#30⟩, .peVext 67 ⟨3, 63, 63, 63, 63, 0#30⟩, .peVins 67 ⟨3, 63, 63, 63, 63, 0#30⟩,
    .peVred 67 ⟨3, 63, 63, 63, 63, 0#30⟩, .peFadd 67 ⟨3, 63, 63, 63, 63, 0#30⟩, .peFsub 67 ⟨3, 63, 63, 63, 63, 0#30⟩,
    .peFmul 67 ⟨3, 63, 63, 63, 63, 0#30⟩, .peFma 67 ⟨3, 63, 63, 63, 63, 0#30⟩, .peFmin 67 ⟨3, 63, 63, 63, 63, 0#30⟩,
    .peFmax 67 ⟨3, 63, 63, 63, 63, 0#30⟩, .peFcvtif 67 ⟨3, 63, 63, 63, 63, 0#30⟩,
    .peFcvtfi 67 ⟨3, 63, 63, 63, 63, 0#30⟩, .peFrcp 67 ⟨3, 63, 63, 63, 63, 0#30⟩,
    .peFrsq 67 ⟨3, 63, 63, 63, 63, 0#30⟩, .peFlog2 67 ⟨3, 63, 63, 63, 63, 0#30⟩,
    .peFexp2 67 ⟨3, 63, 63, 63, 63, 0#30⟩, .peVld 67 ⟨3, 63, 63, 63, 63, 0#30⟩, .peVst 67 ⟨3, 63, 63, 63, 63, 0#30⟩,
    .peVgath 67 ⟨3, 63, 63, 63, 63, 0#30⟩, .peSld 67 ⟨3, 63, 63, 63, 63, 0#30⟩, .peSst 67 ⟨3, 63, 63, 63, 63, 0#30⟩,
    .peWld 67 ⟨3, 63, 63, 63, 63, 0#30⟩, .peWst 67 ⟨3, 63, 63, 63, 63, 0#30⟩, .lineCapExceeded 67, .peDegraded 67 0 0,
    .peHardFault 67 3 0, .constRestored 67 0, .peTargetLoaded 67, .encPictureStart 15 [⟨0, [], 1⟩] [⟨32, [⟨0, 1#8⟩]⟩],
    .encCtuRowCode 15 [⟨0, [], 1⟩] [⟨32, [⟨0, 1#8⟩]⟩] 0 true, .encKeyIdr 15 7, .encKeySweep 15 7,
    .seCapWrite 15 7 0#32, .decNalUnit 15 7 (nal 10) [⟨0, [], 1⟩] [⟨32, [⟨0, 1#8⟩]⟩], .decPictureOutput 15 7 true,
    .decWrWrite 15 7 0#32, .decFlush 15 7, .decResync 15 7, .decEos 15 7, .mosaicHeaderTimeout 15 7,
    .headLine 7 [⟨0, [], 1⟩] [⟨32, [⟨0, 1#8⟩]⟩], .headUnderrun 7 3 0 true, .headCommitReq 7, .headGroupCommitReq 3,
    .headStatusRead 7, .headCrcRectWrite 7 15 true 0#32, .memRequest ⟨8, 0, 0, 0, [], 32, 0, true, true, 0⟩,
    .memIssue 127 [⟨32, [⟨0, 1#8⟩]⟩], .memDrainIdleTimeout 127, .memIdlePowerdown 127 2, .memRefresh 127 47] : List Instr).all Instr.wf = true := by decide

/-- With every operand at its last value the check admits them. -/
theorem test_wf_admits_3 : ([
    .memRetrain 127 true, .memRetrainForced 127 true, .memScrub 0 [⟨35, 1#8⟩], .memRowRemap 127 [⟨32, [⟨0, 1#8⟩]⟩],
    .memPcRetire 127, .memRetireComplete 127 [⟨32, [⟨0, 1#8⟩]⟩], .recSqSizeWrite 63 0 63 3, .recCqSizeWrite 63 0 true,
    .recSqDoorbell 63 0, .recCqDoorbell 63 0, .recFetch (List.replicate 64 0#8), .recCompletionPost 63,
    .recSqReset 63, .recTempWinWrite 3 0#32, .recPortLinkReset 1 15 5 15 5,
    .recItemTake 31 [⟨0, [], 1⟩] [⟨32, [⟨0, 1#8⟩]⟩], .recMediaWrite 31, .recCheckpoint 31, .recTempPoll 3 0,
    .recStopWaitExpire 31, .driveLost 3,
    .driveAttached 3 ⟨List.replicate 40 0#8, List.replicate 20 0#8, 0, true, 0, 0, []⟩,
    .hrwItemRx 63 [⟨List.replicate 32 0#8, false⟩], .hrwForwardStart 1, .hrwSendItem 63 [⟨0, [], 1⟩],
    .hello 63 (List.replicate 16 0#8), .helloTimer 1, .enumToken 63 (List.replicate 16 0#8),
    .enumAck 63 (List.replicate 16 0#8), .enumEnd 63 (List.replicate 16 0#8), .enumDone 63 (List.replicate 16 0#8),
    .join 63 (List.replicate 16 0#8), .timeReq 63 (List.replicate 16 0#8) 0, .timeResp 63 (List.replicate 16 0#8),
    .graftStatus 63 (List.replicate 16 0#8), .graftCommit 63 (List.replicate 16 0#8),
    .wake 63 (List.replicate 16 0#8), .hrwGraftSend 4095 true 65535 [] none, .hrwGraftCommitCmd 4095 true 65535,
    .hrwBrokenRetry 1, .hrwLinkLost 1, .hrwRouteWrite 63 0#32, .hrwSendWrite 63 0#32 0#32, .wakePatternDetect 1,
    .wakePatternEnd 1, .audFrameIn 11 [] [] true, .audBlockComplete 11, .audFrameOut 11 true [⟨32, [⟨0, 1#8⟩]⟩],
    .audOutBlockBoundary 11, .aesLockLost 11, .audNonaudioEnd 11 31, .audSlotMaskWrite 11 0#32 true,
    .audSlotMaskApply 11, .audTx30Packet 1 [⟨32, [⟨0, 1#8⟩]⟩], .evtEdge 31 true, .twineChannelEvent 255,
    .evtOutPulseEnd 31, .knotFilterPass 127, .loopGuardTrip 127, .twnFireWrite 7 0#32, .twineTimerFire 7,
    .twnTimerAtWrite 7 0#32, .mbxPost 63 65535, .mbxTake 63 65535 [], .mbxRing 63 65535 0#32,
    .mbxPendingClear 63 65535 0#32, .mbxLockRead 63 65535, .mbxLockWrite 63 65535 0#32, .mbxSlotWrite 63 65535 0 0#32,
    .mbxParamServe 63 true, .pwrReqDormant 65535, .pwrReqFallow 65535, .pwrReqWake 65535, .softReset 31,
    .softResetDone 31, .thermalTrip 27 0, .calOverwrite 65535 [], .calCopy 65535,
    .unknownMessageRx 63 (List.replicate 16 0#8), .aesLockGained 11, .rawRateBand 63 0] : List Instr).all Instr.wf = true := by decide

/-! ## States for the tests -/

/-- What command `c` leaves of `s`, seen through `f`, where it answers a next state. -/
def got {α : Type} (c : Instr) (s : State) (f : State → α) : Option α :=
  match exec c s with
  | .next t => some (f t)
  | _ => none

/-- The reset state with an image running. -/
def grown : State := { State.reset with seed := { State.reset.seed with running := true, due := 0 } }

/-- A state with fields set. -/
def put (s : State) (l : List (Field × Nat)) : State := l.foldl (fun x f => x.setF f.1 f.2) s

/-- An image with one section of a type: its records, at offset 48. -/
def oneSection (type count : Nat) (l : List Byte) : List Byte :=
  padTo 12 [] ++ leBytes 2 1 ++ padTo 18 [] ++ leBytes 1 type ++ padTo 1 [] ++ leBytes 2 count ++ leBytes 4 48 ++
    leBytes 4 l.length ++ padTo 4 [] ++ l

/-- A state that runs an image. -/
def growing (img : List Byte) (l : List (Field × Nat)) : State :=
  put { grown with seed := { grown.seed with image := img } } l

/-! ## Registers, BAR2 and the log -/

/-- A write that is misaligned, beyond the window, out of reach, to a block not reached, to no register, and to the
MSI-X table (RegisterWriteReach). -/
theorem witness_register_write_reach :
    State.reset.rootReach = true ∧ State.reset.reaches (blockOfOffset 0x840000) = false ∧
    (put State.reset [(F.PWR_STATUS_STATE, 5)]).rootReach = false ∧ mailOffset 0x840000 = none ∧
    grown.reaches (blockOfOffset 0xF00) = true ∧ grown.desc 0xF00 = none ∧
    got (.registerWrite 0 0x840000 1#32) State.reset (·.bit F.GLB_ERR_REG_IN_RESET) = some true ∧
    got (.registerWrite 0 2 1#32) grown (·.ticks) = none ∧
    got (.registerWrite 0 0x3c00004 7#32) grown (·.rd 0x3c00004) = some 7#32 := by decide +kernel

/-- A register of read-write bits, PWR_WDT, and one of write-1-to-clear bits, GLB_ERR (RegisterWriteAccessCodes). -/
theorem witness_register_write_codes :
    (grown.desc R.GLB_ERR).map (fun d => (d.half == .one, d.access.rws, d.access.rwc, d.access.w1c))
      = some (true, 0, 0, 0x3f) ∧
    grown.ownWrite R.GLB_ERR 0 0 0 R.GLB_ERR 5#32 = none ∧ grown.ignoredBits R.GLB_ERR 0 0 5 = 0 ∧
    presentAt grown.variant R.GLB_ERR = true ∧ mailOffset R.GLB_ERR = none ∧ grown.reaches (blockOfOffset R.GLB_ERR) = true ∧
    got (.registerWrite 0 R.GLB_ERR 5#32) (grown.wr R.GLB_ERR 7#32) (·.rd R.GLB_ERR) = some 2#32 := by decide +kernel

/-- A 64-bit register in two halves (WideWriteTimeoutAndReadIndex). -/
theorem witness_wide_write :
    got (.registerWrite 0 R.SEED_HOST_ADDR 0x12345678#32) grown (fun t => (t.rd R.SEED_HOST_ADDR, t.held))
      = some (0#32, [(R.SEED_HOST_ADDR, 0x12345678#32)]) ∧
    got (.registerWrite 0 (R.SEED_HOST_ADDR + 4) 9#32) { grown with held := [(R.SEED_HOST_ADDR, 0x12345678#32)] }
      (fun t => (t.rd R.SEED_HOST_ADDR, t.rd (R.SEED_HOST_ADDR + 4), t.held)) = some (0x12345600#32, 9#32, []) := by
  decide +kernel

/-- A log ring with its write index at 5 and its read index at 3. -/
def logged : State := put grown [(F.GLB_LOG_CTL_SIZE_LOG2, 4), (F.GLB_LOG_WR_WR_INDEX, 5), (F.GLB_LOG_RD_RD_INDEX, 3)]

/-- A read index in ring order is taken, another is not (R40). -/
theorem witness_read_index :
    6 < logged.logSize ∧ got (.glbLogRdWrite 4#32 none) logged (·.getF F.GLB_LOG_RD_RD_INDEX) = some 4 ∧
    got (.glbLogRdWrite 6#32 none) logged (fun t => (t.getF F.GLB_LOG_RD_RD_INDEX, t.bit F.GLB_ERR_LOG_RD_BAD))
      = some (3, true) := by decide +kernel

/-- A data plot of 512 bytes at address 0, that the host may read and write. -/
def plotted : State := growing (oneSection 7 1 (leBytes 2 1 ++ [0#8, 3#8] ++ padTo 12 [] ++ leBytes 8 512 ++ padTo 8 [])) []

/-- BAR2 accesses beyond plot space, to no plot, and within one (Bar2Accesses). -/
theorem witness_bar2 :
    plotted.up 8 = true ∧ plotted.inPlot 4 2 Plot.hostRd = true ∧ plotted.inPlot 4 2 Plot.hostWr = true ∧
    plotted.inPlot 510 4 Plot.hostRd = false ∧ plotted.hbm.bad 4 = false ∧
    got (.bar2Write 4 [0x5A#8, 0xA5#8] []) plotted (fun t => (t.hbm.read 3 4)) = some [0#8, 0x5A#8, 0xA5#8, 0#8] ∧
    got (.bar2Read 4 2 []) plotted (fun t => t.out) = some [.bar2Completion 0 [0#8, 0#8]] ∧
    got (.bar2Read 600 2 []) plotted (fun t => t.out) = some [.bar2Completion 1 []] ∧
    got (.bar2Write (96 * 2 ^ 30) [1#8] []) plotted (fun t => (t.bit F.GLB_ERR_BAR2_RANGE, t.hbm.bytes)) = some (true, []) ∧
    got (.bar2Write 600 [1#8] []) plotted (·.bit F.GLB_ERR_BAR2_WR_DENY) = some true := by decide +kernel

/-! ## Seeding, images, keys and calibration -/

/-- A state that has begun a graft reset, with a quick and clean environment. -/
def regrafting : State := { State.reset with seed := { State.reset.seed with due := 2 } }

/-- Seeding that is due and not, and the first of each timeout (SeedingOutcome). -/
theorem witness_seeding :
    regrafting.seedDue = true ∧ regrafting.inService 0 = true ∧ State.reset.seedDue = true ∧ grown.seedDue = false ∧
    State.reset.seed.due ≠ 2 ∧ State.reset.flash.enable = 0#4 ∧ State.reset.power.tripDue = none ∧
    got .pllLockTimeout State.reset (fun t => t.seed.pllFails) = some 1 ∧
    got .fwStartTimeout State.reset (fun t => (t.seed.fwFails, t.bit F.SEED_STATUS_FW_FALLBACK)) = some (1, true) ∧
    got (.seeding ⟨[], [], [], 0, 0, 0⟩) grown (fun t => t == grown) = some true := by decide +kernel

/-- A device READY, with a host image length of 2 bytes. -/
def ready : State := put grown [(F.SEED_STATUS_STATE, 8), (F.SEED_HOST_LEN_LEN, 2)]

/-- A device that checks an image of one byte, which fails. -/
def checking : State :=
  { ready with seed := { ready.seed with
    job := some { kind := .check, source := 2, slot := 0, image := [1#8], readLen := 1, unreadable := none } } }

/-- Loader commands start and are refused as BUSY (LoaderCommandsStart). -/
theorem witness_loader_start :
    ready.loading = false ∧ checking.loading = true ∧ 0 < ready.getF F.SEED_HOST_LEN_LEN ∧
    got (.loadSlot 1 0x5EED none) ready (fun t => (t.getF F.SEED_STATUS_STATE, t.seed.job.map (·.slot))) = some (10, some 1) ∧
    got (.eraseSlot 1 0x5EED) ready (fun t => (t.flash.slots.at {} 1).valid) = some false ∧
    got (.checkHostImage [1#8, 2#8, 3#8] none) ready (fun t => t.seed.job.map (·.image)) = some (some [1#8, 2#8]) ∧
    got (.checkHostImage [] none) (put ready [(F.SEED_HOST_LEN_LEN, 0)]) (·.bit F.SEED_STATUS_CMD_ZERO) = some true := by
  decide +kernel

/-- The end of a check that fails, and of writes of a slot (LoaderCommandsEnd). -/
theorem witness_loader_end :
    (checking.checkImage [1#8] 1 none).isLeft = true ∧
    got .graftCheckComplete checking (fun t => (t.seed.job, t.getF F.SEED_STATUS_STATE, t.getF F.SEED_STATUS_CODE))
      = some (none, 8, 1) ∧
    got (.slotWriteDone true) { ready with seed := { ready.seed with
        job := some { kind := .write 2, source := 2, slot := 0, image := [7#8], readLen := 1, unreadable := none } } }
      (fun t => ((t.flash.slots.at {} 2).image, (t.flash.slots.at {} 2).valid)) = some ([7#8], true) ∧
    got (.slotWriteDone true) { ready with seed := { ready.seed with
        job := some { kind := .erase 2, source := 2, slot := 0, image := [7#8], readLen := 1, unreadable := none } } }
      (fun t => ((t.flash.slots.at {} 2).image, (t.flash.slots.at {} 2).valid)) = some ([], true) := by decide +kernel

/-- A device whose customer slot 1 is programmed. -/
def keyed : State := { ready with fuses := { ready.fuses with slotState := 1#8 } }

/-- Key fuses (BootRecordAndKeyFuses). -/
theorem witness_keys :
    keyed.fuses.slot 1 = 1 ∧ keyed.fuses.slot 2 = 0 ∧ keyed.fuses.usableBut 0 = true ∧ customerSlot 2 = true ∧ customerSlot 5 = false ∧
    got (.keyProgram 2 0x5EED) keyed (fun t => (t.seed.burn, t.bit F.SEED_KEY_CMD_BUSY)) = some (some (1, 2), true) ∧
    got (.keyRevoke 1 0x5EED) keyed (fun t => t.seed.burn) = some (some (2, 1)) ∧
    got (.tarborOff 0x5EED) keyed (fun t => t.seed.burn) = some (some (3, 0)) ∧
    got (.keyProgram 5 0x5EED) keyed (fun t => (t.seed.burn, t.bit F.SEED_KEY_CMD_REFUSED)) = some (none, true) ∧
    got .keyBurnDone { keyed with seed := { keyed.seed with burn := some (2, 1) } } (fun t =>
      (t.seed.burn, t.fuses.slot 1, t.fuses.slot 2)) = some (none, 2, 0) ∧
    got (.seedBootWrite 0x2E4#32) keyed (fun t => (t.flash.order, t.flash.enable)) = some (0xE4#8, 2#4) := by decide +kernel

/-- The calibration store (CalibrationStore). -/
theorem witness_calibration :
    ready.rootReach = true ∧ ready.pwr = 0 ∧ ready.bit F.SEED_CAL_STATUS_BUSY = false ∧
    (put ready [(F.SEED_CAL_STATUS_BUSY, 1)]).bit F.SEED_CAL_STATUS_BUSY = true ∧ ready.calTemp = true ∧
    (put ready [(F.THM_SENSOR_TEMP 0, 800)]).calTemp = false ∧ calOk [] = false ∧
    got (.calOverwrite 0x5EED []) ready (·.bit F.SEED_CAL_STATUS_FORMAT_REFUSED) = some true ∧
    got (.calOverwrite 0x5EED []) (put ready [(F.THM_SENSOR_TEMP 0, 800)]) (·.bit F.SEED_CAL_STATUS_TEMP_REFUSED) = some true ∧
    got .calWriteDone (put ready [(F.SEED_CAL_STATUS_BUSY, 1)]) (·.bit F.SEED_CAL_STATUS_BUSY) = some false := by decide +kernel

/-! ## Time -/

/-- A write of TIME_RATE folds, and with a servo source is ignored; offset, step and snapshot (TimeSettings). -/
theorem witness_time_settings :
    grown.reaches 1 = true ∧ grown.getF F.TIME_CTL_SOURCE = 0 ∧ grown.corr = 0 ∧ grown.getF F.TIME_STATUS_STATE = 0 ∧
    (put grown [(F.TIME_STEP_STEP, 5)]).getS F.TIME_STEP_STEP = 5 ∧
    got (.timeStepCmd 0x5EED) (put grown [(F.TIME_STEP_STEP, 5)]) (fun t => (t.corr, t.bit F.TIME_ERR_STEPPED))
      = some (5, true) ∧
    got (.timeRateWrite 0#32) { grown with held := [(R.TIME_RATE, 77#32)] } (fun t => (t.rate, t.corr)) = some (77, 0) ∧
    got (.timeRateWrite 0#32) (put grown [(F.TIME_CTL_SOURCE, 1)]) (fun t => (t.rate, t.bit F.TIME_ERR_WR_IGNORED))
      = some (0, true) ∧
    got (.timeOffsetWrite 25#32) { grown with held := [(R.TIME_OFFSET_SEC, 3#32)] } (fun t =>
      (t.getF F.TIME_OFFSET_NS_NS, t.rd R.TIME_OFFSET_SEC)) = some (25, 3#32) ∧
    got (.timeOffsetWrite 1000000000#32) grown (·.bit F.TIME_ERR_WR_IGNORED) = some true ∧
    got .timeSnapRead { grown with time := { grown.time with counter := 9#64 } } (·.lastRead) = some [9 * 256] := by decide +kernel

/-- The servo (ServoCommands). -/
theorem witness_servo :
    got .servoReset (put grown [(F.TIME_STATUS_STATE, 2)]) (·.getF F.TIME_STATUS_STATE) = some 1 ∧
    got (.timeCtlWrite 0x12002#32) grown (fun t => (t.getF F.TIME_CTL_SOURCE, t.getF F.TIME_CTL_RATE_MAX)) = some (2, 32) ∧
    got (.timeCtlWrite 0x12502#32) grown (fun t => (t.getF F.TIME_CTL_RATE_MAX == grown.getF F.TIME_CTL_RATE_MAX,
      t.bit F.TIME_ERR_WR_IGNORED)) = some (true, true) ∧
    (put grown [(F.TIME_STATUS_STATE, 2)]).getF F.TIME_HOLD_HOLDOVER ≠ 0 ∧
    got .servoHoldoverTimeout (put grown [(F.TIME_STATUS_STATE, 2)]) (fun t => (t.getF F.TIME_STATUS_STATE,
      t.bit F.TIME_ERR_HOLDOVER)) = some (3, true) ∧
    (put grown [(F.TIME_HOLD_HOLDOVER, 0)]).getF F.TIME_HOLD_HOLDOVER = 0 ∧
    got .interpLocked grown (·.bit F.TIME_STATUS_INTERP_LOCK) = some true ∧
    (put grown [(F.PWR_STATUS_STATE, 2)]).fastOn = false := by decide +kernel

/-- A device that hears port 0 and has a master there. -/
def following : State :=
  let s := put grown [(F.TIME_PTP_CTL_PORT_EN, 1)]
  { s with time := { s.time with
    masters := [{ port := 0, gmId := 5, priority1 := 0, clockClass := 6, accuracy := 0, variance := 0, priority2 := 0
                  stepsRemoved := 0, senderId := 9 }]
    best := some { port := 0, gmId := 5, priority1 := 0, clockClass := 6, accuracy := 0, variance := 0, priority2 := 0
                   stepsRemoved := 0, senderId := 9 } } }

/-- A message of that master. -/
def sync (seq : Nat) (two : Bool) : PtpTimed := ⟨0, following.getF F.TIME_PTP_CTL_DOMAIN, 9, seq, -3, two, 100, 0⟩

/-- PTP and PPS (PtpMessages). -/
theorem witness_ptp :
    following.ptpHears 0 (following.getF F.TIME_PTP_CTL_DOMAIN) = true ∧ following.ptpHears 1 0 = false ∧
    following.fromMaster (sync 4 true) = true ∧
    got (.ptpAnnounceRx ⟨0, following.getF F.TIME_PTP_CTL_DOMAIN, 0, 11, 7, 1, 6, 0, 0, 0, 0⟩) following
      (fun t => (t.time.masters.length, t.time.best.map (·.senderId))) = some (2, some 9) ∧
    got .ptpAnnounceTimeout following (fun t => (t.time.masters.length, t.time.best)) = some (0, none) ∧
    got (.ptpSyncRx (sync 4 true)) following (fun t => t.time.sync.map (·.seq)) = some (some 4) ∧
    got (.ptpFollowUpRx (sync 4 false)) { following with time := { following.time with
        sync := some { seq := 4, t2 := 7, t1 := none, correction := 3 } } }
      (fun t => t.time.sync.bind (·.t1)) = some (some 103) ∧
    got .ptpDelayReqSend following (fun t => t.out) = some [.ptpDelayReq 0 1 (following.bit F.TIME_PTP_CTL_HYBRID)] ∧
    got (.ptpDelayRespRx (sync 4 false)) { following with time := { following.time with
        sync := some { seq := 4, t2 := 10000, t1 := some 5000, correction := 0 }, delayReq := some (4, 20) } }
      (fun t => (t.time.delayReq, t.getF F.TIME_PTP_PATH_MEAN_PATH)) = some (none, (10000 - 5000 + (100 - 20)) / 2 / 256) ∧
    got (.ptpManagementRx 0 (following.getF F.TIME_PTP_CTL_DOMAIN) true [1#8]) following (fun t => t.out)
      = some [.ptpManagement 0 [1#8]] := by decide +kernel

/-- GENLOCK and frame references (GenlockAndFrameReferences). -/
theorem witness_genlock :
    got (.genlockEdge 1 true false 1125) grown (fun t => ((t.gen 1).lastEdge, t.bit (F.TIME_GL_STAT_PRESENT 1),
      t.getF (F.TIME_GL_STAT_LINES 1))) = some (some 0, true, 1125) ∧
    got (.genlockLost 1) { grown with time := { grown.time with gens := [(1, { grown.gen 1 with lastEdge := some 0 })] } }
      (fun t => ((t.gen 1).lost, t.bit F.TIME_ERR_GL_LOST)) = some (true, true) ∧
    (grown.frefSettings 3).off = true ∧ got (.frefBoundary 3) grown (fun t => (t.fref 3).last) = some none := by decide +kernel

/-! ## Trugs -/

/-- Trug 3 is 2 words deep and takes bytes; what it holds is given. -/
def trugged (t : Trug) (l : List (Field × Nat)) : State :=
  { put grown ((F.TRUG_CFG_DEPTH 3, 2) :: l) with trugs := [(3, t)] }

/-- A word of an item, with END and one valid byte. -/
def word1 : TrugWord := ⟨padTo 32 [0x5A#8], 0x21#8⟩

/-- A write waits in the packing stage, ends an item, and meets a FULL trug (TrugWritePort). -/
theorem witness_trug_write :
    (trugged {} []).up 14 = true ∧ (trugged {} []).trugDepth 3 = 2 ∧ grown.trugDepth 3 = 0 ∧
    got (.trugWrite 3 0x15A#64 none) (trugged {} []) (fun t => ((t.trug 3).pack, (t.trug 3).ring)) = some ([0x5A#8], []) ∧
    got (.trugWrite 3 0x15A#64 (some 8)) (trugged {} []) (fun t => ((t.trug 3).ring, t.getF (F.TRUG_STAT_OCCUPANCY 3)))
      = some ([word1], 1) ∧
    (trugged { ring := [word1, word1] } [(F.TRUG_STAT_FULL 3, 1)]).trugFull 3 = true ∧
    got (.trugWrite 3 1#64 none) (trugged { ring := [word1, word1] } [(F.TRUG_STAT_FULL 3, 1)]) (fun t =>
      ((t.trug 3).skip, t.bit (F.TRUG_STAT_OVERRUN 3), t.getF (F.TRUG_OVR_COUNT 3))) = some (true, true, 1) ∧
    got (.trugWrite 3 1#64 (some 1)) (trugged { skip := true } []) (fun t => ((t.trug 3).skip, (t.trug 3).ring))
      = some (false, []) := by decide +kernel

/-- Reads, stalls and flushes (TrugReadPort, IdleReads). -/
theorem witness_trug_read :
    got (.trugRead 3 [] 0) (trugged { ring := [word1] } []) (fun t => (t.lastRead, (t.trug 3).ring))
      = some ([0x5A, 0x21], []) ∧
    (trugged {} [(F.TRUG_MODE_MODE, 1)]).trugIdles 3 = true ∧ (trugged {} [(F.TRUG_MODE_MODE, 0)]).trugIdles 3 = false ∧
    got (.trugRead 3 [] 0) (trugged {} [(F.TRUG_MODE_MODE, 1), (⟨R.TRUG_IDLE 0, 0, 32⟩, 7), (⟨R.TRUG_IDLE 1, 0, 32⟩, 9)])
      (fun t => (t.lastRead.map (· % 2 ^ 64))) = some [9 * 2 ^ 32 + 7, 0x40] ∧
    got (.trugRead 3 [] 0) (trugged {} [(F.TRUG_MODE_MODE, 0)]) (fun t => (t.trug 3).stalled) = some true ∧
    got (.trugReadUnstall 3 [] 0) (trugged { ring := [word1], stalled := true } []) (fun t => (t.lastRead, (t.trug 3).stalled))
      = some ([0x5A, 0x21], false) ∧
    got (.trugFlush 3) (trugged { ring := [word1], pack := [1#8], inItem := true } []) (fun t => t.trug 3)
      = some { skip := true } ∧
    got (.trugFlush 3) (trugged { ring := [word1], reading := true } [(F.TRUG_CFG_PRIV 3, 1)])
      (fun t => ((t.trug 3).flushWait, t.bit (F.TRUG_CTL_FLUSH 3), (t.trug 3).ring.length)) = some (true, true, 1) ∧
    got (.trugFlushDeferred 3) (trugged { ring := [word1], flushWait := true } [(F.TRUG_CTL_FLUSH 3, 1)])
      (fun t => ((t.trug 3).ring, t.bit (F.TRUG_CTL_FLUSH 3))) = some ([], false) := by decide +kernel

/-! ## Runners -/

/-- Runner 5 of role 3 up to tier 2, in a training state, with what it holds beside its registers. -/
def running (st : Nat) (x : Runner) (l : List (Field × Nat)) : State :=
  { growing (oneSection 1 1 (padTo 8 [5#8, 0#8, 2#8]))
      ([(F.RUN_CTL_ROLE 5, 5), (F.RUN_STATUS_STATE 5, st), (F.RUN_CTL_TIER_CAP 5, 7)] ++ l) with runners := [(5, x)] }

/-- The steps of training up to a step of the tier (RunnerTraining). -/
theorem witness_training :
    (running 1 {} []).nawen 5 = true ∧ (running 1 {} []).runState 5 = 1 ∧ (running 1 {} []).tierCap 5 = 2 ∧
    got (.clockActivityDetect 5) (running 1 {} []) (·.runState 5) = some 2 ∧
    got (.clockLaneLock 5) (running 2 {} []) (·.runState 5) = some 3 ∧
    got (.lanesAligned 5 (List.replicate 9 255) (List.replicate 9 0)) (running 3 {} []) (·.runState 5) = some 4 ∧
    got (.lanesAligned 5 (256 :: List.replicate 8 0) (List.replicate 9 0)) (running 3 {} []) (·.runState 5) = some 3 ∧
    got (.equaliseTimeout 5) (running 5 {} []) (·.runState 5) = some 6 ∧
    got (.checkWindowPass 5) (running 6 {} []) (fun t => (t.runner 5).ownPass) = some true ∧
    got (.checkWindowPass 5) (running 6 { peerPass := true } []) (·.runState 5) = some 7 ∧
    got (.tierStep 5) (running 7 { stepDown := true } [(F.RUN_STATUS_TIER 5, 2)]) (fun t => (t.runState 5, t.runTier 5))
      = some (3, 1) ∧
    got (.tierStep 5) (running 7 { reqRx := true, ackRx := true } [(F.RUN_STATUS_TIER 5, 1)]) (fun t =>
      (t.runState 5, t.runTier 5)) = some (3, 2) ∧
    got (.failedRetry 5) (running 9 {} []) (·.runState 5) = some 1 ∧
    got (.runRetrain 5) (running 8 {} [(F.RUN_STATUS_TIER 5, 2)]) (fun t => (t.runState 5, t.runTier 5)) = some (1, 0) := by
  decide +kernel

/-- Training blocks and failures (RunnerTraining). -/
theorem witness_training_failures :
    blockOk 0x1E (closeBlock 0x1E (padTo 13 [0x11#8, 3#8])) = true ∧ blockOk 0x1E [] = false ∧
    got (.trainBlockRx 5 (closeBlock 0x1E (padTo 13 [0x11#8, 3#8])) false) (running 4 {} []) (fun t =>
      (t.getF (F.RUN_STATUS_VERSION 5), (t.runner 5).peerMax)) = some (0x10, 3) ∧
    got (.checkFail 5) (running 6 {} []) (fun t => (t.runState 5, t.bit (F.RUN_ERR_TRAIN_FAIL 5))) = some (9, true) ∧
    got (.checkFail 5) (running 6 {} [(F.RUN_STATUS_TIER 5, 2)]) (fun t => (t.runState 5, t.bit (F.RUN_ERR_FALLBACK 5)))
      = some (7, true) ∧
    got (.trainStateTimeout 5) (running 3 {} []) (·.runState 5) = some 9 ∧
    got (.trainStateTimeout 5) (running 3 { l2Exit := true } []) (fun t => (t.runState 5, t.bit (F.RUN_ERR_L2_EXIT_RETRAIN 5)))
      = some (1, true) ∧
    got (.checkFail 5) grown (·.runState 5) = some 0 ∧ grown.nawen 5 = false ∧
    ((running 8 {} []).runWaiting 5 9).hedgeHook 5 = running 8 {} [] := by decide +kernel

/-- Caps, L1, L2 and RESTEP (RunnerPowerStates). -/
theorem witness_power_states :
    got (.runTierCapWrite 5 1) (running 0 {} []) (·.getF (F.RUN_CTL_TIER_CAP 5)) = some 1 ∧
    (running 0 {} []).maxTier 5 = 2 ∧
    got (.runTierCapWrite 5 3) (running 0 {} []) (·.getF (F.RUN_CTL_TIER_CAP 5)) = some 7 ∧
    got (.runPstateReq 5 1) (running 8 {} []) (fun t => (t.getF (F.RUN_STATUS_PSTATE 5), (t.runner 5).l1Tx, t.out.length))
      = some (1, true, 1) ∧
    got (.runPstateReq 5 2) (running 8 {} []) (fun t => (t.runState 5, (t.runner 5).l2, t.getF (F.RUN_STATUS_PSTATE 5)))
      = some (0, true, 2) ∧
    got (.l1IdleTimeout 5) (running 8 {} [(F.RUN_PM_L1_IDLE 5, 3)]) (fun t => (t.runner 5).l1Tx) = some true ∧
    got (.l1Exit 5) (running 8 { l1Tx := true } []) (fun t => (t.runner 5).l1Tx) = some false ∧
    got (.l1EnterRx 5 (closeBlock 0x66 [])) (running 8 {} []) (fun t => (t.runner 5).l1Rx) = some true ∧
    got (.l1ExitRx 5 (closeBlock 0x78 [])) (running 8 { l1Rx := true } []) (fun t => (t.runner 5).l1Rx) = some false ∧
    got (.l2EnterRx 5) (running 8 {} []) (fun t => (t.runState 5, (t.runner 5).l2)) = some (0, true) ∧
    got (.l2ExitCheckDone 5 false) (running 3 { l2Exit := true } []) (·.runState 5) = some 1 ∧
    got (.l2ExitCheckDone 5 true) (running 3 { l2Exit := true } []) (fun t => (t.runner 5).l2Exit) = some false ∧
    got (.restepRx 5 (closeBlock 0x99 [])) (running 8 { restepTx := true } []) (fun t => (t.runState 5, (t.runner 5).floor))
      = some (6, some 0) := by decide +kernel

/-- Lanes and the spare (RunnerSubstitution). -/
theorem witness_substitution :
    got (.laneLockLost 5 [3]) (running 8 {} []) (fun t => ((t.runner 5).subst, t.bit (F.RUN_ERR_LOCK_LOST 5)))
      = some (some { lane := 3, phys := 3, lockLoss := true, duplicating := false }, true) ∧
    got (.laneLockLost 5 [3, 4]) (running 8 {} []) (·.runState 5) = some 1 ∧
    got (.laneDegraded 5 2 7 1) (running 8 {} [(F.RUN_SPARE_THRESH 5, 9), (F.RUN_SPARE_WINDOW_MS 5, 1)]) (fun t =>
      (t.getF (F.RUN_CORR_COUNT 5 2), (t.runner 5).subst)) = some (7, none) ∧
    got (.laneDegraded 5 2 7 2) (running 8 {} [(F.RUN_SPARE_THRESH 5, 9), (F.RUN_SPARE_WINDOW_MS 5, 1)]) (fun t =>
      ((t.runner 5).subst.map (·.lane))) = some (some 2) ∧
    got (.spareRequestRx 5 (closeBlock 0x55 (padTo 13 [1#8, 3#8]))) (running 8 {} []) (fun t =>
      ((t.runner 5).txCopy, t.bit (F.RUN_STATUS_SPARE_TX 5))) = some (some 3, true) ∧
    got (.spareDuplicatingRx 5 (closeBlock 0x55 (padTo 13 [2#8, 3#8])))
      (running 8 { subst := some { lane := 3, phys := 3, lockLoss := true, duplicating := false } } [])
      (fun t => (t.runner 5).subst.map (·.duplicating)) = some (some true) ∧
    got (.spareCompareDone 5 0) (running 8 { subst := some { lane := 3, phys := 3, lockLoss := true, duplicating := true } } [])
      (fun t => ((t.runner 5).subst, t.getF (F.RUN_SPARE_RETIRED 5), t.bit (F.RUN_ERR_SPARE_USED 5))) = some (none, 8, true) ∧
    got (.spareSwitchedRx 5 (closeBlock 0x55 (padTo 13 [3#8, 3#8]))) (running 8 { txCopy := some 3 } [])
      (fun t => (t.runner 5).txOff.at false 3) = some true ∧
    got (.spareNarrowRx 5 (closeBlock 0x55 (padTo 13 [4#8, 0x7F#8]))) (running 8 {} []) (fun t => (t.runner 5).txMask)
      = some 0x7F ∧
    got (.spareNarrowRx 5 (closeBlock 0x55 (padTo 13 [4#8, 0x7F#8]))) (running 8 { narrowing := some 0x7F } [])
      (fun t => ((t.runner 5).rxMask, (t.runner 5).narrowing)) = some (0x7F, none) := by decide +kernel

/-- Runner 5 in raw sensor mode at tier 1. -/
def rawSensor (st : Nat) : State :=
  growing (oneSection 1 1 (padTo 8 [5#8, 0#8, 1#8])) [(F.RUN_CTL_ROLE 5, 1), (F.RUN_STATUS_STATE 5, st)]

/-- Raw Runners (RawRunners). -/
theorem witness_raw_runners :
    (rawSensor 0).rawRunner 5 = true ∧ inBand 1 2000 = true ∧ inBand 1 1500 = false ∧ (rawSensor 0).maxTier 5 = 1 ∧
    got (.rawClockActive 5) (rawSensor 0) (·.runState 5) = some 2 ∧
    got (.rawClockLock 5 2000) (rawSensor 2) (fun t => (t.runState 5, t.getF (F.RUN_RAW_RATE_MBPS 5))) = some (8, 2000) ∧
    got (.rawClockLock 5 1500) (rawSensor 2) (fun t => (t.runState 5, t.bit (F.RUN_ERR_RATE_BAND 5))) = some (2, true) ∧
    got (.rawRateBand 5 2100) (rawSensor 8) (fun t => (t.runState 5, t.getF (F.RUN_RAW_RATE_MBPS 5))) = some (8, 2100) ∧
    got (.clockLaneLost 5 []) (running 8 {} []) (fun t => (t.runState 5, t.bit (F.RUN_ERR_CLOCK_LOST 5))) = some (1, true) := by
  decide +kernel

/-! ## Ingest -/

/-- Port 4 on Runner 4 alone, with the codes 1 to 4 for SOF, EOF, SOL and EOL, its matcher and what it holds. -/
def porting (m : Matcher) (x : IngPort) (l : List (Field × Nat)) : State :=
  let s := growing (oneSection 2 1 (padTo 38 [4#8] ++ leBytes 2 1 ++ leBytes 2 2 ++ leBytes 2 3 ++ leBytes 2 4 ++ leBytes 2 0xFFFF ++
      padTo 80 [])) ([(F.ING_PORT_CFG_GANG 4, 1), (F.ING_PORT_GEOM_SENSOR_H 4, 2), (F.ING_PORT_GEOM_SENSOR_W 4, 64)] ++ l)
  { s with ingest := { s.ingest with matchers := [(4, m)], ports := [(4, x)] } }

/-- A matcher LOCKED on grid 7. -/
def locked : Matcher := { state := 2, count := 0, grid := 7 }

/-- A code on Runner 4. -/
def code (w grid : Nat) : SyncCode := ⟨4, w, grid, true, []⟩

/-- A frame with no line yet, and a line with its one segment open. -/
def frame0 : IngFrame := ⟨5, 0, false, 0, 0, false, false, false, false, false, false, false, 0, 0, 0, 0, 0, 9⟩
def line0 : IngLine := ⟨false, 0, 33, false, true, false, [{ state := 1 }]⟩

/-- The search for the grid of the codes (SyncCodes). -/
theorem witness_matcher :
    (porting {} {} []).portOf 4 = some 4 ∧ (porting {} {} []).portOf 5 = none ∧ (porting {} {} []).codeOf 4 3 = some .sol ∧
    got (.solCode (code 3 7)) (porting { state := 1, count := 2, grid := 7 } {} []) (fun t => (t.matcher 4))
      = some { state := 1, count := 3, grid := 7 } ∧
    got (.solCode (code 3 8)) (porting { state := 1, count := 2, grid := 7 } {} []) (fun t => (t.matcher 4))
      = some { state := 1, count := 1, grid := 8 } ∧
    got (.solCode (code 3 7)) (porting { state := 1, count := 3, grid := 7 } {} []) (fun t => (t.matcher 4))
      = some locked ∧
    got (.solCode (code 3 8)) (porting { locked with count := 2 } {} []) (fun t => (t.matcher 4))
      = some { locked with count := 3 } ∧
    got (.solCode (code 3 8)) (porting { locked with count := 3 } {} []) (fun t => ((t.matcher 4).state, t.bit (ingErr 4 5)))
      = some (1, true) := by decide +kernel

/-- Lines and frames of a locked port (SyncCodes). -/
theorem witness_frames :
    (porting locked {} []).portSync 4 = 2 ∧
    got (.solCode (code 3 7)) (porting locked {} []) (fun t => (t.ingPort 4).lines.map fun l => (l.closed, l.segs.length))
      = some [(true, 1)] ∧
    got (.sofCode (code 1 7)) (porting locked {} []) (fun t => ((t.ingPort 4).frame.map (·.number), (t.ingPort 4).started))
      = some (some 0, true) ∧
    got (.eofCode (code 2 7)) (porting locked { frame := some frame0 } [(F.ING_PORT_CFG_EOF_USED 4, 1)])
      (fun t => (t.ingPort 4).frame) = some none ∧
    got (.eofCode (code 2 7)) (porting locked { frame := some frame0 } []) (fun t => (t.ingPort 4).frame)
      = some (some frame0) ∧
    got (.eolCode (code 4 7)) (porting locked { frame := some frame0, lines := [line0] } []) (fun t =>
      ((t.ingPort 4).lines, (t.ingPort 4).frame.map fun f => (f.number, f.lines, f.lastStamp))) = some ([], some (5, 1, 33)) := by
  decide +kernel

/-- The port's timers, its cut marker and its pruning writes (PortTimers). -/
theorem witness_port_timers :
    (porting locked {} []).portOn 4 = true ∧ (porting locked {} []).portOn 5 = false ∧
    got (.segmentWindowExpire 4) (porting locked { lines := [{ line0 with closed := false, segs := [{ state := 1 }, {}] }] } [])
      (fun t => (t.ingPort 4).lines.map fun l => (l.closed, l.segs.map (·.state))) = some [(true, [1, 3])] ∧
    got (.sofWindowExpire 4 []) (porting locked { closing := some { frame0 with lines := 2 }, frame := some frame0 } [])
      (fun t => ((t.ingPort 4).closing, (t.ingPort 4).frame.map (·.number))) = some (none, some 5) ∧
    got (.frameTimeout 4 []) (porting locked { frame := some frame0 } []) (fun t =>
      ((t.ingPort 4).frame, t.bit (ingErr 4 10), t.bit (ingErr 4 2))) = some (none, true, true) ∧
    (porting locked {} []).pruneBad 4 false 0#32 = false ∧ (porting locked {} []).pruneBad 4 false 1#32 = true ∧
    got (.ingPruneWrite 4 false 0#32) (porting locked {} []) (·.staged) = some [(R.ING_PORT_PRUNE_H 4, 0#32)] ∧
    got (.ingPruneWrite 4 false 1#32) (porting locked {} []) (fun t => (t.bit (ingErr 4 9), t.staged)) = some (true, []) := by
  decide +kernel

/-- Trug 3 with room for a cut marker, and a run of cut lines that waits for it. -/
def cutting (depth : Nat) : State :=
  let s := put grown [(F.TRUG_CFG_DEPTH 3, depth)]
  { s with ingest := { s.ingest with bands := [(3, { run := some ⟨List.replicate 16 0#8, 1, 1, 2⟩ })] } }

/-- A cut marker goes into a trug with room, and waits for one without (PortTimers). -/
theorem witness_cut_marker :
    (cutting 2).trugTakes 3 25 = true ∧ (cutting 0).trugTakes 3 25 = false ∧
    got (.cutMarkerWrite 3) (cutting 2) (fun t => ((t.band 3).run, (t.trug 3).ring.length)) = some (none, 1) ∧
    got (.cutMarkerWrite 3) (cutting 0) (fun t => ((t.band 3).run.isSome, (t.trug 3).ring.length)) = some (true, 0) := by
  decide +kernel

/-- A unit of one line, the last of its frame, with its stamp. -/
def unitWord (stamp : Nat) : TrugWord := ⟨leBytes 6 stamp ++ padTo 8 [] ++ [1#8] ++ padTo 17 [], 0x20#8⟩

/-- Merger 0 of a bed, fed by ports 4 and 5 through trugs 3 and 6; what the trugs hold, and the merger. -/
def merging (a b : List TrugWord) (x : Merger) : State :=
  let s := growing (oneSection 5 2 (padTo 8 [3#8] ++ [3#8, 4#8, 3#8, 0#8] ++ padTo 4 [] ++
      padTo 8 [6#8] ++ [3#8, 5#8, 3#8, 0#8] ++ padTo 4 [])) [(F.ING_MRG_INPUTS_PORTS 0, 0x30)]
  { s with trugs := [(3, { ring := a }), (6, { ring := b })], ingest := { s.ingest with mergers := [(0, x)] } }

/-- What a merger emits and when it waits (MergerEmission). -/
theorem witness_merger :
    (merging [] [] {}).mrgInputs 0 = [(4, 3), (5, 6)] ∧ (merging [] [] {}).readyHeads 0 = [] ∧
    candidate ((merging [unitWord 7] [unitWord 5] {}).readyHeads 0) = some (5, 6, [[unitWord 5]]) ∧
    (merging [unitWord 7] [unitWord 5] {}).mustWait 0 5 = false ∧ (merging [unitWord 7] [] {}).mustWait 0 7 = true ∧
    (merging [unitWord 7] [] {}).unitLate 0 [[unitWord 7]] = false ∧
    got (.mergerEmit 0 []) (merging [unitWord 7] [unitWord 5] {}) (fun t =>
      ((t.merger 0).out, (t.merger 0).last, (t.trug 6).ring, (t.trug 3).ring.length))
      = some (some ⟨5, false, [[unitWord 5]]⟩, some 5, [], 1) ∧
    got (.mergerEmit 0 []) (merging [unitWord 7] [] {}) (fun t => (t.merger 0).out) = some none ∧
    got (.mergerWindowExpire 0 []) (merging [unitWord 7] [] {}) (fun t => (t.merger 0).last) = some (some 7) := by
  decide +kernel

/-! ## Beds -/

/-- Bed 0 leads alone with slot 2 for port 4; the frames and the rest of that slot, and the bed's merger. -/
def bedded (x : BedSlot) (m : Merger) (l : List (Field × Nat)) : State :=
  let s := put { plotted with seed := plotted.seed } ([(F.BED_CFG_JOIN 0, 1), (F.BED_SENSOR_VALID 0 2, 1), (F.BED_SENSOR_PORT 0 2, 4),
    (F.ING_PORT_GEOM_SENSOR_W 4, 64), (F.ING_PORT_GEOM_SENSOR_H 4, 4), (F.ING_PORT_CFG_BPP 4, 12)] ++ l)
  { s with ingest := { s.ingest with mergers := [(0, m)] }, beds := [(0, { slots := [(2, x)] })] }

/-- A unit of port 4: line 0 of frame 0, without photosites; and one of a port in no slot. -/
def unit4 (port : Nat) : IngUnit := ⟨port, false, [[⟨padTo 32 [], 0x20#8⟩]]⟩

/-- What a bed does with its merger's unit (BedUnits). -/
theorem witness_bed_units :
    (bedded {} {} []).bedUp 0 = true ∧ (bedded {} {} []).bedUp 1 = false ∧ (bedded {} {} []).slotOf 0 4 = some 2 ∧
    (bedded {} {} []).slotOf 0 9 = none ∧
    got (.bedUnitAccept 0 []) (bedded {} { out := some (unit4 9) } []) (fun t => ((t.merger 0).out, t.beds == (bedded {} {} []).beds))
      = some (none, true) ∧
    (bedded { frames := [{ height := 4, width := 64 }] } {} []).bedSlot 0 2 = { frames := [{ height := 4, width := 64 }] } ∧
    ((bedded {} {} []).unitLines (unit4 4)).map (fun l => (l.1, l.2.1)) = [(0, 0)] ∧
    got (.bedUnitAccept 0 []) (bedded { frames := [{ height := 4, width := 64 }] } { out := some (unit4 4) } []) (fun t =>
      ((t.merger 0).out, t.getF (F.BED_STATUS_SLOT 0), (t.bedSlot 0 2).frames.map (·.lines.map (·.1)))) = some (none, 2, [[0]]) := by
  decide +kernel

/-- A frame of 4 rows of which row 0 has gone through splice point A. -/
def rowed : BedFrame := { height := 4, width := 2, a := [[(0, { vals := [[16, 32]] })]], aNext := [1] }

/-- Lines at a tap (BedLines). -/
theorem witness_bed_lines :
    (bedded {} {} []).slotWritable 0 2 = true ∧ rowed.tapH 0 = 4 ∧
    (bedded { frames := [rowed] } {} []).tapReady 0 0 0 rowed = true ∧ (bedded { frames := [rowed] } {} []).tapReady 0 0 1 rowed = false ∧
    (bedded { frames := [rowed] } {} []).tapOn 0 0 rowed = false ∧
    (bedded { frames := [rowed] } {} [(F.BED_TAP_DEST 0 0, 1)]).tapOn 0 0 rowed = true ∧
    got (.bedLineEmit 0 2 0) (bedded { frames := [rowed] } {} []) (fun t => (t.bedSlot 0 2).frames.map (·.taps)) = some [[1, 0, 0]] ∧
    got (.bedLineEmit 0 2 0) (bedded { frames := [rowed] } {} [(F.BED_TAP_DEST 0 0, 1), (F.BED_TAP_TARGET 0 0, 7), (F.TRUG_CFG_DEPTH 7, 9)])
      (fun t => ((t.bedSlot 0 2).frames.map (·.taps), (t.trug 7).ring.length, (t.trug 7).inItem)) = some ([[1, 0, 0]], 2, false) ∧
    got (.bedLineEmit 0 2 0) (bedded { frames := [{ rowed with taps := [4, 0, 0] }] } {} []) (fun t =>
      (t.bedSlot 0 2).frames.map (·.taps)) = some [[4, 0, 0]] := by decide +kernel

/-- Table pointers and their copies (BedTables). -/
theorem witness_bed_tables :
    (bedded {} {} []).tableFits 256 ((bedded {} {} []).tableSize 0 2 1) = true ∧ (bedded {} {} []).tableSize 0 2 1 = 128 ∧
    (bedded {} {} []).tableFits 256 ((bedded {} {} []).tableSize 0 2 0) = false ∧ smallTable 1 = true ∧
    got (.bedTablePointerWrite 0 2 1 257) (bedded {} {} []) (fun t => (t.staged.length, (t.bedSlot 0 2).copying,
      t.bit (F.BED_SHADOW_PENDING 0 2))) = some (2, [1], true) ∧
    got (.bedTablePointerWrite 0 2 0 257) (bedded {} {} []) (fun t => (t.staged, t.bit (F.BED_ERR_TABLE_BAD 0))) = some ([], true) ∧
    got (.tableCopyDone 0 2 1 []) (bedded { copying := [1] } {} []) (fun t => ((t.bedSlot 0 2).copying,
      ((t.bedSlot 0 2).copied.at {} 1).bytes.length)) = some ([], 128) := by decide +kernel

/-- Writes of a slot page (BedSlotWrites). -/
theorem witness_bed_slot_writes :
    (bedded {} {} []).reaches 4 = true ∧ (bedded {} {} []).inputSize 0 2 = (64, 4) ∧ encOk 0x07 = false ∧ encOk 0x50 = false ∧
    encOk 0x10 = true ∧
    got (.bedCropWrite 0 2 false 0x00200010#32) (bedded {} {} []) (fun t => (t.staged, t.rd (R.BED_CROP_X 0 2)))
      = some ([(R.BED_CROP_X 0 2, 0x00200010#32)], 0#32) ∧
    got (.bedCropWrite 0 2 false 0x00400010#32) (bedded {} {} []) (fun t => (t.staged, t.bit ⟨R.BED_ERR 0, 5, 1⟩)) = some ([], true) ∧
    got (.bedEncWrite 0 2 1 false 0x10#32) (bedded {} {} []) (·.staged) = some [(R.BED_ENC_CTL 0 2 1, 0x10#32)] ∧
    got (.bedEncWrite 0 2 1 true 203#32) (bedded {} {} []) (·.staged) = some [(R.BED_ENC_PARAM 0 2 1, 203#32)] ∧
    got (.bedEncWrite 0 2 1 true 10001#32) (bedded {} {} []) (fun t => (t.staged, t.bit ⟨R.BED_ERR 0, 8, 1⟩)) = some ([], true) ∧
    got (.bedScaleWrite 0 2 0#32) (bedded {} {} []) (·.staged) = some [(R.BED_SCL_SIZE 0 2, 0#32)] ∧
    got (.bedScaleWrite 0 2 0x00010041#32) (bedded {} {} []) (·.bit ⟨R.BED_ERR 0, 7, 1⟩) = some true ∧
    got (.bedShadowHoldWrite 0 2 true) (bedded {} {} []) (·.bit (F.BED_SHADOW_HOLD 0 2)) = some true := by decide +kernel

/-! ## Pixel engines -/

/-- Engine 3 runs, with s4 = 7, s5 = -1, s6 = 256 and two vectors: v4 holds 0x00018000 and zeros, v5 twos. -/
def engined (g : PeEngine) (l : List (Field × Nat)) : State :=
  { put grown ((F.PE_STATUS_STATE 3, 2) :: l) with
    engines := [(3, { g with s := [(4, 7), (5, 0xFFFFFFFF), (6, 256)]
                             v := [(4, 0x00018000 :: List.replicate 15 0), (5, List.replicate 16 2)] })] }

/-- What scalar `d` of engine 3 holds, and lane 0 of its vector `d`. -/
def s3 (d : Nat) (t : State) : Nat := (t.engine 3).sr d
def v3 (d : Nat) (t : State) : Nat := ((t.engine 3).vr d).getD 0 99

/-- Its registers hold words. -/
theorem witness_pe_words : (engined {} []).peRuns 3 = true ∧ ((engined {} []).engine 3).words := by
  refine ⟨by decide +kernel, fun n => ?_, fun n => ?_⟩
  · have h : ∀ k, k < 32 → ((engined {} []).engine 3).sr k < 2 ^ 32 := by decide +kernel
    have e : ((engined {} []).engine 3).sr n = ((engined {} []).engine 3).sr (n % 32) := by simp [PeEngine.sr]
    exact e ▸ h (n % 32) (Nat.mod_lt _ (by decide))
  · have h : ∀ k, k < 64 → (((engined {} []).engine 3).vr k).length = 16 ∧
        ∀ x ∈ ((engined {} []).engine 3).vr k, x < 2 ^ 32 := by decide +kernel
    have e : ((engined {} []).engine 3).vr n = ((engined {} []).engine 3).vr (n % 64) := by simp [PeEngine.vr]
    exact e ▸ h (n % 64) (Nat.mod_lt _ (by decide))

/-- Scalar instructions and the branch (PeScalarInstructions). -/
theorem witness_pe_scalar :
    got (.peSadd 3 ⟨0, 9, 4, 5, 0, 0#30⟩) (engined {} []) (s3 9) = some 6 ∧
    got (.peSsub 3 ⟨0, 9, 4, 5, 0, 0#30⟩) (engined {} []) (s3 9) = some 8 ∧
    got (.peSaddi 3 ⟨0, 9, 4, 0, 0, 0x3FFFFFFF#30⟩) (engined {} []) (s3 9) = some 6 ∧
    got (.peSmul 3 ⟨0, 9, 4, 5, 0, 0#30⟩) (engined {} []) (s3 9) = some 0xFFFFFFF9 ∧
    got (.peSsrai 3 ⟨0, 9, 5, 0, 0, 4#30⟩) (engined {} []) (s3 9) = some 0xFFFFFFFF ∧
    got (.peSsrli 3 ⟨0, 9, 5, 0, 0, 4#30⟩) (engined {} []) (s3 9) = some 0x0FFFFFFF ∧
    got (.peSlih 3 ⟨0, 4, 0, 0, 0, 0x1234#30⟩) (engined {} []) (s3 4) = some 0x12340007 ∧
    got (.peSlt 3 ⟨0, 9, 5, 4, 0, 0#30⟩) (engined {} []) (s3 9) = some 1 ∧
    got (.peSadd 3 ⟨0, 0, 4, 5, 0, 0#30⟩) (engined {} []) (s3 0) = some 0 ∧
    got (.peBr 3 ⟨0, 0, 5, 4, 3, 5#30⟩) (engined {} []) (fun t => (t.engine 3).pc) = some 5 ∧
    got (.peBr 3 ⟨0, 0, 5, 4, 1, 5#30⟩) (engined {} []) (fun t => (t.engine 3).pc) = some 1 ∧
    got (.peVred 3 ⟨0, 9, 5, 0, 0, 0#30⟩) (engined {} []) (s3 9) = some 32 ∧
    got (.peVext 3 ⟨0, 9, 4, 0, 0, 0#30⟩) (engined {} []) (s3 9) = some 0x18000 := by decide +kernel

/-- Vector instructions on 32-bit lanes and on halves (PeVectorIntegers, PeVectorMovesAndFloats). -/
theorem witness_pe_vectors :
    got (.peVadd 3 ⟨0, 9, 4, 5, 0, 0#30⟩) (engined {} []) (v3 9) = some 0x18002 ∧
    got (.peVadd 3 ⟨3, 9, 4, 5, 0, 0#30⟩) (engined {} []) (v3 9) = some 0x00007FFF ∧
    got (.peVabs 3 ⟨1, 9, 4, 0, 0, 0#30⟩) (engined {} []) (v3 9) = some 0x00018000 ∧
    got (.peVcmplt 3 ⟨1, 9, 4, 5, 0, 0#30⟩) (engined {} []) (v3 9) = some 0x0000FFFF ∧
    got (.peVsrai 3 ⟨1, 9, 4, 0, 0, 4#30⟩) (engined {} []) (v3 9) = some 0x0000F800 ∧
    got (.peVpack 3 ⟨0, 9, 4, 5, 0, 0#30⟩) (engined {} []) (v3 9) = some 0x00027FFF ∧
    got (.peVunpl 3 ⟨0, 9, 4, 0, 0, 0#30⟩) (engined {} []) (v3 9) = some 0xFFFF8000 ∧
    got (.peVspl 3 ⟨1, 9, 0, 0, 0, 3#30⟩) (engined {} []) (v3 9) = some 0x00030003 ∧
    fAdd 0x3F800000 0x3F800000 = 0x40000000 ∧ fMul 0x40000000 0x40400000 = 0x40C00000 ∧ fFromInt 3 0 = 0x40400000 ∧
    fMin 0x3F800000 0xBF800000 = 0xBF800000 ∧ fToInt 0x40200000 0 = 2 := by decide +kernel

/-- Loads, stores and the ends of tiles (PeMemoryAndWindow). -/
theorem witness_pe_memory :
    got (.peSst 3 ⟨0, 0, 6, 5, 0, 0#30⟩) (engined {} []) (fun t => ((t.engine 3).byte 256, (t.engine 3).byte 260))
      = some (some 0xFF#8, some 0#8) ∧
    got (.peSst 3 ⟨0, 0, 6, 5, 0, 0#30⟩) (engined { constLen := 512 } []) (fun t =>
      ((t.engine 3).byte 256, t.bit (F.PE_ERR_CONST_WR 3))) = some (some 0#8, true) ∧
    got (.peSld 3 ⟨0, 9, 6, 0, 0, 2#30⟩) (engined { init := List.replicate 256 0#8 ++ [1#8, 2#8, 3#8, 4#8] } []) (s3 9)
      = some 0x04030201 ∧
    got (.peVld 3 ⟨0, 9, 6, 0, 0, 0#30⟩) (engined { mem := (List.range 64).map fun i => (256 + i, none) } [])
      (·.bit (F.PE_ERR_POISON 3)) = some true ∧
    got (.peWst 3 ⟨0, 0, 0, 5, 0, 0#30⟩) (engined { ended := false, ctx := { comps := 1 } } []) (fun t =>
      ((t.engine 3).out.at [] 0).take 2) = some [2, 2] ∧
    got (.peEnd 3 ⟨0, 0, 0, 0, 0, 0#30⟩) (engined { ended := false, entry := 4, ctx := { x1 := 64 } } []) (fun t =>
      ((t.engine 3).ended, (t.engine 3).pc, (t.engine 3).ctx.x)) = some (false, 4, 16) ∧
    got (.peEnd 3 ⟨0, 0, 0, 0, 0, 0#30⟩) (engined { ended := false, ctx := { x1 := 16 } } []) (fun t => (t.engine 3).ended)
      = some true ∧
    got (.peEnd 3 ⟨0, 0, 0, 0, 0, 0#30⟩) (engined { ended := false, inFrame := true } []) (fun t => (t.engine 3).ended)
      = some true := by decide +kernel

/-- Line caps, faults and migration (PeFaultsAndMigration). -/
theorem witness_pe_faults :
    got (.lineCapExceeded 3) (engined { ended := false } []) (fun t => ((t.engine 3).ended, (t.engine 3).tooLong,
      t.getF (F.PE_CNT_COUNT 3 2))) = some (true, true, 1) ∧
    got (.peDegraded 3 4 5) (engined {} []) (fun t => (t.getF (F.PE_CNT_COUNT 3 0), t.getF (F.PE_CNT_COUNT 3 1), t.peState 3))
      = some (4, 5, 2) ∧
    got (.peHardFault 3 0 0) grown (fun t => (t.peState 3, t.bit (F.PE_SPARE_RETIRED 3))) = some (6, true) ∧
    got (.constRestored 3 0) grown (fun t => (t.engine 3).badConst) = some true ∧
    got (.peTargetLoaded 3) (put grown [(F.PE_STATUS_STATE 3, 1)]) (fun t => (t.engine 3).loaded) = some true ∧
    got (.peTargetLoaded 3) grown (fun t => (t.engine 3).loaded) = some false ∧ (engined {} []).peNext = some 0 := by
  decide +kernel

/-- NOP is the word 0; the fields of a word stand where R232 puts them. -/
theorem test_pe_words :
    peDecode 0 = (0, ⟨0, 0, 0, 0, 0, 0#30⟩) ∧
    peDecode 0x0140_0000_0000_0001 = (1, ⟨1, 0, 0, 0, 0, 1#30⟩) ∧
    peEncode 0x63 ⟨0, 9, 6, 0, 0, 2#30⟩ = 0x63 * 2 ^ 56 + 9 * 2 ^ 48 + 6 * 2 ^ 42 + 2 := by decide +kernel

/-! ## Streams and scan-out -/

/-- Context 0 of engine 1, 64 by 128 pixels, outside a mosaic, that encodes or decodes from a trug. -/
def streaming (dir : Nat) (x : StreamCtx) (l : List (Field × Nat)) : State :=
  { growing (oneSection 8 1 (padTo 8 [1#8, 0#8] ++ padTo 4 [7#8] ++ leBytes 2 64 ++ leBytes 2 128 ++ padTo 4 [] ++ leBytes 2 50 ++
      leBytes 2 1 ++ padTo 4 [] ++ leBytes 4 1000 ++ padTo 4 [] ++ leBytes 4 50000 ++ padTo 6 [] ++ padTo 18 [0xFF#8]))
      ([(F.SE_CTX_CFG_VALID 1 0, 1), (F.SE_CTX_CFG_DIR 1 0, dir), (F.SE_CTX_CFG_INPUT 1 0, 1), (F.SE_CTX_CFG_PROFILE 1 0, 1)] ++ l)
    with streams := [(8, x)] }

/-- Key requests and caps (EncodeContexts). -/
theorem witness_encode_writes :
    (streaming 0 {} []).ctxIs 1 0 0 = true ∧ (streaming 1 {} []).ctxIs 1 0 0 = false ∧ (streaming 0 {} []).cells 1 0 = [(1, 0)] ∧
    (streaming 0 {} []).reaches 6 = true ∧ (streaming 0 {} []).encM 1 0 = 256 + 48 + 32 + 12 * 2 ∧
    got (.encKeyIdr 1 0) (streaming 0 {} []) (fun t => t.bit (F.SE_CTX_KEY_IDR 1 0)) = some true ∧
    got (.encKeySweep 1 0) (streaming 0 {} [(F.SE_CTX_KEY_SWEEP 1 0, 1)]) (fun t => t.getF (F.SE_CTX_CNT_COUNT 1 0 8)) = some 1 ∧
    got (.seCapWrite 1 0 1000#32) (streaming 0 {} []) (·.staged) = some [(R.SE_CTX_CAP 1 0, 1000#32)] ∧
    got (.seCapWrite 1 0 300#32) (streaming 0 {} []) (fun t => (t.staged, t.bit ⟨R.SE_CTX_ERR 1 0, 8, 1⟩)) = some ([], true) := by
  decide +kernel

/-- The first line of frame 9, in a format that the context's profile can be made from. -/
def tapLine : EncLine :=
  { frame := 9, line := 0, last := false, poison := false, stamp := 5, format := 0x29, flags := 0, width := 64, height := 128
    comps := [] }

/-- A picture starts from a line that waits (EncodeContexts). -/
theorem witness_picture_start :
    (streaming 0 {} []).encLive 1 = [0] ∧ canConvert tapLine.format 1 = true ∧
    (streaming 0 { enc := { inbox := [tapLine] } } []).getF (F.SE_CTX_CFG_INPUT 1 0) = 1 ∧
    got (.encPictureStart 1 [] []) (streaming 0 {} []) (fun t => (t.encCtx 1 0).pic.isSome) = some false ∧
    (streaming 0 {} [(F.SE_STATUS_BUSY 1, 1)]).bit (F.SE_STATUS_BUSY 1) = true := by decide +kernel

/-- Decode contexts (DecodeContexts). -/
theorem witness_decode :
    (streaming 1 {} []).decOn 1 0 = true ∧ (streaming 0 {} []).decOn 1 0 = false ∧ (streaming 1 {} []).ctxF 1 0 46 1 = 0xFF ∧
    (streaming 1 {} []).decEmpty 1 0 = true ∧ (streaming 1 { dec := { buf := [(0#8, false)] } } []).decEmpty 1 0 = false ∧
    got (.decWrWrite 1 0 77#32) (streaming 1 {} []) (·.rd (R.DEC_WR 1 0)) = some 77#32 ∧
    got (.decNalUnit 1 0 (nal 0) [] []) (streaming 1 {} []) (·.getF (F.DEC_STATUS_STATE 1 0)) = some 2 ∧
    got (.decFlush 1 0) (streaming 1 {} []) (fun t => ((t.decCtx 1 0).good, t.bit (F.DEC_CTL_FLUSH 1 0))) = some (none, false) ∧
    got (.decResync 1 0) (streaming 1 { dec := { started := true } } []) (fun t =>
      ((t.decCtx 1 0).started, (t.decCtx 1 0).drift, t.bit (F.DEC_STATUS_DRIFT 1 0))) = some (false, true, true) ∧
    got (.decEos 1 0) (streaming 1 { dec := { buf := [(0#8, false)] } } []) (·.bit (F.DEC_CTL_EOS 1 0)) = some true ∧
    got (.mosaicHeaderTimeout 1 0) (streaming 1 { dec := { outputs := 3 } } []) (fun t => (t.decCtx 1 0).outputs) = some 3 := by
  decide +kernel

/-- A NAL unit of another layer counts, and a sound VPS replaces the one of its identifier (DecodeContexts). -/
theorem witness_decode_nal :
    (afterStart ([0#8, 0#8, 1#8, 0x41#8, 1#8, 5#8].map (·, false))).isSome = true ∧
    got (.decNalUnit 1 0 (nal 0) [] []) (streaming 1 { dec := { buf := [0#8, 0#8, 1#8, 0x41#8, 1#8, 5#8].map (·, false) } } [])
      (fun t => (t.getF (F.DEC_CNT_COUNT 1 0 11), t.getF (F.DEC_STATUS_STATE 1 0))) = some (1, 1) ∧
    got (.decNalUnit 1 0 { nal 0 with id := 2, parent := 6 } [] [])
      (streaming 1 { dec := { buf := [0#8, 0#8, 1#8, 0x40#8, 1#8, 5#8].map (·, false) } } [])
      (fun t => ((t.decCtx 1 0).sets.at none (32 * 64 + 2)).map (·.parent)) = some (some 6) := by decide +kernel

/-- Head 2 of the image: group 1, 4 by 4 raster of which 2 by 2 is active; what it holds. -/
def heading (x : Head) (l : List (Field × Nat)) : State :=
  { growing (oneSection 9 1 (padTo 24 [2#8, 0#8, 1#8, 1#8] ++ leBytes 2 4 ++ leBytes 2 4 ++ leBytes 2 1 ++ leBytes 2 2 ++ leBytes 2 2 ++
      leBytes 2 0 ++ padTo 220 [])) l with heads := [(2, x)] }

/-- Lines, commits, underruns and reads of a head (ScanOutHeads). -/
theorem witness_heads :
    (heading {} []).headOn 2 = true ∧ (heading {} []).headOn 3 = false ∧ (heading {} []).headList = [2] ∧
    (heading {} []).headF 2 2 1 = 1 ∧ (heading {} []).reaches 7 = true ∧
    got (.headUnderrun 2 0 0 false) (heading { active := some { comps := [[1, 2], [1, 2], [1, 2]] } } []) (fun t =>
      (t.bit (F.HEAD_ERR_UNDERRUN 2), t.getF (F.HEAD_CNT_COUNT 2 1), (t.head 2).active.map (·.under)))
      = (if 0 < (heading {} []).hActive 2 then some (true, 1, some true) else some (false, 0, some false)) ∧
    got (.headStatusRead 2) (heading { frame := 12, stamp := 34 } []) (fun t => (t.getF (F.HEAD_FRAME_FRAME 2),
      t.getF (F.HEAD_FRAME_STAMP_STAMP 2))) = some (12, 34) ∧
    got (.headCommitReq 2) (heading {} [(F.HEAD_STATUS_WINDOW_OPEN 2, 1)]) (fun t => (t.bit (F.HEAD_COMMIT_REQ 2),
      t.bit (F.HEAD_ERR_COMMIT_LATE 2))) = some (true, false) ∧
    got (.headCommitReq 2) (heading {} []) (fun t => (t.bit (F.HEAD_COMMIT_REQ 2), t.bit (F.HEAD_ERR_COMMIT_LATE 2),
      t.getF (F.HEAD_CNT_COUNT 2 0))) = some (true, true, 1) ∧
    got (.headGroupCommitReq 1) (heading {} [(F.HEAD_STATUS_WINDOW_OPEN 2, 1)]) (·.bit (F.HEAD_COMMIT_REQ 2)) = some true ∧
    got (.headGroupCommitReq 3) (heading {} []) (·.bit (F.HEAD_COMMIT_REQ 2)) = some false ∧
    got (.headCrcRectWrite 2 5 true 6#32) (heading {} []) (·.staged) = some [(R.HEAD_CRC_WH 2 5, 6#32)] := by decide +kernel

/-- The raster moves on by a line (ScanOutHeads). -/
theorem witness_head_lines :
    got (.headLine 2 [] []) (heading {} []) (fun t => ((t.head 2).running, (t.head 2).line, (t.head 2).frame)) = some (true, 0, 0) ∧
    got (.headLine 2 [] []) (heading { running := true, total := 9, line := 1, frame := 7 } []) (fun t =>
      ((t.head 2).line, (t.head 2).frame)) = some (2, 7) ∧
    got (.headLine 2 [] []) (heading { running := true, total := 9, line := 8, frame := 7 } []) (fun t =>
      ((t.head 2).line, (t.head 2).frame)) = some (0, 8) := by decide +kernel

/-! ## HBM -/

/-- Pseudo-channel 0 of a device with an image. -/
def banked (p : PseudoChannel) (l : List (Field × Nat)) : State := (put grown l).setPc 0 p

/-- A whole-word write of 32 bytes and a read of 4, as they arrive and as they wait. -/
def wordIn : MemOp := ⟨0, 5, 1, 64, List.replicate 32 9#8, 0, 0, true, true, 64⟩
def readIn : MemOp := ⟨1, 5, 1, 68, [], 4, 0, true, true, 64⟩
def wordWaits : MemReq := ⟨3, 0, 5, 1, 64, List.replicate 32 9#8, 0⟩
def readWaits : MemReq := ⟨4, 1, 5, 1, 68, [], 4⟩

/-- Requests and their issue (HbmRequests). -/
theorem witness_hbm_requests :
    grown.up 8 = true ∧ grown.pcOf 64 = 0 ∧ 0 < Variant.pcs grown.variant ∧
    got (.memRequest readIn) (banked { writes := [wordWaits] } []) (·.out) = some [.memData 5 1 68 (List.replicate 4 9#8) false] ∧
    got (.memRequest readIn) (banked {} []) (fun t => (t.pc 0).reads) = some [⟨0, 1, 5, 1, 68, [], 4⟩] ∧
    got (.memRequest wordIn) (banked {} []) (fun t => (t.pc 0).writes) = some [⟨0, 0, 5, 1, 64, List.replicate 32 9#8, 0⟩] ∧
    got (.memRequest wordIn) (banked { writes := List.replicate 64 { wordWaits with addr := 0 } } []) (fun t => (t.pc 0).writes.length)
      = some 64 ∧
    got (.memRequest { readIn with cls := 4 }) (put grown [(F.MEM_PANIC_RD_LEVEL, 2)])
      (fun t => (t.hbm.panic.at false (portKey false 5 1), t.getF (F.MEM_CLASS_PANICS_COUNT 0))) = some (true, 1) ∧
    got (.memRequest { wordIn with cls := 6, level := 16 }) grown
      (fun t => (t.bit F.MEM_ERR_LINE_DROP, t.hbm.poison.at false 2)) = some (true, true) ∧
    got (.memIssue 0 []) (banked { postponed := [(2, 8)] } []) (fun t => (t.pc 0).postponed) = some [] := by decide +kernel

/-- A waiting read and a waiting write are issued; drains, power-down and refresh (HbmRequests). -/
theorem witness_hbm_issue :
    grown.nextReq { reads := [readWaits] } = some readWaits ∧ grown.getF F.MEM_WM_HIGH ≠ 0 ∧
    (put grown [(F.MEM_WM_HIGH, 0)]).nextReq { writes := [wordWaits] } = some wordWaits ∧
    got (.memIssue 0 []) (banked { reads := [readWaits] } []) (·.out) = some [.memData 5 1 68 [0#8, 0#8, 0#8, 0#8] false] ∧
    got (.memIssue 0 []) (banked { writes := [wordWaits] } [(F.MEM_WM_HIGH, 0)]) (fun t => (t.hbm.byte 95, (t.pc 0).writes))
      = some (9#8, []) ∧
    got (.memDrainIdleTimeout 0) (banked { writes := [wordWaits] } []) (fun t => (t.pc 0).drain) = some true ∧
    got (.memIdlePowerdown 0 1) (banked { writes := [wordWaits] } [(F.MEM_CTL_IDLE_NS, 1)])
      (fun t => (t.pc 0).down.at false 1) = some true ∧
    got (.memIdlePowerdown 0 0) (banked { writes := [wordWaits] } [(F.MEM_CTL_IDLE_NS, 1)])
      (fun t => (t.pc 0).down.at false 0) = some false ∧
    got (.memRefresh 0 2) (banked { writes := [wordWaits] } []) (fun t => (t.pc 0).postponed.at 0 2) = some 1 := by decide +kernel

/-- Retraining fails twice; watermarks (HbmRequests). -/
theorem witness_hbm_retraining :
    got (.memRetrain 0 false) (banked { trainFails := 1 } [])
      (fun t => ((t.pc 0).retireDue, t.bit (F.MEM_STK_ERR_TRAIN_FAIL 0))) = some (true, true) ∧
    got (.memRetrainForced 0 true) (banked { trainFails := 1 } []) (fun t => (t.pc 0).trainFails) = some 0 ∧
    got (.memRetrain 0 false) ({ banked { reads := [{ readWaits with cls := 5 }] } [] with
      hbm := { (banked { reads := [{ readWaits with cls := 5 }] } []).hbm with panic := [(portKey false 5 1, true)] } })
      (fun t => (t.pc 0).trainFails) = some 0 ∧
    got (.memWmWrite 0x0840#32) grown (fun t => (t.getF F.MEM_WM_HIGH, t.getF F.MEM_WM_LOW)) = some (64, 8) ∧
    got (.memWmWrite 0x3f00#32) grown (fun t => (t.getF F.MEM_WM_HIGH, t.getF F.MEM_WM_LOW)) = some (0, 63) ∧
    got (.memWmWrite 0x4000#32) grown (fun t => t == grown) = some true ∧
    got (.memWmWrite 0x1010#32) grown (fun t => t == grown) = some true := by decide +kernel

/-- Scrubs, remaps and retirement (HbmScrubAndRetirement). -/
theorem witness_hbm_scrub :
    (qorethRead (List.replicate 32 0#8) false [⟨3, 1#8⟩]).1 = List.replicate 32 0#8 ∧
    (qorethRead (List.replicate 32 0#8) false [⟨0, 1#8⟩, ⟨1, 2#8⟩, ⟨2, 3#8⟩]).2 = .uncorrectable ∧
    grown.getF F.MEM_CTL_SCRUB_HOURS ≠ 0 ∧ grown.pcState 0 = 0 ∧
    got (.memScrub 0 [⟨3, 1#8⟩]) grown (fun t => (t.getF (F.MEM_PC_CORR_COUNT 0 0), t.getF (F.MEM_PC_SCRUB_COUNT 0 0)))
      = some (1, 1) ∧
    got (.memScrub 0 [⟨0, 1#8⟩, ⟨1, 2#8⟩, ⟨2, 3#8⟩]) grown (fun t => (t.hbm.poison.at false 0, t.bit (F.MEM_STK_ERR_UNCORR 0)))
      = some (true, true) ∧
    got (.memRowRemap 0 []) (banked { due := [7] } []) (fun t => ((t.pc 0).remapped, (t.pc 0).due)) = some ([7], []) ∧
    got (.memRowRemap 0 []) (banked { due := [7], remapped := [5, 6] } []) (·.bit F.GLB_SPARE_ROW_EXH) = some true := by
  decide +kernel

/-- A pseudo-channel retires into the reserve, and where nothing is to be moved (HbmScrubAndRetirement). -/
theorem witness_hbm_retire :
    grown.inService 0 = true ∧ (grown.setF (F.MEM_PC_STATE_STATE 0 0) 1).reserveTakes 0 = true ∧
    got (.memPcRetire 0) (banked { retireDue := true } []) (·.pcState 0) = some 1 ∧
    got (.memRetireComplete 0 []) (banked { retireDue := true } [(F.MEM_PC_STATE_STATE 0 0, 1)])
      (fun t => (t.pcState 0, (t.pc 0).retireDue, t.getF (F.MEM_STK_STATUS_RETIRED 0))) = some (2, false, 1) := by decide +kernel

/-! ## The recording engine -/

/-- The engine with registers set, and what it holds. -/
def recording (f : Recorder → Recorder) (l : List (Field × Nat)) : State :=
  let s := put grown l
  { s with recorder := f s.recorder }

/-- A submission entry: opcode, CID 7, byte 4 and the bytes from 16 on. -/
def entryBytes (op flags drive : Nat) (l : List Byte) : List Byte :=
  padTo 64 (leBytes 1 op ++ leBytes 1 flags ++ leBytes 2 7 ++ leBytes 1 drive ++ padTo 11 [] ++ l)
def entryOf (op flags drive : Nat) (l : List Byte) : RecEntry := ⟨3, 1, entryBytes op flags drive l⟩

/-- Queues are set up, rung and reset (RecordingQueues). -/
theorem witness_rec_queues :
    grown.reaches 9 = true ∧ grown.up 9 = true ∧ grown.bit F.REC_STATUS_READY = false ∧
    got (.recIfaceWrite 1 9) grown (fun t => (t.bit F.REC_STATUS_READY, t.getF F.REC_STATUS_MAJOR)) = some (true, 1) ∧
    got (.recIfaceWrite 2 0) grown (fun t => (t.bit F.REC_STATUS_READY, t.bit F.REC_STATUS_VER_BAD)) = some (false, true) ∧
    got (.recCqSizeWrite 3 8 true) (put grown [(F.REC_STATUS_READY, 1)]) (fun t => t.getF (F.REC_CQ_CTL_SIZE 3)) = some 8 ∧
    got (.recCqSizeWrite 3 0 true) (put grown [(F.REC_SQ_CTL_SIZE 5, 4), (F.REC_SQ_CTL_CQ 5, 3), (F.REC_CQ_CTL_SIZE 3, 8)])
      (fun t => t.getF (F.REC_CQ_CTL_SIZE 3)) = some 8 ∧
    got (.recSqSizeWrite 5 4 3 2) (put grown [(F.REC_STATUS_READY, 1), (F.REC_CQ_CTL_SIZE 3, 8)])
      (fun t => (t.getF (F.REC_SQ_CTL_SIZE 5), t.getF (F.REC_SQ_CTL_CLASS 5))) = some (4, 2) ∧
    got (.recSqDoorbell 5 3) (put grown [(F.REC_SQ_CTL_SIZE 5, 4)]) (fun t => t.recorder.sqTail.at 0 5) = some 3 ∧
    got (.recCqDoorbell 3 8) (put grown [(F.REC_CQ_CTL_SIZE 3, 8)]) (fun t => t.recorder.cqHead.at 0 3) = some 0 ∧
    got (.recTempWinWrite 2 0x3C05#32) grown (fun t => t.getF (F.REC_DRIVE_TEMP_WIN_LO 2)) = some 5 ∧
    got (.recTempWinWrite 2 0x0804#32) grown (fun t => t == grown) = some true ∧
    got (.recSqReset 3) (recording (fun x => { x with fetched := [entryOf 1 0 0 []] }) [])
      (fun t => (t.recorder.fetched, t.recorder.done.map (·.code))) = some ([], [14]) := by decide +kernel

/-- Queue 5 of completion queue 3 has one entry to be fetched. -/
def queued (l : List (Field × Nat)) : State :=
  recording (fun x => { x with sqTail := [(5, 1)], roundClass := 1 })
    ([(F.REC_SQ_CTL_SIZE 5, 4), (F.REC_SQ_CTL_CQ 5, 3), (F.REC_CQ_CTL_SIZE 3, 8), (F.REC_CQ_TAIL_PHASE 3, 1),
      (F.REC_ARB_W_HIGH, 4), (F.REC_ARB_W_MED, 2), (F.REC_ARB_W_LOW, 1)] ++ l)

/-- Fetches and completions (RecordingQueues). -/
theorem witness_rec_fetch :
    (queued []).sqWaits 5 = true ∧ ((List.range 64).filter (queued []).sqWaits) = [5] ∧
    got (.recFetch (entryBytes 0x33 0 0 [])) (queued []) (fun t => t.recorder.done.map (fun d => (d.cq, d.sq, d.cid, d.code)))
      = some [(3, 5, 7, 1)] ∧
    got (.recFetch (entryBytes 2 0 0 (padTo 47 [] ++ [1#8]))) (queued []) (fun t => t.recorder.done.map (·.code)) = some [2] ∧
    got (.recFetch (entryBytes 5 0 0 [])) (queued []) (fun t => t.recorder.done.map (fun d => (d.code, d.zero))) = some [(0, true)] ∧
    got (.recFetch (entryBytes 5 0 0 [3#8])) (queued []) (fun t => (t.recorder.fetched.map (·.sq), t.getF (F.REC_SQ_HEAD_HEAD 5)))
      = some ([5], 1) := by decide +kernel

/-- The host has enabled MSI-X on a link that is up. -/
def linked (s : State) : State := { s with power := { s.power with msixOn := true, pcieUp := true } }

/-- A completion waits for queue 3, whose tail is here. -/
def posting (tail : Nat) : State :=
  linked (recording (fun x => { x with done := [⟨3, 5, 1, 7, 0, false, 258⟩] })
    [(F.REC_CQ_CTL_SIZE 3, 8), (F.REC_CQ_TAIL_PHASE 3, 1), (F.REC_CQ_CTL_VEC_EN 3, 1), (F.REC_CQ_TAIL_TAIL 3, tail)])

/-- A completion that waits is posted, with its vector (RecordingQueues, CompletionVectors). -/
theorem witness_rec_post :
    (posting 7).recorder.cqHead.at 0 3 = 0 ∧ (posting 7).cqRoom 3 = false ∧ (posting 6).cqRoom 3 = true ∧
    got (.recCompletionPost 3) (posting 7) (fun t => t == posting 7) = some true ∧
    got (.recCompletionPost 3) (posting 6) (fun t => (t.msix, t.out)) = some ([3],
      [.hostWrite 96 ([2#8, 1#8] ++ padTo 6 [] ++ [1#8, 0#8, 5#8, 0#8, 7#8, 0#8, 1#8, 0#8])]) := by decide +kernel

/-- Events are enabled. -/
def telling : State := linked (put grown [(F.REC_CQ_CTL_SIZE 0, 8), (F.REC_CQ_CTL_VEC_EN 0, 1), (F.REC_CTL_EVENTS_EN, 1)])

/-- A drive attaches with events enabled (CompletionVectors, RecordingStreams). -/
theorem witness_rec_event :
    telling.portServes 2 = true ∧ telling.cqRoom 0 = true ∧ telling.up 9 = true ∧ telling.bit F.REC_CTL_EVENTS_EN = true := by
  decide +kernel

/-- A layout, and a drive on which its first superblock stands; one on which the descriptor of clip 1 is open as well. -/
def tape : RecLayout := ⟨false, 1, 77, 0, 1, 0, 4, 1000, 8, 10, 20, 12, 5⟩
def blank : RecDrive := { media := mediaWrite [] 0 tape.block }
def clipped : RecDrive := { media := mediaWrite blank.media 8200 [2#8] }

/-- Drive 0 is present, and an entry is fetched. -/
def taped (d : RecDrive) (e : RecEntry) (l : List (Field × Nat)) : State :=
  recording (fun x => { x with drives := [(0, d)], fetched := [e] }) ((F.REC_DRIVE_STATUS_PRESENT 0, 1) :: l)
/-- The registers of a bed with one slot that taps into plot 1. -/
def tapping : List (Field × Nat) :=
  [(F.BED_CFG_JOIN 0, 1), (F.BED_CFG_SLOTS 0, 1), (F.BED_TAP_DEST 0 0, 2), (F.BED_TAP_TARGET 0 0, 1)]

/-- Commands on a drive that is absent, ready, interlocked and empty (RecordingCommands). -/
theorem witness_rec_commands :
    (taped blank (entryOf 1 0 0 []) []).up 9 = true ∧ (taped blank (entryOf 2 0 0 []) []).driveCode 0 = none ∧
    (taped blank (entryOf 2 0 1 []) []).driveCode 1 = some 3 ∧ maskDrives 5 = [0, 2] ∧
    (taped blank (entryOf 3 0 0 [1#8]) []).drivesCode [0] = none ∧ (taped blank (entryOf 3 0 0 [5#8]) []).drivesCode [0, 2] = some 3 ∧
    (taped blank (entryOf 3 0 0 [1#8]) [(F.REC_DRIVE_STATUS_INTERLOCK 0, 1)]).interlocked [0] = true ∧
    ([0].any (taped blank (entryOf 3 0 0 [1#8]) []).recordsTo) = false ∧
    (taped blank (entryOf 0x10 1 0 [4#8, 2#8, 1#8]) tapping).sourceOk 2 1 0 = true ∧
    (taped blank (entryOf 0x10 1 0 [4#8, 2#8, 1#8]) []).sourceOk 2 1 0 = false ∧
    got .mediaFlush (taped blank (entryOf 5 0 0 [1#8]) []) (fun t => t.recorder.nvme.map fun c => (c.drive, c.kind))
      = some [(0, .flush)] ∧
    got .mediaFormat (taped blank (entryOf 3 0 0 [5#8]) []) (fun t => t.recorder.done.map (·.code)) = some [3] ∧
    got .recordStart (taped blank (entryOf 0x10 1 0 [4#8, 2#8, 1#8]) tapping) (fun t => (t.recorder.done.map (·.code), t.recState 4,
      t.getF (F.REC_STREAM_STATUS_OWNER 4))) = some ([0], 1, 3) := by decide +kernel

theorem blank_layout : blank.layout = some tape :=
  RecDrive.layout_first _ _ (by unfold RecLayout.fits; decide) rfl fun _ _ => by simp only [blank]

theorem clipped_layout : clipped.layout = some tape :=
  RecDrive.layout_first _ _ (by unfold RecLayout.fits; decide) rfl fun x hx => by
    simp only [clipped, blank, at_mediaWrite]; rw [if_neg (by omega)]

theorem taped_layout (d : RecDrive) (e : RecEntry) (l : List (Field × Nat)) (h : d.layout = some tape)
    (hd : (taped d e l).driveCode 0 = none) (hr : (taped d e l).recDrive 0 = d) : (taped d e l).layoutOf 0 = some tape := by
  rw [State.layoutOf, hd, hr, h]; rfl

theorem taped_set (d : RecDrive) (e : RecEntry) (l : List (Field × Nat)) (h : (taped d e l).layoutOf 0 = some tape) :
    (taped d e l).setOf 0 = some [0] := by
  have r : List.range 4 = [0, 1, 2, 3] := rfl
  have c : List.range 1 = [0] := rfl
  simp [State.setOf, h, tape, c, r, List.find?]

theorem taped_code (d : RecDrive) (e : RecEntry) (l : List (Field × Nat)) :
    (taped d e l).driveCode 0 = (put grown ((F.REC_DRIVE_STATUS_PRESENT 0, 1) :: l)).driveCode 0 := rfl

/-- A drive with a layout, alone in its set, with and without a clip (RecordingCommands). -/
theorem witness_rec_clips (e : RecEntry) :
    (taped blank e tapping).setOf 0 = some [0] ∧ (taped blank e tapping).freeClip [0] = some 1 ∧
    (taped clipped e []).setOf 0 = some [0] ∧ (taped clipped e []).clipFound 1 [0] = true ∧
    (taped blank e []).clipFound 1 [0] = false ∧ (taped clipped e []).clipBusy 1 [0] = false := by
  have b (l) (h : (put grown ((F.REC_DRIVE_STATUS_PRESENT 0, 1) :: l)).driveCode 0 = none) :
      (taped blank e l).layoutOf 0 = some tape := taped_layout _ _ _ blank_layout ((taped_code _ _ _).trans h) rfl
  have c (l) (h : (put grown ((F.REC_DRIVE_STATUS_PRESENT 0, 1) :: l)).driveCode 0 = none) :
      (taped clipped e l).layoutOf 0 = some tape := taped_layout _ _ _ clipped_layout ((taped_code _ _ _).trans h) rfl
  have b0 := b [] (by decide +kernel)
  have b1 := b tapping (by decide +kernel)
  have c0 := c [] (by decide +kernel)
  have lb : tape.block.length = 4096 := length_sealBlock _
  have sb : blank.clipState 1 = 0 := by
    simp only [RecDrive.clipState, RecDrive.read, byteAt, blank, at_mediaWrite, descAddr, lb]; rfl
  have sc : clipped.clipState 1 = 2 := by
    simp only [RecDrive.clipState, RecDrive.read, byteAt, clipped, at_mediaWrite, descAddr]; rfl
  have fb (l) (h : (taped blank e l).layoutOf 0 = some tape) : (taped blank e l).clipFound 1 [0] = false := by
    simp [State.clipFound, h, show (taped blank e l).recDrive 0 = blank from rfl, sb]
  refine ⟨taped_set _ _ _ b1, ?_, taped_set _ _ _ c0, ?_, fb _ b0, ?_⟩
  · have busy : (taped blank e tapping).clipBusy 1 [0] = (put grown ((F.REC_DRIVE_STATUS_PRESENT 0, 1) :: tapping)).clipBusy 1 [0] :=
      rfl
    have idle : (put grown ((F.REC_DRIVE_STATUS_PRESENT 0, 1) :: tapping)).clipBusy 1 [0] = false := by decide +kernel
    have r : List.range 8 = [0, 1, 2, 3, 4, 5, 6, 7] := rfl
    simp [State.freeClip, b1, tape, r, fb _ b1, busy, idle]
  · simp [State.clipFound, c0, tape, show (taped clipped e []).recDrive 0 = clipped from rfl, sc]
  · have busy : (taped clipped e []).clipBusy 1 [0] = (put grown ((F.REC_DRIVE_STATUS_PRESENT 0, 1) :: [])).clipBusy 1 [0] := rfl
    rw [busy]; decide +kernel

/-- Stream 4 as it stands, with plot 1 of 512 bytes; its trug 7 holds an item of 40 bytes. -/
def streamed (x : RecStream) (f : Recorder → Recorder) (l : List (Field × Nat)) : State :=
  let s := put plotted l
  { s with
    recorder := f { s.recorder with streams := [(4, { x with srcKind := 1, source := 7, preroll := 1 })] }
    trugs := [(7, { ring := [⟨List.replicate 32 1#8, 0#8⟩, ⟨padTo 32 [], 0x28#8⟩] })] }

/-- An item of 40 bytes, and a take with one in its ring. -/
def itemOne : RecItem := ⟨9, List.replicate 40 1#8, false, false, 0, 0, none⟩
def take (ring : List RecItem) : RecStream := { start := some 5, ring := ring, members := [0] }

/-- Items come and are refused; the hold counts them (RecordingStreams). -/
theorem witness_rec_items :
    plotted.up 9 = true ∧ ((streamed {} id []).plot? 1).map (·.size) = some 512 ∧
    (headItem ((streamed {} id []).trug 7).ring).isSome = true ∧ itemOne.size = 96 ∧
    got (.recItemTake 4 [] []) (streamed {} id [(F.REC_STREAM_STATUS_STATE 4, 1)])
      (fun t => ((t.trug 7).ring, (t.recStream 4).ring.map (·.bytes.length))) = some ([], [40]) ∧
    got (.recItemTake 4 [] []) (streamed { ring := List.replicate 5 itemOne } id [(F.REC_STREAM_STATUS_STATE 4, 1)])
      (fun t => (t.recStream 4).ring.length) = some 5 ∧
    got (.recItemTake 4 [] []) (streamed {} id []) (fun t => (t.trug 7).ring.length) = some 2 := by decide +kernel

/-- Stream 4 records onto an interlocked drive, whose stop waits (RecordingStreams). -/
def stopping (x : RecStream) : State :=
  streamed { x with members := [0], stopEntry := some (entryOf 0x11 0 0 [4#8]) } id
    [(F.REC_STREAM_STATUS_STATE 4, 3), (F.REC_DRIVE_STATUS_INTERLOCK 0, 1)]

/-- Checkpoints, stops and marks (RecordingStreams, RecordingCommands). -/
theorem witness_rec_stops :
    got (.recCheckpoint 4) (streamed (take []) id [(F.REC_STREAM_STATUS_STATE 4, 2), (F.REC_CTL_CHECKPOINT_MS, 9)])
      (fun t => ((t.recStream 4).checking, t.recorder.nvme.map fun c => (c.drive, c.kind))) = some (true, [(0, .flush)]) ∧
    (stopping {}).interlocked [0] = true ∧
    got (.recStopWaitExpire 4) (stopping {}) (fun t => ((t.recStream 4).stopLate, t.recorder.done.map (·.code))) = some (true, [6]) ∧
    got .recordStop (streamed (take [itemOne]) (fun x => { x with
        fetched := [entryOf 0x11 1 0 (padTo 8 [4#8] ++ [8#8])], nvme := [⟨9, 0, .flush, 0, 4, 0⟩] }) [(F.REC_STREAM_STATUS_STATE 4, 2)])
      (fun t => (t.recState 4, (t.recStream 4).stop, (t.recStream 4).ring, (t.recStream 4).disarm)) = some (3, some 8, [], true) ∧
    got .recordStop (streamed { take [] with lost := true } (fun x => { x with fetched := [entryOf 0x11 1 0 [4#8]] })
      [(F.REC_STREAM_STATUS_STATE 4, 2)]) (fun t => (t.recState 4, t.recorder.done.map (·.code))) = some (0, [3]) ∧
    got .clipMark (streamed { take [] with records := 1, firstStamp := 5 } (fun x => { x with
        fetched := [entryOf 0x12 0 0 (padTo 8 [4#8, 2#8] ++ [8#8])] }) [(F.REC_STREAM_STATUS_STATE 4, 2)])
      (fun t => (t.recStream 4).marks.map (·.stamp)) = some [8] ∧
    got .clipMark (streamed { take [] with records := 1, firstStamp := 9 } (fun x => { x with
        fetched := [entryOf 0x12 0 0 (padTo 8 [4#8, 2#8] ++ [8#8])] }) [(F.REC_STREAM_STATUS_STATE 4, 2)])
      (fun t => t.recorder.done.map (·.code)) = some [2] := by decide +kernel

/-- NVMe completions, polls, and ports (RecordingStreams). -/
theorem witness_rec_drives :
    got (.nvmeCompletion 9 true) (streamed (take [{ itemOne with issued := some 0 }])
        (fun x => { x with nvme := [⟨9, 0, .write 40960 [1#8], 0, 4, 0⟩] }) [])
      (fun t => (t.recDrive 0).media) = some [(40960, 1#8)] ∧
    got (.nvmeCompletion 9 false) (streamed {} (fun x => { x with
        nvme := [⟨9, 0, .flush, 1, 0, 0⟩], jobs := [⟨1, some (entryOf 5 0 0 [1#8]), [], 1, none, .complete 0⟩] }) [])
      (fun t => (t.recorder.done.map (·.code), t.getF (F.REC_DRIVE_CNT_COUNT 0 0))) = some ([12], 1) ∧
    got (.nvmeCompletion 9 true) (streamed {} (fun x => { x with
        nvme := [⟨9, 0, .flush, 1, 0, 0⟩], jobs := [⟨1, some (entryOf 5 0 0 [1#8]), [], 1, none, .complete 0⟩] }) [])
      (fun t => t.recorder.done.map (·.code)) = some [0] ∧
    got (.nvmeTimeout 9) (streamed {} (fun x => { x with nvme := [⟨9, 0, .flush, 1, 0, 0⟩] }) [(F.REC_DRIVE_STATUS_PRESENT 0, 1)])
      (fun t => t.bit (F.REC_DRIVE_STATUS_FAILED 0)) = some true ∧
    got (.recTempPoll 0 90) (put grown [(F.REC_DRIVE_STATUS_PRESENT 0, 1)]) (·.bit (F.REC_DRIVE_STATUS_INTERLOCK 0)) = some true ∧
    got (.recTempPoll 0 30) (put grown [(F.REC_DRIVE_STATUS_PRESENT 0, 1), (F.REC_DRIVE_STATUS_INTERLOCK 0, 1)])
      (·.bit (F.REC_DRIVE_STATUS_INTERLOCK 0)) = some false ∧
    got (.driveLost 0) (put grown [(F.REC_DRIVE_STATUS_PRESENT 0, 1)]) (·.bit (F.REC_DRIVE_STATUS_FAILED 0)) = some true ∧
    got (.recPortLinkReset 1 4 3 4 2) (put grown [(F.REC_PORT_CTL_EN 1, 1), (F.REC_PORT_CTL_SPLIT 1, 1)])
      (fun t => (t.getF (F.REC_PORT_STATUS_WIDTH_A 1), t.getF (F.REC_PORT_STATUS_SPEED_B 1))) = some (4, 2) := by decide +kernel

/-! ## Hedgerow -/

/-- Runner 0 of port 0 and Runner 12 of port 1 are ACTIVE; what the hedgerow holds, and registers. -/
def chained (h : Hedgerow) (l : List (Field × Nat)) : State :=
  { growing [] ([(F.RUN_CTL_ROLE 0, 2), (F.RUN_STATUS_STATE 0, 8), (F.RUN_CTL_ROLE 12, 3), (F.RUN_STATUS_STATE 12, 8),
      (F.HRW_PORT_STATUS_VERSION 0, 16), (F.HRW_PORT_STATUS_VERSION 1, 16)] ++ l)
    with hedge := { h with ports := [(0, { up := true, helloSeen := true }), (1, { up := true, helloSeen := true })] } }

/-- A message: its type, its flags and its body; the head of the chain. -/
def msg (type flags : Nat) (body : List Byte) : List Byte := closeBlock 0x4B (leBytes 1 type ++ leBytes 1 flags ++ body)
def headed (h : Hedgerow) (l : List (Field × Nat)) : State := chained h ((F.HRW_STATUS_HEAD, 1) :: l)

/-- Blocks that are refused, HELLO, and messages that go on (HedgerowMessages). -/
theorem witness_hedge_messages :
    (chained {} []).hedgeRx 0 = some 0 ∧ (chained {} []).hedgeRx 12 = some 1 ∧ (chained {} []).hedgeRx 1 = none ∧
    (chained {} []).hedgeActive 0 = [0] ∧ ((chained {} []).runner 0).l1Tx = false ∧ blockOk 0x4B (msg 1 1 []) = true ∧
    got (.hello 0 (padTo 16 [0x4B#8])) (chained {} []) (fun t => (t.bit F.HRW_ERR_MSG_BAD, t.getF (F.HRW_PORT_CNT_COUNT 0 6)))
      = some (true, 1) ∧
    got (.unknownMessageRx 0 (msg 9 1 [])) (chained {} []) (·.bit F.HRW_ERR_MSG_BAD) = some true ∧
    got (.enumEnd 0 (msg 0x10 0 (leBytes 3 (5 * 4096 + 3)))) (chained {} [])
      (·.out) = some [.control 12 0x4B ((msg 0x10 0 (leBytes 3 (5 * 4096 + 3))).drop 1)] ∧
    got (.enumEnd 0 (msg 0x10 0 (leBytes 3 (5 * 4096)))) (chained {} [(F.RUN_STATUS_STATE 12, 0)])
      (·.bit F.HRW_ERR_NO_ROUTE) = some true ∧
    got (.wake 0 (msg 0x14 0 [])) (chained {} []) (fun t => t == chained {} []) = some true ∧
    got (.hello 0 (msg 1 1 (leBytes 2 (0x8000 + 9)))) (chained {} [(F.HRW_ADDR_VALID, 1), (F.HRW_ADDR_ADDR, 3)])
      (fun t => (t.getF (F.HRW_PORT_PEER_ADDR 0), t.bit (F.HRW_PORT_STATUS_BROKEN 0))) = some (9, true) ∧
    got (.hello 0 (msg 1 1 (leBytes 2 (0x8000 + 4)))) (chained {} [(F.HRW_ADDR_VALID, 1), (F.HRW_ADDR_ADDR, 3)])
      (fun t => (t.getF (F.HRW_PORT_STATUS_CAP 0), t.getF (F.HRW_PORT_STATUS_GAP 0))) = some (7, 0) := by decide +kernel

/-- Enumeration: tokens, acknowledgements and ends (HedgerowMessages). -/
theorem witness_hedge_tokens :
    got (.enumToken 0 (msg 2 1 (leBytes 2 4 ++ leBytes 2 1))) (chained {} [])
      (fun t => (t.hedge.pend, t.hedge.tokenOut, t.out.length)) = some (some (5, 1), true, 2) ∧
    got (.enumToken 0 (msg 2 1 (leBytes 2 4 ++ leBytes 2 1))) (chained {} [(F.RUN_STATUS_STATE 12, 0)])
      (fun t => (t.hedge.pend, t.hedge.tokenOut, t.out.length)) = some (some (5, 1), false, 2) ∧
    got (.enumToken 0 (msg 2 1 (leBytes 2 4095 ++ leBytes 2 1))) (chained {} []) (·.bit F.HRW_ERR_OVERFLOW) = some true ∧
    got (.enumToken 0 (msg 2 1 (leBytes 2 4 ++ leBytes 2 1))) (headed { pend := some (0, 1), epoch := 1 } [])
      (fun t => (t.getF F.HRW_STATUS_COUNT, t.bit F.HRW_STATUS_RING)) = some (5, true) ∧
    got (.enumAck 12 (msg 3 1 (leBytes 2 6 ++ leBytes 2 1))) (chained { pend := some (5, 1), tokenOut := true } [])
      (·.hedge.tokenOut) = some false ∧
    got (.enumEnd 12 (msg 0x10 0 (leBytes 3 (5 * 4096) ++ leBytes 2 6 ++ leBytes 2 1))) (headed { pend := some (0, 1), epoch := 1 } [])
      (fun t => (t.getF F.HRW_STATUS_COUNT, t.hedge.pend)) = some (6, none) ∧
    got (.enumDone 0 (msg 0x11 2 (leBytes 3 0 ++ leBytes 2 6 ++ leBytes 2 1)))
      (chained { pend := some (5, 1) } [(F.HRW_ADDR_VALID, 1), (F.HRW_ADDR_ADDR, 3)])
      (fun t => (t.getF F.HRW_ADDR_ADDR, t.bit F.HRW_ERR_ADDR_CHANGED, t.getF F.HRW_STATUS_COUNT)) = some (5, true, 6) ∧
    got (.join 12 (msg 0x12 0 (leBytes 3 (5 * 4096)))) (headed {} [(F.HRW_CTL_AUTO_ENUM, 0)]) (·.bit F.HRW_ERR_JOIN_PENDING) = some true ∧
    got (.join 12 (msg 0x12 0 (leBytes 3 (5 * 4096)))) (headed { pend := some (0, 1) } [(F.HRW_CTL_AUTO_ENUM, 1)]) (·.hedge.again)
      = some true ∧
    got .enumTokenRepeat (chained { pend := some (5, 1), tokenOut := true } []) (·.out.length) = some 1 ∧
    got .enumAckTimeout (headed { pend := some (0, 1), tokenOut := true } []) (·.getF F.HRW_STATUS_COUNT) = some 1 ∧
    got .hrwEnumCmd (headed {} []) (fun t => (t.hedge.pend, t.hedge.epoch)) = some (some (0, 1), 1) := by decide +kernel

/-- A header word of an item from device 5 of 3 bytes on stream 2: to this address, with these hops. -/
def header (src dest hops : Nat) : NawenWord :=
  ⟨closeHeader (leBytes 2 0x4E49 ++ leBytes 1 1 ++ leBytes 1 0 ++ leBytes 2 src ++ leBytes 2 dest ++ leBytes 2 hops ++ leBytes 1 2
    ++ leBytes 1 0x10 ++ leBytes 4 3 ++ leBytes 4 0), false⟩
def payload : NawenWord := ⟨padTo 32 [1#8, 2#8, 3#8], false⟩

/-- Device 3 of the chain, with trug 9 as the route of stream 2. -/
def routed (l : List (Field × Nat)) : State :=
  chained {} ([(F.HRW_ADDR_VALID, 1), (F.HRW_ADDR_ADDR, 3), (F.HRW_ROUTE_EN 6, 1), (F.HRW_ROUTE_STREAM 6, 2), (F.HRW_ROUTE_ANY_SRC 6, 1),
    (F.HRW_ROUTE_TRUG 6, 9), (F.TRUG_CFG_DEPTH 9, 4)] ++ l)

/-- Items that are received, delivered and forwarded (HedgerowItems). -/
theorem witness_hedge_items :
    headerOk (header 5 3 0) = true ∧ itemKind (header 5 3 0).data = 1 ∧ itemLen (header 5 3 0).data = 3 ∧
    itemVer (header 5 3 0).data = 16 ∧ (routed []).routeOf (header 5 3 0).data = some 6 ∧
    got (.hrwItemRx 0 [⟨padTo 32 [], false⟩]) (routed []) (fun t => (t.bit F.HRW_ERR_HDR_BAD, t.getF (F.HRW_PORT_CNT_COUNT 0 4)))
      = some (true, 1) ∧
    got (.hrwItemRx 0 [header 5 3 0, payload]) (routed []) (fun t => (t.trug 9).ring) = some [packedWord [1#8, 2#8, 3#8] true] ∧
    got (.hrwItemRx 0 [header 5 3 0, payload]) (routed [(F.HRW_ROUTE_EN 6, 0)]) (·.bit F.HRW_ERR_NO_ROUTE) = some true ∧
    got (.hrwItemRx 0 [header 5 4 0, payload]) (routed []) (fun t => (t.hedgePort 1).fwd.map fun x => itemHops x.header) = some [1] ∧
    got (.hrwItemRx 0 [header 5 4 4094, payload]) (routed []) (·.bit F.HRW_ERR_NO_ROUTE) = some true ∧
    got (.hrwItemRx 0 [header 5 4 0, payload]) (routed [(F.HRW_PORT_STATUS_VERSION 1, 15)]) (·.bit F.HRW_ERR_VER_DROP) = some true ∧
    got (.hrwItemRx 0 [header 3 4 0, payload]) (routed []) (fun t => (t.hedgePort 1).fwd) = some [] := by decide +kernel

/-- Port 0 holds an item to forward; slot 4 sends trug 9, in which an item of one byte waits. -/
def sending (fwd : List NawenItem) : State :=
  let s := routed [(F.HRW_SEND_EN 4, 1), (F.HRW_SEND_TRUG 4, 9), (F.HRW_SEND_KIND 4, 1), (F.HRW_SEND_STREAM 4, 2)]
  { s with hedge := { s.hedge with ports := [(0, { up := true, helloSeen := true, fwd := fwd })] }
           trugs := [(9, { ring := [⟨padTo 32 [7#8], 0x21#8⟩] })] }

/-- Items that are sent, HELLO, and time (HedgerowItems). -/
theorem witness_hedge_sends :
    (routed []).itemRunner 0 5 2 = some 0 ∧
    got (.hrwForwardStart 0) (sending [⟨(header 5 4 1).data, [payload]⟩]) (fun t => (t.out.length, (t.hedgePort 0).fwd)) = some (1, []) ∧
    got (.hrwSendItem 4 []) (sending []) (fun t => ((t.trug 9).ring, t.hedge.seqs.at 0 2)) = some ([], 1) ∧
    got (.hrwSendItem 4 []) (sending [⟨[], []⟩]) (fun t => t == sending [⟨[], []⟩]) = some true ∧
    got (.helloTimer 0) (routed []) (·.out.length) = some 1 ∧
    got (.timeReq 0 (msg 4 1 [8#8]) 5) (routed []) (·.out.length) = some 1 ∧
    got (.timeResp 0 (msg 5 1 [8#8])) (chained { timeReq := some (8, 0) } []) (fun t => (t.hedge.timeReq, t.hedge.delays.length))
      = some (none, 1) ∧
    got .hrwTimeExchange (chained {} [(F.TIME_CTL_SOURCE, 2), (F.HRW_TIME_RATE, 1)]) (fun t => t.hedge.timeReq.map (·.1)) = some (some 1) := by
  decide +kernel

/-- What else the hedgerow hears and does (HedgerowItems). -/
def staged (at_ : Nat) : List Byte := msg 0x14 0 (leBytes 3 (2 * 4096 + 3) ++ leBytes 2 7 ++ leBytes 6 at_)

/-- Graft transfers, wakes, links and routes (HedgerowItems). -/
theorem witness_hedge_rest :
    got (.graftStatus 12 (msg 0x13 0 (leBytes 3 (5 * 4096) ++ leBytes 2 7 ++ [0#8]))) (headed {} [(F.HRW_GRAFT_STAT_TRANSFER_ID, 7)])
      (fun t => (t.getF F.HRW_GRAFT_STAT_READY, t.getF F.HRW_GRAFT_STAT_REFUSED)) = some (1, 0) ∧
    got (.graftCommit 0 (staged 900)) (chained { staged := some (7, [1#8]) } [(F.HRW_ADDR_VALID, 1), (F.HRW_ADDR_ADDR, 3)])
      (·.hedge.commitAt) = some (some 900) ∧
    got (.graftCommit 0 (staged 0)) (chained { staged := some (7, [1#8]) } [(F.HRW_ADDR_VALID, 1), (F.HRW_ADDR_ADDR, 3)])
      (·.seed.image) = some [1#8] ∧
    got .graftCommitAt (chained { staged := some (7, [1#8]), commitAt := some 0 } []) (·.seed.running) = some false ∧
    got (.wake 0 (msg 0x15 0 (leBytes 3 6))) (chained {} [(F.HRW_ADDR_VALID, 1), (F.HRW_ADDR_ADDR, 3), (F.HRW_PORT_PEER_VALID 1, 1),
        (F.HRW_PORT_PEER_ADDR 1, 8)]) (fun t => ((t.hedgePort 1).waving, t.out)) = some (true, [.wakePattern 1 true]) ∧
    got (.hrwGraftCommitCmd 5 true 0x5EED) (headed {} []) (·.out.length) = some 1 ∧
    got (.hrwGraftSend 5 true 0x5EED (padTo 15 (padTo 14 [] ++ [1#8])) none) (headed {} [(F.SEED_HOST_LEN_LEN, 15)])
      (fun t => (t.getF F.HRW_GRAFT_STAT_TRANSFER_ID, t.freeCtr)) = some (1, 1) ∧
    got (.hrwBrokenRetry 0) { chained {} [] with hedge := { ports := [(0, { brokenOff := true })] } } (fun t => (t.runState 0, t.runTier 0))
      = some (1, 0) ∧
    got (.hrwLinkLost 0) (chained {} []) (fun t => (t.bit F.HRW_ERR_LINK_LOST, (t.hedgePort 0).up)) = some (true, false) ∧
    got (.wakePatternEnd 0) { chained {} [] with hedge := { ports := [(0, { waving := true })] } } (fun t => (t.out, t.runState 0))
      = some ([.wakePattern 0 false], 1) ∧
    got (.hrwRouteWrite 6 0#32) (chained {} []) (·.bit F.HRW_ERR_SETUP_BAD) = some true ∧
    got (.hrwSendWrite 6 0#32 0#32) (chained {} []) (·.bit F.HRW_ERR_SETUP_BAD) = some true := by decide +kernel

/-- An image of sections, each a type, a count of records and its bytes. -/
def sections (l : List (Nat × Nat × List Byte)) : List Byte :=
  let base := 32 + 16 * l.length
  padTo 12 [] ++ leBytes 2 l.length ++ padTo 18 [] ++
    (l.foldl (fun (acc : List Byte × Nat) x =>
      (acc.1 ++ leBytes 1 x.1 ++ padTo 1 [] ++ leBytes 2 x.2.1 ++ leBytes 4 acc.2 ++ leBytes 4 x.2.2.length ++ padTo 4 [],
        acc.2 + x.2.2.length)) ([], base)).1 ++ l.flatMap (·.2.2)

/-- Trug 7, which the hedgerow fills and empties, and a device that wakes by its port 1 (HedgerowItems). -/
def woven (l : List (Field × Nat)) : State :=
  let s := growing (sections [(5, 1, padTo 12 (leBytes 2 7 ++ padTo 6 [] ++ [10#8, 0#8, 10#8, 1#8]) ++ padTo 12 [])]) l
  { s with power := { s.power with powerGood := true, resetLow := false, railFault := 0 } }

theorem witness_hedge_setup :
    (woven []).trugProducer 7 = (10, 0) ∧ (woven []).trugConsumer 7 = (10, 1) ∧ (woven []).alive = true ∧
    got (.hrwRouteWrite 6 0xE00000#32) (woven []) (·.rd (R.HRW_ROUTE 6)) = some 0xE00000#32 ∧
    got (.hrwSendWrite 6 0x0A07#32 9#32) (woven []) (fun t => (t.rd (R.HRW_SEND 6), t.rd (R.HRW_SEND 6 + 4))) = some (0x0A07#32, 9#32) ∧
    (woven [(⟨R.PWR_WAKE_EN, 0, 4⟩, 4), (F.PWR_STATUS_STATE, 1)]).wakeEnabled 3 = true ∧
    got (.wakePatternDetect 1) ({ woven [(⟨R.PWR_WAKE_EN, 0, 4⟩, 4), (F.PWR_STATUS_STATE, 1)] with
        power := { (woven []).power with softReset := 1#21 <<< 12 } }) (·.power.wakeWaits) = some 3 ∧
    got (.wakePatternDetect 1) (woven [(⟨R.PWR_WAKE_EN, 0, 4⟩, 4), (F.PWR_STATUS_STATE, 2)])
      (fun t => (t.getF F.PWR_STATUS_LAST_WAKE, t.pwr, t.bit F.HRW_ERR_WOKEN)) = some (3, 0, true) := by decide +kernel

/-! ## Audio -/

/-- Endpoint 1 is a two-channel input into plot 1 of 4 slots, endpoint 2 an output of it, and endpoint 9 a receiver. -/
def hearing (a : Audio) (l : List (Field × Nat)) : State :=
  let img := sections
    [(7, 1, leBytes 2 1 ++ [0#8, 3#8] ++ padTo 12 [] ++ leBytes 8 3000 ++ padTo 8 []),
      (0x0B, 3, [1#8, 1#8, 0#8, 0#8, 32#8, 0#8, 1#8, 0#8] ++ leBytes 2 1 ++ padTo 6 [0xFF#8, 0xFF#8] ++
        [2#8, 2#8, 0#8, 0#8, 32#8, 0#8, 1#8, 1#8, 0xFF#8, 0xFF#8] ++ padTo 6 [0xFF#8, 0xFF#8] ++
        [9#8, 1#8, 0#8, 0#8, 32#8, 0#8, 1#8, 0#8] ++ leBytes 2 1 ++ padTo 6 [0xFF#8, 0xFF#8])]
  { growing img ([(F.AUD_EP_CFG_MODE 1, 1), (F.AUD_EP_CFG_CHANNELS 1, 2), (F.AUD_EP_CFG_WORD_BITS 1, 32), (F.AUD_EP_CFG_RATE 1, 1),
      (F.AUD_EP_STATUS_APPLIED 1, 3), (F.AUD_EP_CFG_MODE 2, 2), (F.AUD_EP_CFG_CHANNELS 2, 2), (F.AUD_EP_CFG_WORD_BITS 2, 32),
      (F.AUD_EP_CFG_RATE 2, 1), (F.AUD_EP_CFG_SOURCE 2, 1), (F.AUD_EP_STATUS_APPLIED 2, 3), (F.AUD_EP_CFG_MODE 9, 1),
      (F.AUD_EP_CFG_CHANNELS 9, 2), (F.AUD_EP_STATUS_LOCKED 9, 1)] ++ l) with audio := a }

/-- Inputs and receivers (AudioEndpoints). -/
theorem witness_audio_inputs :
    (hearing {} []).audIs 1 1 = true ∧ (hearing {} []).audIs 2 2 = true ∧ (hearing {} []).audIs 9 1 = true ∧
    (hearing {} []).audIs 3 1 = false ∧ (hearing {} []).audRing 1 = some (0, 5) ∧
    got (.audFrameIn 1 [5, 6] [1] true) (hearing {} []) (fun t => (t.aud 1).frames) = some [[5, 0]] ∧
    got (.audFrameIn 1 [5, 6] [] false) (hearing {} []) (fun t => ((t.aud 1).frames, t.bit (F.AUD_EP_ERR_OVERRUN 1)))
      = some ([[0, 0]], true) ∧
    got (.audBlockComplete 1) (hearing { eps := [(1, { frames := List.replicate 64 [5, 6] })] } [])
      (fun t => ((t.aud 1).written, t.hbm.read 12 2, t.hbm.read 32 5)) = some (1, [1#8, 2#8], [5#8, 0#8, 0#8, 0#8, 6#8]) ∧
    got (.aesCsBlock 9 [2#8, 7#8]) (hearing {} []) (fun t => (t.getF (F.AUD_EP_CS_BYTES 9 0), (t.aud 9).csMute)) = some (0x702, true) ∧
    got (.aesLockLost 9) (hearing {} []) (fun t => (t.bit (F.AUD_EP_STATUS_LOCKED 9), t.bit (F.AUD_EP_ERR_LOCK_LOST 9)))
      = some (false, true) ∧
    got (.aesLockGained 9) (hearing {} [(F.AUD_EP_STATUS_LOCKED 9, 0)]) (·.bit (F.AUD_EP_STATUS_LOCKED 9)) = some true ∧
    got (.audNonaudioEnd 1 0) (hearing { eps := [(1, { muted := [(0, some 16384)] })] } []) (fun t => (t.aud 1).muted) = some [] := by
  decide +kernel

/-- Endpoint 1 has written a block, of which output 2 is at a place. -/
def playing (x : AudEp) (l : List (Field × Nat)) : State :=
  let s := hearing { eps := [(1, { written := 1, stamps := [0] }), (2, x)] } l
  { s with hbm := s.hbm.store 32 (leBytes 4 5 ++ leBytes 4 6) }

/-- Outputs, masks and senders (AudioEndpoints). -/
theorem witness_audio_outputs :
    (playing {} []).audHas 1 0 = true ∧ (playing {} []).audHas 1 1 = false ∧
    ((playing {} []).audFrame 1 0 0 []).1 = [5, 6] ∧ ((playing {} []).audFrame 1 0 0 []).2.1 = false ∧
    got (.audFrameOut 2 false []) (hearing {} []) (·.out) = some [.audioFrame 2 [0, 0]] ∧
    got (.audFrameOut 2 false []) (playing { pos := some (0, 0) } []) (·.out) = some [.audioFrame 2 [5, 6]] ∧
    got (.audFrameOut 2 true []) (playing { pos := some (0, 0) } []) (fun t => (t.out, t.bit (F.AUD_EP_ERR_UNDERRUN 2)))
      = some ([.audioFrame 2 [0, 0]], true) ∧
    got (.audFrameOut 2 false []) (playing { pos := some (1, 0) } []) (fun t => (t.bit (F.AUD_EP_ERR_UNDERRUN 2), (t.aud 2).pos))
      = some (true, some (1, 1)) ∧
    got (.audOutBlockBoundary 2) (playing { pos := some (0, 0), count := 64 } []) (fun t => ((t.aud 2).bounded, (t.aud 2).pos))
      = some (true, some (0, 0)) ∧
    got (.audSlotMaskWrite 1 2#32 false) (hearing {} []) (fun t => (t.getF (F.AUD_EP_SLOT_MASK_MASK 1),
      t.bit (F.AUD_EP_STATUS_MASK_PENDING 1), t.getF (F.AUD_EP_STATUS_APPLIED 1))) = some (2, true, 3) ∧
    got (.audSlotMaskApply 1) (hearing { eps := [(1, { frames := [[0, 0]] })] } [(F.AUD_EP_STATUS_MASK_PENDING 1, 1),
        (F.AUD_EP_SLOT_MASK_MASK 1, 1)]) (fun t => (t.getF (F.AUD_EP_STATUS_APPLIED 1), (t.aud 1).flags)) = some (1, 8) ∧
    got (.audTx30Packet 1 []) ({ playing {} [(F.AUD_TX30_CTL_EN 1, 1), (F.AUD_TX30_CTL_SOURCE 1, 1), (F.AUD_TX30_CTL_COUNT 1, 2)] with
        audio := { eps := [(1, { written := 1, stamps := [0] })], txs := [(1, { pos := some (0, 0) })] } })
      (fun t => ((t.audTx 1).pos, (t.audTx 1).seq, t.out.length)) = some (some (0, 48), 1, 1) := by decide +kernel

/-! ## Twine -/

/-- A device whose image has channel 40, of ball 3 at either edge, and knot 6, which drives channel 40. -/
def twined (l : List (Field × Nat)) : State :=
  growing (sections [(6, 2, padTo 32 ([1#8, 32#8] ++ leBytes 2 40 ++ leBytes 2 3 ++ [0#8, 4#8]) ++
    padTo 24 ([2#8, 24#8, 6#8, 40#8] ++ padTo 12 [] ++ leBytes 2 1))])
    ([(F.TWN_CH_CFG_VALID 40, 1), (F.TWN_CH_CFG_SOURCE 40, 3), (F.TWN_CH_CFG_VEC 40, 1), (F.TWN_GROUP_EN, 1),
      (F.TWN_KNOT_CFG_OUT_CH 6, 40)] ++ l)

/-- An event of channel 40 is due. -/
def firing (last : Option Nat) (l : List (Field × Nat)) : State :=
  let s := twined l
  { s with twine := { s.twine with due := [⟨40, 0⟩], lastEvent := match last with | some x => [(40, some x)] | none => [] }
           power := { s.power with msixOn := true, pcieUp := true } }

/-- Edges and channel events (TwineEvents, TwineChannelVectors). -/
theorem witness_twine_events :
    (twined []).twineRuns = true ∧ (twined []).chanValid 40 = true ∧ (twined []).edgeMatches 40 true = true ∧
    (twined []).groupOpen 0 = true ∧ (twined [(F.TWN_GROUP_EN, 0)]).groupOpen 0 = false ∧ (twined []).coincides (some 0) = true ∧
    got (.evtEdge 3 true) (twined []) (fun t => (t.twine.due, t.twine.evtIn.at false 3)) = some ([⟨40, 0⟩], true) ∧
    got (.evtEdge 3 false) (twined []) (fun t => t == twined []) = some true ∧
    got (.twineChannelEvent 40) (firing (some 0) []) (fun t => (t.getF (F.TWN_CH_COUNT_MERGED 40), t.getF (F.TWN_CH_COUNT_EVENTS 40)))
      = some (1, 0) ∧
    got (.twineChannelEvent 40) (firing none [(F.TWN_GROUP_EN, 0)]) (fun t => (t.getF (F.TWN_CH_COUNT_EVENTS 40), t.msix))
      = some (1, []) ∧
    got (.twineChannelEvent 40) (firing none [(F.TWN_CTL_MSIX_EN, 1)]) (fun t => (t.bit ⟨R.TWN_PEND 1, 8, 1⟩, t.msix))
      = some (true, [172]) ∧
    got (.twnFireWrite 1 0x100#32) (twined []) (·.twine.due) = some [⟨40, 0⟩] ∧
    got (.twnFireWrite 1 0x100#32) (twined [(F.TWN_GROUP_EN, 0)]) (fun t => (t.twine.due, t.bit F.TWN_ERR_FIRE_OFF))
      = some ([], true) ∧
    got (.twnGroupWrite 5#32) (twined []) (·.getF F.TWN_GROUP_EN) = some 5 := by decide +kernel

/-- Knots, pulses and timers (TwineEvents). -/
theorem witness_twine_knots :
    ((twined []).knotRec 6).isSome = true ∧
    got (.knotFilterPass 6) ({ twined [] with twine := { (twined []).twine with knots := [(6, { filtering := some true })] } })
      (fun t => ((t.knot 6).level, t.bit (F.TWN_KNOT_STATE_O 6))) = some (true, true) ∧
    got (.loopGuardTrip 6) ({ twined [] with twine := { (twined []).twine with knots := [(6, { changes := [0, 0] })] } })
      (fun t => (t.groupOn 0, t.getF F.TWN_GUARD_MAP_GUARDED, t.bit F.TWN_ERR_LOOP_GUARD)) = some (false, 1, true) ∧
    got (.evtOutPulseEnd 3) ({ twined [] with twine := { (twined []).twine with tasks := [(3, { busy := true })], evtOut := [(3, true)] } })
      (fun t => (t.out, (t.task 3).busy)) = some ([.evtOut 3 false], false) ∧
    got (.twnTimerAtWrite 2 5#32) (twined []) (fun t => t.getF (F.TWN_TIMER_AT_AT 2)) = some (5 * 2 ^ 32) ∧
    got (.twineTimerFire 2) (twined [(F.TWN_TIMER_CTL_EN 2, 1), (F.TWN_TIMER_PERIOD_PERIOD 2, 9)])
      (fun t => (t.getF (F.TWN_TIMER_AT_AT 2), t.bit (F.TWN_TIMER_CTL_EN 2))) = some (9, true) ∧
    got (.twineTimerFire 2) (twined [(F.TWN_TIMER_CTL_EN 2, 1)]) (·.bit (F.TWN_TIMER_CTL_EN 2)) = some false := by decide +kernel

/-! ## Mailboxes -/

/-- Channel 9 from identity 3 to this receiver, as its page stands. -/
def mailed (recv : Nat) (p : MailPage) (l : List (Field × Nat)) : State :=
  (growing [] ([(F.MBX_BIND_SENDER 9, 3), (F.MBX_BIND_RECEIVER 9, recv)] ++ l)).setPage 9 p

/-- Messages and refused accesses (MailboxCommands). -/
theorem witness_mail :
    (mailed 8 {} []).mailReach 3 = true ∧ State.reset.mailReach 3 = false ∧ (mailed 8 {} []).mailWait = [] ∧
    got (.mbxPost 9 4) (mailed 8 {} []) (fun t => (t.bit F.MBX_ERR_ACCESS, t.getF F.MBX_ERR_CHANNEL, t.getF F.MBX_ERR_IDENTITY))
      = some (true, 9, 4) ∧
    got (.mbxPost 9 3) (mailed 8 { full := 16 } []) (fun t => (t.bit F.MBX_ERR_POST_FULL, (t.page 9).refused)) = some (true, 1) ∧
    got (.mbxPost 9 3) (mailed 8 { tail := 15 } []) (fun t => ((t.page 9).tail, (t.page 9).full, (t.page 9).pending))
      = some (0, 1, 1#32) ∧
    got (.mbxSlotWrite 9 3 4 7#32) (mailed 8 {} []) (fun t => (t.page 9).readSlot 0 []) = some (0 :: 7 :: List.replicate 14 0) ∧
    got (.mbxSlotWrite 9 3 64 7#32) (mailed 8 {} []) (fun t => t == mailed 8 {} []) = some true ∧
    got (.mbxTake 9 8 []) (mailed 8 { full := 1, slots := [(0, [5#8])] } []) (fun t => (t.lastRead, (t.page 9).head, (t.page 9).full))
      = some (5 :: List.replicate 15 0, 1, 0) ∧
    got (.mbxRing 9 3 6#32) (linked (mailed 8 {} [])) (·.msix) = some [77] ∧
    got (.mbxRing 9 3 6#32) (mailed 4 {} []) (·.out) = some [.mailNotify 9 4] ∧
    got (.mbxPendingClear 9 8 2#32) (mailed 8 { pending := 6#32 } []) (fun t => (t.page 9).pending) = some 4#32 ∧
    got (.mbxLockRead 9 3) (mailed 8 {} []) (fun t => ((t.page 9).lock, t.lastRead)) = some (3, [0]) ∧
    got (.mbxLockRead 9 8) (mailed 8 { lock := 3 } []) (·.lastRead) = some [3] ∧
    got (.mbxLockWrite 9 8 3#32) (mailed 8 { lock := 3 } []) (fun t => (t.page 9).lock) = some 0 ∧
    got (.mbxLockWrite 9 8 8#32) (mailed 8 { lock := 3 } []) (·.bit F.MBX_ERR_LOCK_BAD) = some true := by decide +kernel

/-- A parameter page is served (MailboxCommands). -/
theorem witness_mail_param :
    got (.mbxParamServe 9 false) (mailed 17 { full := 1, slots := [(0, [5#8])] } [(F.BED_SENSOR_VALID 0 1, 1)])
      (fun t => (t.staged.head?, t.bit (F.BED_SHADOW_PENDING 0 1), (t.page 9).full))
      = some (some (R.PE_SPLICE_PARAM 0 1 0, 5#32), true, 0) ∧
    got (.mbxParamServe 9 true) (mailed 17 { full := 1 } [(F.BED_SENSOR_VALID 0 1, 1)]) (·.bit F.MBX_ERR_BAD_TAKEN) = some true := by
  decide +kernel

/-! ## Resets, power, thermal policy and boundary scan -/

/-- A device with power, outside reset; and one of its states of power with registers set. -/
def powered (f : Power → Power) (l : List (Field × Nat)) : State :=
  let s := put grown l
  { s with power := f { s.power with powerGood := true, resetLow := false, railFault := 0 } }

/-- Resets and rails (DeviceResets). -/
theorem witness_resets :
    (powered id []).pwr ≠ 5 ∧ State.reset.power.powerGood = true ∧
    SMap.wf (resetWord grown.variant) (powered id [(F.SEED_HOST_LEN_LEN, 7)]).regs = true ∧
    got .pinReset (powered id [(F.SEED_HOST_LEN_LEN, 7)]) (fun t => (t.rd R.PWR_RESET_CAUSE, t.seed.due, t.power.resetLow))
      = some (2#32, 1, true) ∧
    got .powerOnReset (powered id [(F.SEED_HOST_LEN_LEN, 7)]) (fun t => (t.seed.due, t.getF F.SEED_HOST_LEN_LEN)) = some (1, 0) ∧
    got (.railFault true) (powered id []) (·.power.powerGood) = some false ∧
    got (.railFault false) (powered id []) (fun t => (t.power.railFault, t.rd R.PWR_RESET_CAUSE)) = some (1, 2#32) ∧
    got .railRecover (powered ({ · with railFault := 1 }) []) (·.power.railFault) = some 0 ∧
    got (.powerGood true) (powered ({ · with powerGood := false }) []) (fun t => (t.power.powerGood, t.bit F.HRW_STATUS_HEAD)) = some (true, true) ∧
    got .resetNRelease (powered ({ · with resetLow := true }) []) (·.power.resetLow) = some false ∧
    got .pinReset (powered ({ · with resetLow := true }) []) (·.seed.due) = some 0 := by decide +kernel

/-- The PCIe link (PcieLink). -/
theorem witness_pcie :
    got .perstAssert (linked ((powered id []).wr 0x3c00000 7#32)) (fun t => (t.rd 0x3c00000, t.power.msixOn, t.power.pcieUp))
      = some (0#32, false, false) ∧
    got .msixEnable (powered ({ · with pcieUp := true, held66 := true, held67 := true }) []) (fun t => (t.msix, t.power.msixOn))
      = some ([67, 66], true) ∧
    got .msixEnable (powered ({ · with pcieUp := false }) []) (·.power.msixOn) = some false ∧
    got .pcieLinkDown (linked (powered id [])) (·.power.pcieUp) = some false ∧
    got .pcieLinkRestore (powered ({ · with pcieUp := false, pcieWakeLow := true }) []) (fun t => (t.power.pcieUp, t.power.pcieWakeLow))
      = some (true, false) := by decide +kernel

/-- States of power (PowerStateRequests). -/
theorem witness_power_requests :
    (powered id []).alive = true ∧ (powered id [(F.PWR_STATUS_STATE, 1)]).drained = true ∧
    (powered id [(F.SEED_STATUS_STATE, 8)]).bit F.SEED_CAL_STATUS_BUSY = false ∧
    got (.pwrReqDormant 0x5EED) (powered id [(F.SEED_STATUS_STATE, 8)]) (fun t => (t.pwr, t.power.entering)) = some (1, 2) ∧
    got (.pwrReqFallow 0x5EED) (powered id [(F.SEED_STATUS_STATE, 8)]) (fun t => (t.pwr, t.power.entering)) = some (1, 3) ∧
    got (.pwrReqFallow 0x5EED) (powered id [(F.SEED_STATUS_STATE, 9)]) (fun t => (t.pwr, t.bit F.PWR_STATUS_REFUSED)) = some (0, true) ∧
    got .pwrEntryComplete (powered ({ · with entering := 2 }) [(F.PWR_STATUS_STATE, 1)]) (fun t => (t.pwr, t.power.entering))
      = some (2, 0) ∧
    got (.pwrReqWake 0x5EED) (powered id [(F.PWR_STATUS_STATE, 1)]) (·.power.wakeWaits) = some 5 ∧
    got (.pwrReqWake 0x5EED) (powered id [(F.PWR_STATUS_STATE, 2)]) (·.pwr) = some 0 ∧
    (powered id [(F.PWR_STATUS_STATE, 3), (⟨R.PWR_WAKE_EN, 0, 4⟩, 8)]).wakeEnabled 4 = true ∧
    got .pcieL2ExitWake (powered id [(F.PWR_STATUS_STATE, 3), (⟨R.PWR_WAKE_EN, 0, 4⟩, 8)])
      (fun t => (t.pwr, t.seed.due, t.getF F.PWR_STATUS_LAST_WAKE)) = some (4, 3, 4) := by decide +kernel

/-- Soft resets and the watchdog (SoftResetAndWatchdog). -/
theorem witness_soft_resets :
    softResettable 9 = true ∧ softResettable 13 = false ∧ (powered id []).rootReach = true ∧
    got (.softReset 9) (powered id [(F.REC_STATUS_READY, 1)]) (fun t => (t.power.softReset.getLsbD 9, t.bit F.REC_STATUS_READY))
      = some (true, false) ∧
    got (.softResetDone 9) (powered ({ · with softReset := 1#21 <<< 9 }) []) (·.power.softReset.getLsbD 9) = some false ∧
    got (.wdtKick 2 0x5EED#32) (powered ({ · with wdtFrom := 5#64 }) []) (·.power.wdtFrom) = some 0#64 ∧
    got (.wdtKick 8 0x5EED#32) (powered ({ · with wdtFrom := 5#64 }) []) (·.power.wdtFrom) = some 5#64 ∧
    ({ powered ({ · with wdtOn := true }) [(F.PWR_WDT_TIMEOUT_MS, 4)] with time := { State.reset.time with counter := 500000#64 } }
      : State).wdtMs = 4 ∧
    got .wdtExpire { powered ({ · with wdtOn := true }) [(F.PWR_WDT_TIMEOUT_MS, 4)] with
        time := { State.reset.time with counter := 500000#64 } } (fun t => (t.rd R.PWR_RESET_CAUSE, t.seed.due)) = some (8#32, 1) := by
  decide +kernel

/-- Trips (ThermalTripAndPolicy). -/
theorem witness_trip :
    (powered id []).sensorOn 27 = true ∧ (powered id []).policyOn = true ∧
    got (.thermalTrip 27 944) (powered id []) (fun t => (t.pwr, t.getF F.THM_TRIP_INFO_SENSOR, t.power.bypassClosed)) = some (5, 27, true) ∧
    got (.thermalTrip 27 943) (powered id []) (·.pwr) = some 0 ∧
    got .tripRestart (powered ({ · with coolRun := 10000 }) [(F.PWR_STATUS_STATE, 5)]) (fun t => (t.rd R.PWR_RESET_CAUSE, t.seed.due))
      = some (4#32, 1) ∧
    got .thermalRelief (powered ({ · with reliefRun := 1001 }) [(F.THM_STATUS_REQ, 1)]) (fun t => (t.bit F.THM_STATUS_RELIEF,
      t.bit F.THM_STATUS_REQ)) = some (true, false) ∧
    got .thermalStepReverse (powered ({ · with reliefRun := 11001, steps := [⟨some 0, []⟩] })
      [(F.THM_STATUS_RELIEF, 1)]) (fun t => (t.power.steps, t.power.reliefRun)) = some ([], 1001) := by decide +kernel

/-- A plan with one step for trigger 1, which lowers the tier of Runner 5. -/
def planning (f : Power → Power) (l : List (Field × Nat)) : State :=
  let s := growing (oneSection 0x0D 1 (padTo 8 ([1#8, 3#8] ++ leBytes 2 5))) ((F.THM_STATUS_REQ, 1) :: l)
  { s with power := f { s.power with powerGood := true, resetLow := false, railFault := 0 } }

/-- The throttle takes steps (ThermalTripAndPolicy). -/
theorem witness_throttle :
    (planning id []).policyOn = true ∧ ((planning id []).planSteps 1).map (·.index) = [0] ∧
    got .throttleGraceExpire (planning ({ · with grace := true }) []) (fun t => (t.bit F.THM_ERR_ENFORCED, t.power.thermAlert,
      t.power.steps.length)) = some (true, true, 1) ∧
    got .throttleStepTimer (planning ({ · with stepTimer := true }) [(F.THM_STATUS_COND, 1)]) (fun t => (t.bit F.THM_ERR_ENFORCED,
      t.power.steps.length)) = some (true, 1) := by decide +kernel

/-- Boundary scan (BoundaryScan). -/
theorem witness_jtag :
    got .jtagExtest (powered ({ · with resetLow := true }) []) (fun t => (t.tap.instr, t.tap.acts)) = some (.extest, true) ∧
    got .jtagHighz (powered id []) (fun t => (t.tap.instr, t.tap.acts)) = some (.highz, false) ∧
    got .jtagIdcode (powered id []) (·.lastRead) = some [0x188165E3] ∧
    got .jtagIdcode (powered ({ · with railFault := 2 }) []) (fun t => t == powered ({ · with railFault := 2 }) []) = some true ∧
    got .tapReset (powered id []) (·.tap.instr) = some .idcode := by decide +kernel

/-! ## Steps -/

/-- A step runs the command in front with the queue's rest, or passes a tick (StepRunsFrontCommand, StepsAreSafe). -/
theorem witness_steps :
    step { grown with pending := [.pcieLinkDown, .pinReset] } = exec .pcieLinkDown { grown with pending := [.pinReset] } ∧
    step { grown with pending := [.registerWrite 8 2 0#32] } = .fault .unaligned ∧
    step { grown with pending := [.registerWrite 8 0x4000000 0#32] } = .fault .outsideWindow ∧
    State.reset.canonical ∧ State.reset.pending = [] := by
  refine ⟨rfl, rfl, rfl, ?_, rfl⟩
  unfold State.canonical; decide +kernel

/-- An empty trug outside service, and one that holds a word (IdleReads). -/
theorem witness_idle_reads :
    (trugged {} [(F.TRUG_MODE_MODE, 1)]).up 14 = true ∧
    got (.trugRead 3 [] 0) (trugged {} [(F.TRUG_MODE_MODE, 1)]) (fun t => t.lastRead.getD 1 0) = some 0x40 ∧
    got (.trugRead 3 [] 0) (trugged { ring := [word1] } [(F.TRUG_MODE_MODE, 1)]) (·.lastRead) = some [0x5A, 0x21] := by
  decide +kernel

end Sys2Proof.Tests
end

section
/-!
PROOFS. The read port of the trugs (spec/04_trugs.md, R105, R106): words as bytes, the idle item, and a read of a trug
that holds a word without error.
-/

namespace Sys2Proof.Machine

/-! ## Registers as bytes (R10) -/

theorem leNat_append (a b : List Byte) : leNat (a ++ b) = leNat a + 256 ^ a.length * leNat b := by
  induction a with
  | nil => simp [leNat]
  | cons x a ih => rw [List.cons_append, leNat, leNat, ih, List.length_cons, Nat.pow_succ']; ring

/-- Words laid out little-endian one after another spell the number whose digits to base 2^32 they are. -/
theorem leNat_flatMap_leBytes (ws : List Word) :
    leNat (ws.flatMap fun w => leBytes 4 w.toNat) = Nat.ofDigits (2 ^ 32) (ws.map (·.toNat)) := by
  induction ws with
  | nil => rfl
  | cons w ws ih =>
    have hw : w.toNat % 256 ^ 4 = w.toNat := Nat.mod_eq_of_lt w.isLt
    rw [List.flatMap_cons, leNat_append, leNat_leBytes, length_leBytes, ih, hw, List.map_cons, Nat.ofDigits_cons]
    rfl

theorem words_toNat_lt (ws : List Word) : ∀ d ∈ ws.map (·.toNat), d < 2 ^ 32 :=
  List.forall_mem_map.mpr fun w _ => w.isLt

theorem ofDigits_words_lt {ws : List Word} {bits : Nat} (h : 32 * ws.length = bits) :
    Nat.ofDigits (2 ^ 32) (ws.map (·.toNat)) < 2 ^ bits := by
  rw [← h, pow_mul, ← List.length_map (·.toNat)]
  exact Nat.ofDigits_lt_base_pow_length (by norm_num) (words_toNat_lt ws)

/-- A word of the number that words spell is the word that stands there. -/
theorem ofDigits_words_div_mod (ws : List Word) (i : Nat) (h : i < ws.length) :
    Nat.ofDigits (2 ^ 32) (ws.map (·.toNat)) / 2 ^ (32 * i) % 2 ^ 32 = ws[i].toNat := by
  rw [pow_mul, Nat.ofDigits_div_pow_eq_ofDigits_drop i (by norm_num) _ (words_toNat_lt ws), Nat.ofDigits_mod_eq_head!,
    ← List.map_drop, List.drop_eq_getElem_cons h]
  exact Nat.mod_eq_of_lt ws[i].isLt

namespace State

/-- The registers TRUG_IDLE in order. -/
def idlePattern (s : State) : List Word := (List.range 8).map fun k => s.rd (R.TRUG_IDLE k)

@[simp] theorem length_idlePattern (s : State) : s.idlePattern.length = 8 := by simp [idlePattern]

theorem idlePattern_getElem (s : State) (i : Nat) (h : i < s.idlePattern.length) :
    s.idlePattern[i] = s.rd (R.TRUG_IDLE i) := by simp [idlePattern]

theorem leNat_trugIdle (s : State) :
    leNat s.trugIdle.data = Nat.ofDigits (2 ^ 32) (s.idlePattern.map (·.toNat)) := by
  rw [← leNat_flatMap_leBytes, idlePattern, List.flatMap_map]
  rfl

theorem leNat_trugIdle_lt (s : State) : leNat s.trugIdle.data < 2 ^ 256 := by
  rw [leNat_trugIdle]
  exact ofDigits_words_lt (by rw [length_idlePattern])

/-- Word 0 of the pattern stands in bytes 0 to 3 of the idle item, word 1 in bytes 4 to 7, and so on (R106). -/
theorem leNat_trugIdle_word (s : State) (i : Nat) (h : i < 8) :
    leNat s.trugIdle.data / 2 ^ (32 * i) % 2 ^ 32 = (s.rd (R.TRUG_IDLE i)).toNat := by
  rw [leNat_trugIdle, ofDigits_words_div_mod _ i (by simpa using h), idlePattern_getElem]

theorem trugIdles_iff (s : State) (n : Nat) :
    s.trugIdles n = true ↔
      s.getF F.TRUG_MODE_MODE = 1 ∨ s.getF F.TRUG_MODE_MODE = 2 ∨ s.bit (F.TRUG_STAT_RECOVERY n) = true := by
  simp [trugIdles, or_assoc]

/-! ## The state of a trug -/

@[simp] theorem when_false (s : State) (f : State → State) : s.when false f = s := rfl

@[simp] theorem trug_setF (s : State) (f : Field) (v n : Nat) : (s.setF f v).trug n = s.trug n := by rw [setF_eq]; rfl

@[simp] theorem trug_setB (s : State) (f : Field) (b : Bool) (n : Nat) : (s.setB f b).trug n = s.trug n := trug_setF ..

@[simp] theorem trug_lastRead (s : State) (l : List Nat) (n : Nat) : { s with lastRead := l }.trug n = s.trug n := rfl

@[simp] theorem trug_setTrug_same (s : State) (n : Nat) (t : Trug) : (s.setTrug n t).trug n = t := by
  simp only [setTrug, trug_setB, trug_setF]
  exact SMap.at_put_same ..

end State

/-! ## The read port -/

/-- A word without error is delivered as it is stored and counts as neither corrected nor uncorrectable (R111). -/
theorem trugDeliver_clean (w : TrugWord) : trugDeliver w [] 0 = (w, false, false) := by
  have hd : decodeErrs [] = .clean := by decide
  have hr : qorethRead w.data false [] = (w.data, .clean) := by simp [qorethRead, hd, applyErrs]
  simp [trugDeliver, hr, Verdict.isBad]

namespace State

theorem trugTake_empty {s : State} {n : Nat} (h : (s.trug n).ring = []) (errs : List SymErr) (k : Nat) :
    s.trugTake n errs k = (none, s) := by
  simp only [trugTake, h]

/-- The next word comes off the ring, and what the read port makes of it is counted (R111, R112). -/
theorem trugTake_cons {s : State} {n : Nat} {w : TrugWord} {rest : List TrugWord} (h : (s.trug n).ring = w :: rest)
    {errs : List SymErr} {k : Nat} {out : TrugWord} {cor unc : Bool} (hd : trugDeliver w errs k = (out, cor, unc)) :
    s.trugTake n errs k = (some out,
      ((s.setTrug n { s.trug n with ring := rest, reading := !out.tag.getLsbD 5, stalled := false }).when cor
        (·.bump (F.TRUG_CORR_COUNT n))).when unc (·.trugUncorr n)) := by
  simp only [trugTake, h, hd]

theorem trugTake_clean {s : State} {n : Nat} {w : TrugWord} {rest : List TrugWord} (h : (s.trug n).ring = w :: rest) :
    s.trugTake n [] 0 =
      (some w, s.setTrug n { s.trug n with ring := rest, reading := !w.tag.getLsbD 5, stalled := false }) := by
  rw [trugTake_cons h (trugDeliver_clean w), when_false, when_false]

/-- A read of an empty trug that idles returns the idle item and changes nothing else (R106). -/
theorem trugRead_idle {s : State} {n : Nat} (hr : (s.trug n).ring = []) (hd : s.trugDepth n ≠ 0)
    (hi : s.trugIdles n = true) (errs : List SymErr) (k : Nat) :
    s.trugRead n errs k = { s with lastRead := [leNat s.trugIdle.data, 0x40] } := by
  simp only [trugRead, trugTake_empty hr]
  rw [if_pos ⟨hd, hi⟩]
  rfl

/-- A read of a word without error delivers it and takes it off the ring, whatever the mode (R105, R106). -/
theorem trugRead_clean {s : State} {n : Nat} {w : TrugWord} {rest : List TrugWord} (h : (s.trug n).ring = w :: rest) :
    s.trugRead n [] 0 =
      { s.setTrug n { s.trug n with ring := rest, reading := !w.tag.getLsbD 5, stalled := false } with
        lastRead := [leNat w.data, w.tag.toNat] } := by
  simp only [trugRead, trugTake_clean h]

end State

/-- TRUG_READ of a trug of the table, with the trug block at work, is a read at the trug's port. -/
theorem exec_trugRead {s : State} {n : Nat} (hup : s.up 14 = true) (hn : n < 512) (errs : List SymErr) (k : Nat) :
    exec (.trugRead n errs k) s = .next (s.trugRead n errs k) := by
  have hexec : exec (.trugRead n errs k) s = execTrugRead n errs k s := rfl
  rw [hexec, execTrugRead, if_neg (by simp [hup, hn])]

/-- Settles O56: an empty trug that idles is not written to, and its item spells the pattern word by word; a read of a
word without error does not look at the mode. -/
theorem idleReads : Obligations.IdleReads := by
  unfold Obligations.IdleReads
  intro s n hup hn hdepth
  refine ⟨fun hring hmode errs k => ?_, fun w rest hring => ?_⟩
  · have hidles := (s.trugIdles_iff n).mpr hmode
    refine ⟨leNat s.trugIdle.data, ?_, s.leNat_trugIdle_lt, s.leNat_trugIdle_word⟩
    rw [exec_trugRead hup hn, State.trugRead_idle hring hdepth hidles]
  · refine ⟨_, exec_trugRead hup hn [] 0, ?_⟩
    rw [State.trugRead_clean hring]
    exact ⟨rfl, by rw [State.trug_lastRead, State.trug_setTrug_same]⟩

end Sys2Proof.Machine
end

section
/-!
PROOFS. The completion queues of the recording engine and their vectors (spec/13_recording_queue.md, R367, R368, R372,
R373): what an entry that is written sends out and raises, and the commands that write one.
-/

namespace Sys2Proof.Machine

namespace State

/-! ## States that differ in listed register words -/

theorem onlyWords_refl (s : State) (l : List Nat) : s.onlyWords s l := ⟨fun _ _ => rfl, rfl⟩

section
variable {s t : State} {l : List Nat}

/-- A field set within the listed words adds no difference outside them. -/
theorem onlyWords.setF (h : s.onlyWords t l) {f : Field} (v : Nat) (hf : f.off ∈ l)
    (hw : f.lo + f.width ≤ 32 ∨ f.off + 4 ∈ l := by exact .inl (Nat.le_of_ble_eq_true rfl)) :
    s.onlyWords (t.setF f v) l := by
  obtain ⟨hrd, heq⟩ := h
  refine ⟨fun o ho => ?_, ?_⟩
  · have hne : o ≠ f.off := fun e => ho (e ▸ hf)
    have hne4 : f.lo + f.width ≤ 32 ∨ o ≠ f.off + 4 := hw.imp_right fun hm e => ho (e ▸ hm)
    rw [rd_setF_ne _ _ _ hne hne4, hrd o ho]
  · calc t.setF f v = { t with regs := (t.setF f v).regs } := setF_eq ..
      _ = { s with regs := (t.setF f v).regs } := by rw [heq]

theorem onlyWords.out (h : s.onlyWords t l) : t.out = s.out := by rw [h.2]

theorem onlyWords.msix (h : s.onlyWords t l) : t.msix = s.msix := by rw [h.2]

theorem onlyWords.power (h : s.onlyWords t l) : t.power = s.power := by rw [h.2]

theorem onlyWords.recorder (h : s.onlyWords t l) : t.recorder = s.recorder := by rw [h.2]

theorem onlyWords.getF (h : s.onlyWords t l) {f : Field} (hf : f.off ∉ l)
    (hw : f.lo + f.width ≤ 32 := by exact Nat.le_of_ble_eq_true rfl) : t.getF f = s.getF f := by
  rw [getF_low _ _ hw, getF_low _ _ hw, h.1 _ hf]

theorem onlyWords.bit (h : s.onlyWords t l) {f : Field} (hf : f.off ∉ l)
    (hw : f.lo + f.width ≤ 32 := by exact Nat.le_of_ble_eq_true rfl) : t.bit f = s.bit f := by
  rw [State.bit, State.bit, h.getF hf hw]

/-- Room in a completion queue depends on CTL and TAIL of that queue and on its head alone (R367). -/
theorem onlyWords.cqRoom (h : s.onlyWords t l) {n : Nat} (hctl : R.REC_CQ_CTL n ∉ l) (htail : R.REC_CQ_TAIL n ∉ l) :
    t.cqRoom n = s.cqRoom n := by
  have hsize := h.getF (f := F.REC_CQ_CTL_SIZE n) hctl
  have hpos := h.getF (f := F.REC_CQ_TAIL_TAIL n) htail
  simp only [State.cqRoom, hsize, hpos, h.recorder]

end

/-! ## Vectors (R31) -/

/-- The host has enabled MSI-X and the link is up. -/
def msixReady (s : State) : Prop := s.power.msixOn = true ∧ s.power.pcieUp = true

theorem onlyWords.msixReady {s t : State} {l : List Nat} (h : s.onlyWords t l) (hs : s.msixReady) : t.msixReady := by
  rw [State.msixReady, h.power]
  exact hs

theorem out_when_raise (s : State) (c : Bool) (n : Nat) : (s.when c (·.raise n)).out = s.out := by
  have hraise : (s.raise n).out = s.out := by unfold raise; split <;> rfl
  cases c
  · rfl
  · exact hraise

/-- A vector whose source every bonding has fires once MSI-X is enabled and the link is up (R31). -/
theorem msix_when_raise {s : State} {n : Nat} (h : s.msixReady) (hn : n < 388) (c : Bool) :
    (s.when c (·.raise n)).msix = s.msix ++ (if c then [n] else []) := by
  have hpresent : vectorPresent s.variant n = true := if_pos hn
  cases c
  · exact (List.append_nil _).symm
  · simp [State.when, raise, h.1, h.2, hpresent]

/-! ## An entry of a completion queue (R367, R368) -/

/-- An entry is written to host memory, TAIL of the queue moves on, and the queue's vector follows under VEC_EN. -/
theorem cqWrite_steps (s : State) (n : Nat) (body : List Byte) (status : Nat) :
    ∃ a bytes t, (s.emit (.hostWrite a bytes)).onlyWords t [R.REC_CQ_TAIL n] ∧
      s.cqWrite n body status = t.when (s.bit (F.REC_CQ_CTL_VEC_EN n)) (·.raise n) := by
  have htail {x y : State} (h : x.onlyWords y [R.REC_CQ_TAIL n]) :
      y.bit (F.REC_CQ_CTL_VEC_EN n) = x.bit (F.REC_CQ_CTL_VEC_EN n) :=
    h.bit (by simp [F.REC_CQ_CTL_VEC_EN, R.REC_CQ_CTL, R.REC_CQ_TAIL])
  have hmoved (x : State) (v : Nat) : x.onlyWords (x.setF (F.REC_CQ_TAIL_TAIL n) v) [R.REC_CQ_TAIL n] :=
    (x.onlyWords_refl _).setF v (List.mem_singleton_self _)
  unfold cqWrite
  by_cases hwrap : s.getF (F.REC_CQ_TAIL_TAIL n) + 1 = s.getF (F.REC_CQ_CTL_SIZE n)
  · have h (x : State) (v p : Nat) := (hmoved x v).setF (f := F.REC_CQ_TAIL_PHASE n) p (List.mem_singleton_self _)
    simp only [if_pos hwrap, htail (h _ _ _)]
    exact ⟨_, _, _, h _ _ _, rfl⟩
  · simp only [if_neg hwrap, htail (hmoved _ _)]
    exact ⟨_, _, _, hmoved _ _, rfl⟩

/-- `t` follows `s` by one entry of completion queue `n`: one thing is sent, and vector `n` is raised under VEC_EN. -/
def cqTold (s : State) (n : Nat) (t : State) : Prop :=
  t.out.length = s.out.length + 1 ∧ t.msix = s.msix ++ (if s.bit (F.REC_CQ_CTL_VEC_EN n) then [n] else [])

theorem cqWrite_cqTold {s : State} {n : Nat} (h : s.msixReady) (hn : n < 64) (body : List Byte) (status : Nat) :
    s.cqTold n (s.cqWrite n body status) := by
  obtain ⟨a, bytes, t, ht, heq⟩ := s.cqWrite_steps n body status
  rw [cqTold, heq, out_when_raise, msix_when_raise (ht.msixReady h) (by omega), ht.out, ht.msix]
  exact ⟨List.length_append, rfl⟩

/-- Words other than CTL of the queue make no difference to what an entry sends and raises. -/
theorem onlyWords.cqTold {s t u : State} {l : List Nat} (h : s.onlyWords t l) {n : Nat} (hctl : R.REC_CQ_CTL n ∉ l)
    (hu : t.cqTold n u) : s.cqTold n u := by
  rwa [State.cqTold, ← h.out, ← h.msix, ← h.bit (f := F.REC_CQ_CTL_VEC_EN n) hctl]

/-! ## Completions (R367) -/

/-- With room in the queue the oldest completion that waits for it leaves the engine and is written. -/
theorem completionPost_room {s : State} {n : Nat} (hroom : s.cqRoom n = true) (hdone : ∃ d ∈ s.recorder.done, d.cq = n) :
    ∃ d body status, s.completionPost n =
      { s with recorder := { s.recorder with done := s.recorder.done.erase d } }.cqWrite n body status := by
  obtain ⟨d, hd⟩ : ∃ d, s.recorder.done.find? (fun d => d.cq == n) = some d := by
    rw [← Option.isSome_iff_exists, List.find?_isSome]
    simpa using hdone
  unfold completionPost
  simp only [hd, hroom, Bool.not_true, Bool.false_eq_true, if_false]
  exact ⟨d, _, _, rfl⟩

theorem completionPost_cqTold {s : State} {n : Nat} (h : s.msixReady) (hn : n < 64) (hroom : s.cqRoom n = true)
    (hdone : ∃ d ∈ s.recorder.done, d.cq = n) : s.cqTold n (s.completionPost n) := by
  obtain ⟨d, body, status, heq⟩ := completionPost_room hroom hdone
  rw [heq]
  exact cqWrite_cqTold (s := { s with recorder := { s.recorder with done := s.recorder.done.erase d } }) h hn body status

/-! ## Events (R373) -/

/-- An event that is enabled and finds room is noted in REC_EVENT and written to completion queue 0. -/
theorem recEvent_room {s : State} (hev : s.bit F.REC_CTL_EVENTS_EN = true) (hroom : s.cqRoom 0 = true) (code inst : Nat) :
    ∃ t body, s.onlyWords t [R.REC_EVENT, R.REC_EVENT + 4] ∧ s.recEvent code inst = (t.cqWrite 0 body 0).freed := by
  have hnoted (v : Nat) : s.onlyWords (s.setF F.REC_EVENT_EVENT v) [R.REC_EVENT, R.REC_EVENT + 4] :=
    (s.onlyWords_refl _).setF v (by decide) (.inr (by decide))
  have hev' (v : Nat) := ((hnoted v).bit (f := F.REC_CTL_EVENTS_EN) (by decide)).trans hev
  have hroom' (v : Nat) := ((hnoted v).cqRoom (n := 0) (by decide) (by decide)).trans hroom
  unfold recEvent
  simp only [hev', hroom', Bool.not_true, Bool.false_eq_true, if_false, if_true]
  exact ⟨_, _, hnoted _, rfl⟩

theorem recEvent_cqTold {s : State} (h : s.msixReady) (hev : s.bit F.REC_CTL_EVENTS_EN = true)
    (hroom : s.cqRoom 0 = true) (code inst : Nat) : s.cqTold 0 (s.recEvent code inst) := by
  obtain ⟨t, body, ht, heq⟩ := recEvent_room hev hroom code inst
  have hwritten : t.cqTold 0 (t.cqWrite 0 body 0).freed := cqWrite_cqTold (ht.msixReady h) (by decide) body 0
  rw [heq]
  exact ht.cqTold (by decide) hwritten

/-- A drive that attaches is noted in its record, its status and the status of its port, and its event follows (R387). -/
theorem driveAttached_steps {s : State} {d : Nat} (h : s.portServes d = true) (info : DriveInfo) :
    ∃ v t, (s.setDrive d v).onlyWords t [R.REC_DRIVE_STATUS d, R.REC_PORT_STATUS (d / 2)] ∧
      s.driveAttached d info = t.recEvent 1 d := by
  have hstatus (x : State) (l : List Nat) (a b c e g : Nat) (hl : R.REC_DRIVE_STATUS d ∈ l) : x.onlyWords
      (((((x.setF (F.REC_DRIVE_STATUS_PRESENT d) a).setF (F.REC_DRIVE_STATUS_FAILED d) b).setF
        (F.REC_DRIVE_STATUS_UNSUPPORTED d) c).setF (F.REC_DRIVE_STATUS_INTERLOCK d) e).setF
        (F.REC_DRIVE_STATUS_LAYOUT d) g) l :=
    (((((x.onlyWords_refl l).setF a hl).setF b hl).setF c hl).setF e hl).setF g hl
  have hdrive : R.REC_DRIVE_STATUS d ∈ [R.REC_DRIVE_STATUS d, R.REC_PORT_STATUS (d / 2)] := List.mem_cons_self
  have hport : R.REC_PORT_STATUS (d / 2) ∈ [R.REC_DRIVE_STATUS d, R.REC_PORT_STATUS (d / 2)] :=
    List.mem_cons_of_mem _ List.mem_cons_self
  unfold driveAttached
  simp only [h, Bool.not_true, Bool.false_eq_true, if_false]
  split
  · exact ⟨_, _, ((hstatus _ _ _ _ _ _ _ hdrive).setF _ hport).setF _ hport, rfl⟩
  · exact ⟨_, _, ((hstatus _ _ _ _ _ _ _ hdrive).setF _ hport).setF _ hport, rfl⟩

theorem driveAttached_cqTold {s : State} {d : Nat} (h : s.msixReady) (hd : s.portServes d = true)
    (hev : s.bit F.REC_CTL_EVENTS_EN = true) (hroom : s.cqRoom 0 = true) (info : DriveInfo) :
    s.cqTold 0 (s.driveAttached d info) := by
  obtain ⟨v, t, ht, heq⟩ := driveAttached_steps hd info
  have hout {o : Nat} (ho : o < 0x1c40004) : o ∉ [R.REC_DRIVE_STATUS d, R.REC_PORT_STATUS (d / 2)] := by
    simp only [R.REC_DRIVE_STATUS, R.REC_PORT_STATUS, List.mem_cons, List.not_mem_nil, or_false]
    omega
  have hcq := hout (o := R.REC_CQ_CTL 0) (by decide)
  rw [heq]
  have hevent := recEvent_cqTold (ht.msixReady h) ((ht.bit (f := F.REC_CTL_EVENTS_EN) (hout (by decide))).trans hev)
    ((ht.cqRoom hcq (hout (by decide))).trans hroom) 1 d
  exact ht.cqTold hcq hevent

end State

/-! ## The commands -/

theorem recDo_up {s : State} (hup : s.up 9 = true) (f : State → State) : s.recDo f = .next (f s) := by
  rw [State.recDo, if_pos hup]

/-- REC_COMPLETION_POST posts a completion while the engine's block works (R489). -/
theorem exec_recCompletionPost {s : State} (hup : s.up 9 = true) (n : Nat) :
    exec (.recCompletionPost n) s = .next (s.completionPost n) := by
  have hexec : exec (.recCompletionPost n) s = s.recDo (·.completionPost n) := rfl
  rw [hexec, recDo_up hup]

/-- DRIVE_ATTACHED attaches the drive while the engine's block works (R489). -/
theorem exec_driveAttached {s : State} (hup : s.up 9 = true) (d : Nat) (info : DriveInfo) :
    exec (.driveAttached d info) s = .next (s.driveAttached d info) := by
  have hexec : exec (.driveAttached d info) s = s.recDo (·.driveAttached d info) := rfl
  rw [hexec, recDo_up hup]

/-- Settles O57: a completion and an event are each one entry of a queue, whose vector the entry raises under VEC_EN. -/
theorem completionVectors : Obligations.CompletionVectors := by
  unfold Obligations.CompletionVectors
  intro s n hn hup hmsix hlink hroom
  have hready : s.msixReady := ⟨hmsix, hlink⟩
  refine ⟨fun hdone => ?_, fun d info hzero hserves hev => ?_⟩
  · exact ⟨_, exec_recCompletionPost hup n, State.completionPost_cqTold hready hn hroom hdone⟩
  · subst hzero
    exact ⟨_, exec_driveAttached hup d info, State.driveAttached_cqTold hready hserves hev hroom info⟩

end Sys2Proof.Machine
end

section
/-!
PROOFS. The vectors of Twine's channels (spec/16_signalling.md, R457): what an event of an open channel does to TWN_PEND and
to the vectors raised, that nothing which follows the event takes either back, and what the return of the link raises.
-/

namespace Sys2Proof.Machine

/-! ## The words beside TWN_PEND -/

/-- A word at an offset, and the word after it, lie outside the words of TWN_PEND. -/
abbrev offPend (o : Nat) : Prop := o + 4 < R.TWN_PEND 0 ∨ R.TWN_PEND 8 ≤ o

theorem offPend_run {k n : Nat} (hn : n < 256) (hk : k < 0x201000 := by decide) : offPend (k + 0x1000 * n) :=
  .inl (show _ < 0x2800040 by omega)

theorem offPend_twnKnotState (k : Nat) : offPend (R.TWN_KNOT_STATE k) :=
  .inr (show 0x2800060 ≤ 0x2820004 + 0x10 * k by omega)

theorem offPend_twnTask (t : Nat) : offPend (R.TWN_TASK t) := .inr (show 0x2800060 ≤ 0x2830000 + 0x4 * t by omega)

theorem offPend_twnGroup : offPend R.TWN_GROUP := by decide

theorem byteAt_lt (l : List Byte) (o : Nat) : byteAt l o < 256 := (l.getD o 0#8).isLt

theorem Variant.runners_lt (v : Variant) : v.runners < 256 := by cases v <;> decide

namespace State

/-! ## The tasks of an event (R269, R453, R485) -/

/-- A fork entry names its task in ten bits (R453). -/
theorem forks_lt {s : State} {c : Nat} {f : Nat × Nat} (hf : f ∈ s.forks c) : f.1 < 1024 := by
  unfold forks at hf
  split at hf
  · obtain ⟨i, -, rfl⟩ := List.mem_map.mp hf
    exact bitsOf_lt _ 0 10
  · simp at hf

/-- The engine and the context of a cell are bytes of its record, or those that are asked for. -/
theorem cells_lt {s : State} {e c : Nat} (he : e < 256) (hc : c < 256) {p : Nat × Nat} (hp : p ∈ s.cells e c) :
    p.1 < 256 ∧ p.2 < 256 := by
  unfold cells at hp
  dsimp only at hp
  split at hp
  · rw [List.mem_singleton.mp hp]
    exact ⟨he, hc⟩
  · obtain ⟨r, -, rfl⟩ := List.mem_map.mp hp
    exact ⟨byteAt_lt _ _, byteAt_lt _ _⟩

/-- Twine wakes the device as source 1, which sends no wake pattern (R485). -/
theorem wakeNow_twine (s : State) : s.wakeNow 1 =
    if s.pwr = 2 then (s.setF F.PWR_STATUS_LAST_WAKE 1).dormantWake
    else if s.pwr = 3 then (s.setF F.PWR_STATUS_LAST_WAKE 1).fallowWake 1 else s := by
  simp [wakeNow]

/-! ## Operations that only add vectors -/

/-- From `s` to `t` the words of TWN_PEND and the link stay as they are, and vectors are added, none with the link
down. -/
structure addsVectors (s t : State) : Prop where
  pend : ∀ j < 8, t.rd (R.TWN_PEND j) = s.rd (R.TWN_PEND j)
  link : t.power.pcieUp = s.power.pcieUp
  msix : ∃ l, t.msix = s.msix ++ l ∧ (s.power.pcieUp = false → l = [])

theorem addsVectors_refl (s : State) : s.addsVectors s := ⟨fun _ _ => rfl, rfl, [], (List.append_nil _).symm, fun _ => rfl⟩

theorem raise_msix (s : State) (n : Nat) : ∃ l, (s.raise n).msix = s.msix ++ l ∧ (s.power.pcieUp = false → l = []) := by
  unfold raise
  split
  case isTrue hready => exact ⟨[n], rfl, fun hdown => by simp [hdown] at hready⟩
  case isFalse => exact ⟨[], (List.append_nil _).symm, fun _ => rfl⟩

/-- A vector raised changes the list of vectors alone. -/
theorem raise_eq (s : State) (n : Nat) : s.raise n = { s with msix := (s.raise n).msix } := by
  unfold raise; split <;> rfl

namespace addsVectors
variable {s t : State}

/-- What leaves the registers, the link and the vectors alone adds nothing. -/
theorem same (h : s.addsVectors t) {u : State} (hregs : u.regs = t.regs := by rfl)
    (hvariant : u.variant = t.variant := by rfl) (hlink : u.power.pcieUp = t.power.pcieUp := by rfl)
    (hmsix : u.msix = t.msix := by rfl) : s.addsVectors u where
  pend j hj := by rw [State.rd, hregs, hvariant]; exact h.pend j hj
  link := hlink.trans h.link
  msix := hmsix ▸ h.msix

theorem wr (h : s.addsVectors t) {o : Nat} {v : Word} (ho : offPend o) : s.addsVectors (t.wr o v) where
  pend j hj := by
    have hne : R.TWN_PEND j ≠ o := by
      simp only [offPend, R.TWN_PEND] at ho ⊢
      omega
    rw [rd_wr_ne _ _ hne, h.pend j hj]
  link := h.link
  msix := h.msix

theorem setF (h : s.addsVectors t) {f : Field} {v : Nat} (hf : offPend f.off) : s.addsVectors (t.setF f v) where
  pend j hj := by
    have hne : R.TWN_PEND j ≠ f.off ∧ R.TWN_PEND j ≠ f.off + 4 := by
      simp only [offPend, R.TWN_PEND] at hf ⊢
      omega
    rw [rd_setF_ne _ _ _ hne.1 (.inr hne.2), h.pend j hj]
  link := by rw [setF_eq]; exact h.link
  msix := by rw [setF_eq]; exact h.msix

theorem flag (h : s.addsVectors t) {f : Field} (hf : offPend f.off) : s.addsVectors (t.flag f) := h.setF hf

theorem unflag (h : s.addsVectors t) {f : Field} (hf : offPend f.off) : s.addsVectors (t.unflag f) := h.setF hf

theorem setB (h : s.addsVectors t) {f : Field} {b : Bool} (hf : offPend f.off) : s.addsVectors (t.setB f b) := h.setF hf

theorem bump (h : s.addsVectors t) {f : Field} (hf : offPend f.off) : s.addsVectors (t.bump f) := h.setF hf

theorem setKnot (h : s.addsVectors t) {k : Nat} {x : Knot} : s.addsVectors (t.setKnot k x) := h.same

theorem setRunner (h : s.addsVectors t) {n : Nat} {x : Runner} : s.addsVectors (t.setRunner n x) := h.same

theorem placeEvent (h : s.addsVectors t) {c : Nat} : s.addsVectors (t.placeEvent c) := h.same

theorem raise (h : s.addsVectors t) {n : Nat} : s.addsVectors (t.raise n) where
  pend j hj := by rw [raise_eq]; exact h.pend j hj
  link := by rw [raise_eq]; exact h.link
  msix := by
    obtain ⟨l, hl, hnone⟩ := h.msix
    obtain ⟨r, hr, hnone'⟩ := t.raise_msix n
    refine ⟨l ++ r, by rw [hr, hl, List.append_assoc], fun hdown => ?_⟩
    rw [hnone hdown, hnone' (h.link.trans hdown), List.append_nil]

theorem when (h : s.addsVectors t) {c : Bool} {f : State → State} (hf : s.addsVectors (f t)) :
    s.addsVectors (t.when c f) := by
  cases c
  · exact h
  · exact hf

theorem ite {c : Prop} [Decidable c] {u v : State} (hu : s.addsVectors u) (hv : s.addsVectors v) :
    s.addsVectors (if c then u else v) := by
  split
  · exact hu
  · exact hv

theorem foldl {α : Type} {f : State → α → State} {l : List α} (h : s.addsVectors t)
    (hf : ∀ x a, a ∈ l → s.addsVectors x → s.addsVectors (f x a)) : s.addsVectors (l.foldl f t) := by
  induction l generalizing t with
  | nil => exact h
  | cons a l ih =>
    exact ih (hf t a List.mem_cons_self h) fun x b hb hx => hf x b (List.mem_cons_of_mem _ hb) hx

/-! ## Knots and balls (R454, R458, R459) -/

theorem knotOut (h : s.addsVectors t) {k r : Nat} {o : Bool} : s.addsVectors (t.knotOut k r o) := by
  have hset := h.setB (f := F.TWN_KNOT_STATE_O k) (b := o) (offPend_twnKnotState k)
  unfold State.knotOut
  dsimp only
  split
  · exact h
  · exact hset.setKnot.when hset.setKnot.placeEvent

theorem knotPass (h : s.addsVectors t) {k r : Nat} {l : Bool} : s.addsVectors (t.knotPass k r l) :=
  ite h.setKnot h.setKnot.knotOut

theorem knotEval (h : s.addsVectors t) {k : Nat} : s.addsVectors (t.knotEval k) := by
  unfold State.knotEval
  split
  · exact h
  · exact ite h.setKnot (ite h.knotPass h.setKnot)

theorem evalKnots (h : s.addsVectors t) {p : Nat → Bool} : s.addsVectors (t.evalKnots p) :=
  h.foldl fun _ _ _ hx => hx.knotEval

theorem knotClock (h : s.addsVectors t) {c : Nat} : s.addsVectors (t.knotClock c) := by
  unfold State.knotClock
  dsimp only
  refine (h.foldl fun x a _ hx => ?_).evalKnots
  obtain ⟨k, l⟩ := a
  have hset := hx.setB (f := F.TWN_KNOT_STATE_Q k) (b := l) (offPend_twnKnotState k)
  dsimp only
  split
  · exact hset.knotOut
  · exact hset

theorem pulseRise (h : s.addsVectors t) {c : Nat} : s.addsVectors (t.pulseRise c) := h.same.evalKnots

theorem driveBall (h : s.addsVectors t) {b : Nat} {level : Bool} : s.addsVectors (t.driveBall b level) :=
  (h.same.setB (.inr (Nat.le_refl _))).evalKnots

/-! ## Groups (R460, R461) -/

theorem groupDisable (h : s.addsVectors t) {g : Nat} {hard : Bool} : s.addsVectors (t.groupDisable g hard) :=
  (h.unflag (f := ⟨R.TWN_GROUP, g, 1⟩) offPend_twnGroup).same

theorem groupEnable (h : s.addsVectors t) {g : Nat} : s.addsVectors (t.groupEnable g) := by
  refine (h.flag (f := ⟨R.TWN_GROUP, g, 1⟩) offPend_twnGroup).foldl fun x k _ hx => ?_
  dsimp only
  split
  · split
    · exact hx.setKnot
    · exact hx.setKnot.knotOut
  · exact hx.setKnot

theorem groupEnTask (h : s.addsVectors t) {g : Nat} : s.addsVectors (t.groupEnTask g) :=
  ite h (ite h h.groupEnable).same

/-! ## Doorbells and key requests (R269, R475) -/

theorem mailNotify (h : s.addsVectors t) {c : Nat} : s.addsVectors (t.mailNotify c) :=
  ite (ite h.raise h.same) h.same

theorem mailRing (h : s.addsVectors t) {c : Nat} {bits : Word} : s.addsVectors (t.mailRing c bits) :=
  ite h (h.same.when h.same.mailNotify)

theorem keyRequest (h : s.addsVectors t) {e c : Nat} {sweep : Bool} (he : e < 256) (hc : c < 256) :
    s.addsVectors (t.keyRequest e c sweep) := by
  unfold State.keyRequest
  split
  · exact h
  · refine h.foldl fun x p hp hx => ?_
    obtain ⟨ha, hb⟩ := cells_lt he hc hp
    have hkey : offPend (R.SE_CTX_KEY p.1 p.2) :=
      .inl (show 0x1010104 + 0x1000 * p.1 + 0x80 * p.2 + 4 < 0x2800040 by omega)
    have hcount : offPend (R.SE_CTX_CNT p.1 p.2 8) :=
      .inl (show 0x1010124 + 0x1000 * p.1 + 0x80 * p.2 + 0x4 * 8 + 4 < 0x2800040 by omega)
    exact ite (hx.bump hcount) (hx.flag (by cases sweep <;> exact hkey))

/-! ## The wake from Dormant or Fallow (R485 to R487) -/

theorem runTo (h : s.addsVectors t) {n st : Nat} (hn : n < 256) : s.addsVectors (t.runTo n st) :=
  have hset := h.setF (f := F.RUN_STATUS_STATE n) (v := st) (offPend_run hn)
  hset.when (hset.when hset.raise)

theorem lanesDown (h : s.addsVectors t) {n : Nat} (hn : n < 256) : s.addsVectors (t.lanesDown n) :=
  h.foldl fun _ k hk hx => hx.wr <| .inl <| by
    have := List.mem_range.mp hk
    show 0x200040 + 0x1000 * n + 0x4 * k + 4 < 0x2800040
    omega

theorem firStart (h : s.addsVectors t) {n : Nat} (hn : n < 256) : s.addsVectors (t.firStart n) :=
  h.foldl fun _ l hl hx =>
    have hfir : offPend (R.RUN_FIR n l) := .inl <| by
      have := List.mem_range.mp hl
      show 0x200080 + 0x1000 * n + 0x4 * l + 4 < 0x2800040
      omega
    ((hx.setF hfir).setF hfir).setF hfir

theorem toDetect (h : s.addsVectors t) {n : Nat} (hn : n < 256) : s.addsVectors (t.toDetect n) := by
  have hstatus : offPend (R.RUN_STATUS n) := offPend_run hn
  have hctl : offPend (R.RUN_CTL n) := offPend_run hn
  have htrains : offPend (R.RUN_TRAINS n) := offPend_run hn
  exact (((((((((h.runTo hn).setF hstatus).setF hstatus).setF hstatus).unflag hstatus).unflag hctl).bump
    htrains).setRunner).lanesDown hn).firStart hn

theorem l2Leave (h : s.addsVectors t) {n : Nat} (hn : n < 256) : s.addsVectors (t.l2Leave n) :=
  have hstatus : offPend (R.RUN_STATUS n) := offPend_run hn
  ((h.runTo hn).setF hstatus).setRunner

theorem runnerWake (h : s.addsVectors t) {n : Nat} (hn : n < 256) : s.addsVectors (t.runnerWake n) :=
  ite (ite (ite h (h.l2Leave hn)) (h.toDetect hn)) h

theorem setAlert (h : s.addsVectors t) {low : Bool} : s.addsVectors (t.setAlert low) := ite h h.same

theorem setBypass (h : s.addsVectors t) {closed : Bool} : s.addsVectors (t.setBypass closed) := ite h h.same

theorem setPcieWake (h : s.addsVectors t) {low : Bool} : s.addsVectors (t.setPcieWake low) := ite h h.same

theorem policyFresh (h : s.addsVectors t) : s.addsVectors t.policyFresh := by
  have hthm : ∀ f ∈ [F.THM_STATUS_WARN, F.THM_STATUS_COND, F.THM_STATUS_REQ, F.THM_STATUS_RELIEF,
      F.THM_STATUS_GRACE_LEFT], offPend f.off := by decide
  have hcleared := h.foldl (f := State.unflag) fun x f hf hx => hx.unflag (hthm f hf)
  unfold State.policyFresh
  exact hcleared.same.setAlert

theorem fireSource (h : s.addsVectors t) {src : Nat} : s.addsVectors (t.fireSource src) := ite h h.same

theorem servoTo (h : s.addsVectors t) {st : Nat} : s.addsVectors (t.servoTo st) := by
  unfold State.servoTo
  split
  · exact h
  · have hset := h.setF (f := F.TIME_STATUS_STATE) (v := st) (by decide)
    have hvector := hset.when (c := (t.setF F.TIME_STATUS_STATE st).bit F.TIME_CTL_MSIX_EN) (hset.raise (n := 484))
    dsimp only
    split
    · exact hvector.fireSource
    · exact hvector

theorem idrNext (h : s.addsVectors t) {e c : Nat} : s.addsVectors (t.idrNext e c) := h.foldl fun _ _ _ hx => hx.same

theorem dormantWake (h : s.addsVectors t) : s.addsVectors t.dormantWake := by
  have hawake : s.addsVectors (t.setPwr 0).wdtResume := (h.setF (f := F.PWR_STATUS_STATE) (v := 0) (by decide)).same
  have hfresh := (hawake.setBypass (closed := false)).policyFresh
  let x := ((t.setPwr 0).wdtResume.setBypass false).policyFresh
  have hrunners : s.addsVectors ((List.range x.variant.runners).foldl State.runnerWake x) :=
    hfresh.foldl fun _ _ hn hx => hx.runnerWake (lt_trans (List.mem_range.mp hn) (Variant.runners_lt _))
  unfold State.dormantWake
  dsimp only
  exact (ite hrunners.servoTo hrunners).foldl fun _ _ _ hx => ite hx.idrNext hx

theorem fallowWake (h : s.addsVectors t) {src : Nat} : s.addsVectors (t.fallowWake src) :=
  (h.setF (f := F.PWR_STATUS_STATE) (v := 4) (by decide)).same.setPcieWake

theorem wake (h : s.addsVectors t) : s.addsVectors (t.wake 1) := by
  have hmark := h.setF (f := F.PWR_STATUS_LAST_WAKE) (v := 1) (by decide)
  have hnow : s.addsVectors (t.wakeNow 1) := by
    rw [wakeNow_twine]
    exact ite hmark.dormantWake (ite hmark.fallowWake h)
  exact ite h (ite (ite h.same h) hnow)

/-! ## Tasks (R454 to R456) -/

theorem taskAct (h : s.addsVectors t) {k param : Nat} (hk : k < 1024) : s.addsVectors (t.taskAct k param) := by
  unfold State.taskAct
  split
  · split
    · exact h.same.driveBall
    · exact h.driveBall
    · exact h.driveBall
    · exact h.driveBall
  · have hkey := h.keyRequest (e := (k - 256) / 16) (c := (k - 256) % 16 / 2) (sweep := (k - 256) % 2 == 1)
      (by omega) (by omega)
    exact ite h.groupEnTask (ite h.groupDisable (ite (ite h.mailRing h) (ite h.wake hkey)))

theorem taskEvent (h : s.addsVectors t) {k param : Nat} (hk : k < 1024) : s.addsVectors (t.taskEvent k param) := by
  unfold State.taskEvent
  split
  · exact h.bump (offPend_twnTask k)
  · split
    · exact ((h.flag (offPend_twnTask k)).bump (offPend_twnTask k)).flag (by decide)
    · exact h.same.taskAct hk

end addsVectors

/-- After the vector of its channel, what an event reaches takes back neither PEND nor a vector. -/
theorem deliver_addsVectors (s : State) (c : Nat) : (s.chanVector c).addsVectors (s.deliver c) :=
  (addsVectors_refl _).knotClock.pulseRise.foldl fun _ _ hf hx => hx.taskEvent (forks_lt hf)

/-! ## The vector of a channel (R457) -/

/-- The bit of a channel in TWN_PEND. -/
abbrev pendBit (n : Nat) : Field := ⟨R.TWN_PEND (n / 32), n % 32, 1⟩

theorem pendBit_low (n : Nat) : (pendBit n).lo + (pendBit n).width ≤ 32 := Nat.mod_lt n (by decide)

theorem addsVectors.bit_pend {s t : State} (h : s.addsVectors t) {n : Nat} (hn : n < 256) :
    t.bit (pendBit n) = s.bit (pendBit n) := by
  rw [State.bit, State.bit, getF_low _ _ (pendBit_low n), getF_low _ _ (pendBit_low n), h.pend (n / 32) (by omega)]

theorem bit_flag {s : State} {f : Field} (h : f.lo + f.width ≤ 32) (hw : f.width = 1) : (s.flag f).bit f = true := by
  rw [State.bit, flag, getF_setF_same _ _ _ h, hw]
  rfl

@[simp] theorem flag_power (s : State) (f : Field) : (s.flag f).power = s.power := by rw [flag, setF_eq]

@[simp] theorem flag_msix (s : State) (f : Field) : (s.flag f).msix = s.msix := by rw [flag, setF_eq]

theorem bit_when_raise (s : State) (b : Bool) (n : Nat) (f : Field) : (s.when b (·.raise n)).bit f = s.bit f := by
  cases b
  · rfl
  · exact congrArg (·.bit f) (s.raise_eq n)

theorem chanVector_vec {s : State} {n : Nat} (hvec : s.bit (F.TWN_CH_CFG_VEC n) = true) : s.chanVector n =
    (s.flag (pendBit n)).when (s.bit F.TWN_CTL_MSIX_EN && s.power.pcieUp) (·.raise (132 + n)) := if_pos hvec

theorem chanVector_pend {s : State} {n : Nat} (hvec : s.bit (F.TWN_CH_CFG_VEC n) = true) :
    (s.chanVector n).bit (pendBit n) = true := by
  rw [chanVector_vec hvec, bit_when_raise, bit_flag (pendBit_low n) rfl]

theorem chanVector_up {s : State} {n : Nat} (hn : n < 256) (hvec : s.bit (F.TWN_CH_CFG_VEC n) = true)
    (h : s.msixReady) (hen : s.bit F.TWN_CTL_MSIX_EN = true) : (s.chanVector n).msix = s.msix ++ [132 + n] := by
  have hready : (s.flag (pendBit n)).msixReady := by rw [msixReady, flag_power]; exact h
  rw [chanVector_vec hvec, msix_when_raise hready (by omega), flag_msix, hen, h.2]
  rfl

theorem chanVector_down {s : State} {n : Nat} (hvec : s.bit (F.TWN_CH_CFG_VEC n) = true)
    (hdown : s.power.pcieUp = false) : (s.chanVector n).power = s.power ∧ (s.chanVector n).msix = s.msix := by
  rw [chanVector_vec hvec, hdown, Bool.and_false, when_false]
  exact ⟨flag_power .., flag_msix ..⟩

/-! ## An event of a channel (R450, R457, R460) -/

theorem onlyWords.coincides {s t : State} {l : List Nat} (h : s.onlyWords t l) (hl : R.TIME_STATUS ∉ l) (x : Option Nat) :
    t.coincides x = s.coincides x := by
  have hbit := h.bit (f := F.TIME_STATUS_INTERP_LOCK) hl
  have htime : t.time = s.time := by rw [h.2]
  have hticks : t.ticks = s.ticks := by simp only [State.ticks, hbit, htime]
  cases x with
  | none => rfl
  | some x => simp only [State.coincides, hticks]

theorem onlyWords.groupOpen {s t : State} {l : List Nat} (h : s.onlyWords t l) (hl : R.TIME_STATUS ∉ l)
    (hg : R.TWN_GROUP ∉ l) (g : Nat) : t.groupOpen g = s.groupOpen g := by
  have hgroup := h.getF (f := F.TWN_GROUP_EN) hg
  have htwine : t.twine = s.twine := by rw [h.2]
  simp only [State.groupOpen, State.groupOn, hgroup, htwine, h.coincides hl]

/-- The words in which an event of a channel is counted and stamped. -/
def countWords (c : Nat) : List Nat := [R.TWN_CH_COUNT c, R.TWN_CH_STAMP c, R.TWN_CH_STAMP c + 4]

theorem not_mem_countWords {c o : Nat} (h : o < 0x2810000 ∨ o % 0x20 = 0) : o ∉ countWords c := by
  simp only [countWords, R.TWN_CH_COUNT, R.TWN_CH_STAMP, List.mem_cons, List.not_mem_nil, or_false]
  omega

theorem not_mem_countWords_cfg (c n : Nat) : R.TWN_CH_CFG n ∉ countWords c :=
  not_mem_countWords (.inr (by rw [R.TWN_CH_CFG]; omega))

/-- The event waits on a channel that is defined while Twine runs, it is one of its own, and the group is open. -/
structure eventGoes (s : State) (c : Nat) : Prop where
  waits : ∃ e, s.twine.due.find? (fun x => x.channel == c) = some e
  runs : s.twineRuns = true
  valid : s.chanValid c = true
  apart : s.coincides (s.twine.lastEvent.at none c) = false
  opened : s.groupOpen (s.getF (F.TWN_CH_CFG_GROUP c)) = true

/-- Such an event is counted and stamped, and then delivered. -/
theorem eventGoes.channelEvent {s : State} {c : Nat} (h : s.eventGoes c) : ∃ tw u,
    ({ s with twine := tw } : State).onlyWords u (countWords c) ∧ s.channelEvent c = u.deliver c := by
  obtain ⟨⟨e, hwaits⟩, hruns, hvalid, hapart, hopened⟩ := h
  let s0 : State := { s with twine := { s.twine with due := s.twine.due.erase e } }
  let s1 : State := { s0 with twine := { s0.twine with lastEvent := s0.twine.lastEvent.put none c (some s0.ticks) } }
  have hcounted := ((s1.onlyWords_refl (countWords c)).setF (f := F.TWN_CH_COUNT_EVENTS c)
    (min (s1.getF (F.TWN_CH_COUNT_EVENTS c) + 1) (2 ^ 24 - 1)) List.mem_cons_self).setF (f := F.TWN_CH_STAMP_STAMP c)
    (patternOf 64 (s1.corrAt e.tick / 2048)) (by simp [countWords, F.TWN_CH_STAMP_STAMP])
    (.inr (by simp [countWords, F.TWN_CH_STAMP_STAMP]))
  refine ⟨_, _, hcounted, ?_⟩
  have hgroup := hcounted.getF (f := F.TWN_CH_CFG_GROUP c) (not_mem_countWords_cfg c c)
  have hgoes := hcounted.groupOpen (not_mem_countWords (.inl (by decide))) (not_mem_countWords (.inl (by decide)))
    (s.getF (F.TWN_CH_CFG_GROUP c))
  have hskip : ¬((!s0.twineRuns || !s0.chanValid c) = true) := by
    rw [show s0.twineRuns = true from hruns, show s0.chanValid c = true from hvalid]
    decide
  have hnew : ¬(s0.coincides (s0.twine.lastEvent.at none c) = true) := by
    rw [show s0.coincides (s0.twine.lastEvent.at none c) = false from hapart]
    decide
  unfold State.channelEvent
  simp only [hwaits]
  rw [if_neg hskip, if_neg hnew]
  refine if_pos ?_
  exact (congrArg _ hgroup).trans (hgoes.trans hopened)

/-- An event of a channel with VEC sets its PEND bit, and with the link down it raises nothing (R457). -/
theorem channelEvent_vec {s : State} {n : Nat} (hn : n < 256) (h : s.eventGoes n)
    (hvec : s.bit (F.TWN_CH_CFG_VEC n) = true) : (s.channelEvent n).bit (pendBit n) = true ∧
      (s.msixReady → s.bit F.TWN_CTL_MSIX_EN = true → ∃ l, (s.channelEvent n).msix = s.msix ++ (132 + n) :: l) ∧
      (s.power.pcieUp = false → (s.channelEvent n).msix = s.msix) := by
  obtain ⟨tw, u, hu, heq⟩ := h.channelEvent
  have hafter := u.deliver_addsVectors n
  have huvec : u.bit (F.TWN_CH_CFG_VEC n) = true := (hu.bit (not_mem_countWords_cfg n n)).trans hvec
  obtain ⟨l, hl, hnone⟩ := hafter.msix
  rw [heq]
  refine ⟨?_, fun hready hen => ⟨l, ?_⟩, fun hdown => ?_⟩
  · rw [hafter.bit_pend hn, chanVector_pend huvec]
  · have huen := (hu.bit (f := F.TWN_CTL_MSIX_EN) (not_mem_countWords (.inl (by decide)))).trans hen
    rw [hl, chanVector_up hn huvec (hu.msixReady hready) huen, hu.msix, List.append_assoc]
    rfl
  · have hudown : u.power.pcieUp = false := by rw [hu.power]; exact hdown
    obtain ⟨hpower, hmsix⟩ := chanVector_down huvec hudown
    rw [hl, hnone (by rw [hpower]; exact hudown), hmsix, hu.msix, List.append_nil]

/-! ## The return of the link (R457, R475) -/

theorem foldl_raise_msix {l : List Nat} {s : State} (h : s.msixReady) (hl : ∀ n ∈ l, n < 256) :
    (l.foldl (fun x n => x.raise (132 + n)) s).msix = s.msix ++ l.map (132 + ·) := by
  induction l generalizing s with
  | nil => exact (List.append_nil _).symm
  | cons n l ih =>
    have hn := hl n List.mem_cons_self
    have hready : (s.raise (132 + n)).msixReady := by rw [raise_eq]; exact h
    have hraise : (s.raise (132 + n)).msix = s.msix ++ [132 + n] := msix_when_raise h (by omega) true
    rw [List.foldl_cons, ih hready fun m hm => hl m (List.mem_cons_of_mem _ hm), hraise, List.append_assoc]
    rfl

/-- PCIE_WAKE_N changes nothing but its own level and what is sent out. -/
theorem setPcieWake_eq (s : State) (low : Bool) : ∃ o, s.setPcieWake low =
    { s with power := { s.power with pcieWakeLow := low }, out := o } := by
  unfold setPcieWake
  split
  case isTrue h => exact ⟨s.out, by rw [← h]⟩
  case isFalse => exact ⟨_, rfl⟩

/-- The channels with VEC whose PEND bit is set. -/
def pendChannels (s : State) : List Nat :=
  (List.range 256).filter fun n => s.bit (F.TWN_CH_CFG_VEC n) && s.bit (pendBit n)

theorem pendChannels_lt {s : State} {n : Nat} (h : n ∈ s.pendChannels) : n < 256 :=
  List.mem_range.mp (List.mem_filter.mp h).1

theorem mem_pendChannels {s : State} {n : Nat} (hn : n < 256) (hvec : s.bit (F.TWN_CH_CFG_VEC n) = true)
    (hpend : s.bit (pendBit n) = true) : n ∈ s.pendChannels :=
  List.mem_filter.mpr ⟨List.mem_range.mpr hn, by rw [hvec, hpend]; rfl⟩

/-- The doorbell vectors that were held for the link are raised, each page held no more (R475). -/
theorem addsVectors.mailHeld {s t : State} (h : s.addsVectors t) (l : List (Nat × MailPage)) :
    s.addsVectors (l.foldl (fun (x : State) e => (x.setPage e.1 { e.2 with held := false }).when
      (e.2.pending &&& e.2.mask != 0#32) (·.raise (68 + e.1))) t) :=
  h.foldl fun x e _ hx =>
    have hpage : s.addsVectors (x.setPage e.1 { e.2 with held := false }) := hx.same
    hpage.when hpage.raise

end State

/-- PCIE_LINK_RESTORE raises the vectors of the channels with VEC whose PEND bit is set (R457). -/
theorem exec_pcieLinkRestore {s : State} (hmsix : s.power.msixOn = true) (halive : s.alive = true) (hfallow : s.pwr ≠ 3)
    (htrip : s.pwr ≠ 5) (hen : s.bit F.TWN_CTL_MSIX_EN = true) :
    ∃ t l, exec .pcieLinkRestore s = .next t ∧ t.msix = s.msix ++ (s.pendChannels.map (132 + ·) ++ l) := by
  obtain ⟨o, hwake⟩ := ({ s with power := { s.power with pcieUp := true } } : State).setPcieWake_eq false
  let s1 : State := { s with power := { s.power with pcieUp := true, pcieWakeLow := false }, out := o }
  let s2 := s.pendChannels.foldl (fun x n => x.raise (132 + n)) s1
  have hchannels : s2.msix = s.msix ++ s.pendChannels.map (132 + ·) :=
    State.foldl_raise_msix (s := s1) ⟨hmsix, rfl⟩ fun _ hn => State.pendChannels_lt hn
  obtain ⟨l, hl, -⟩ := ((State.addsVectors_refl s2).mailHeld (s2.mail.filter fun e => e.2.held)).msix
  refine ⟨_, l, ?_, by rw [← List.append_assoc, ← hchannels]; exact hl⟩
  have hexec : exec .pcieLinkRestore s = execPcieLinkRestore s := rfl
  have hen1 : s1.bit F.TWN_CTL_MSIX_EN = true := hen
  rw [hexec, execPcieLinkRestore, if_neg (by simp [halive, hfallow, htrip])]
  simp only [hwake]
  rw [if_pos hen1]
  rfl

/-- Settles O48: the vector of a channel is the first thing that its event raises, what follows the event only adds
vectors, and the link's return raises the vector of each channel whose PEND bit is set. -/
theorem twineChannelVectors : Obligations.TwineChannelVectors := by
  unfold Obligations.TwineChannelVectors
  intro s hmsix
  refine ⟨fun n e hn hwaits hruns hvalid hapart hopened hvec => ?_, fun halive hfallow htrip hen => ?_⟩
  · have hgoes : s.eventGoes n := ⟨⟨e, hwaits⟩, hruns, by rw [State.chanValid, hvalid]; simp [hn], hapart, hopened⟩
    obtain ⟨hpend, hup, hdown⟩ := State.channelEvent_vec hn hgoes hvec
    exact ⟨_, rfl, hpend, fun hlink hen => hup ⟨hmsix, hlink⟩ hen, hdown⟩
  · obtain ⟨t, l, hexec, hraised⟩ := exec_pcieLinkRestore hmsix halive hfallow htrip hen
    refine ⟨t, hexec, _, hraised, fun n hn hvec hpend => ?_⟩
    exact List.mem_append_left _ (List.mem_map_of_mem (State.mem_pendChannels hn hvec hpend))

end Sys2Proof.Machine
end
